-- ==== Sys2Proof/Word.lean ====
section
/-!
DEFINITION. Sys2Proof/Word.lean: the word types of the Velem and their plainest arithmetic.
-/

namespace Sys2Proof

/-- One byte. -/
abbrev Byte := BitVec 8
/-- A 32-bit word: an FP32 lane, a slab word's data (R113), a 32-bit register. -/
abbrev W32 := BitVec 32
/-- A 48-bit address register value (R160). -/
abbrev W48 := BitVec 48
/-- A 64-bit word: an instruction (R202), a 64-bit register. -/
abbrev W64 := BitVec 64

/-- A slab word as stored: data [31:0], check bits C0..C6 [38:32], crazing bit Z [39] (R128). -/
abbrev SlabWord := BitVec 40
/-- An HBM word as stored: data [63:0], check byte [71:64] (R357). -/
abbrev HbmWord := BitVec 72

/-- A slab row, or a vector register with its side part: 32 data words, four side words, and one crazed bit per word,
bits 0 to 31 for the data words and 32 to 35 for the side words (R113, R214). Byte b of the data part is bits
8b+7 to 8b. -/
structure Row where
  data : BitVec 1024
  side : BitVec 128
  z : BitVec 36
deriving DecidableEq, Repr

/-- The row of zeros, nothing crazed. -/
def Row.zero : Row := { data := 0#1024, side := 0#128, z := 0#36 }

end Sys2Proof
end

