-- ==== Sys2Proof/Config.lean ====
section
/-!
DEFINITION. Sys2Proof/Config.lean: what one module fixes for itself, and the free values. Each free value is an
opaque constant without a body: nothing in Lean can evaluate it, so a claim that holds does so for every value of it.
-/

namespace Sys2Proof.Config

/-- Core sites of the die (R6, R7): 64 columns of 40 rows. -/
def numSites : Nat := 2560
/-- Clusters of the die (R6). -/
def numClusters : Nat := 640
/-- Fields, which are also the partitions (R6, R30). -/
def numFields : Nat := 8
/-- Trunk ports (R496). -/
def numTrunks : Nat := 12
/-- Host ports (R441). -/
def numHosts : Nat := 2

/-- The free value of index n: what the manual leaves open where the machine goes on. The index is `State.free`, so
that every use draws a value of its own (assumption 3). -/
opaque freeValue : Nat → BitVec 64

/-- The ledger signature (r, s) over bytes 0x00 to 0x9F of a record under the module identity key, whose private part
never leaves the signal box (R487). The same bytes always carry the same signature (assumption 9). -/
opaque ledgerSign : List Byte → BitVec 384 × BitVec 384

/-- The cluster's static energy term in fJ for one 2 us interval: from the image's static table by voltage (mV) and
temperature (degrees C), whose figures the manual does not give (R420, assumption 10). -/
opaque staticTerm : Nat → Nat → Nat → Nat

/-- dev_ppm of a period whose measured energy is 0, of its estimate in fJ: the quotient of R481 has no value there (assumption 111). -/
opaque devOfNothing : Nat → BitVec 32

/-- k_raw, in units of 1/0x4000, of a millisecond whose estimated energy is 0, of its measured energy in fJ: the quotient of R422 has
no value there (assumption 137). -/
opaque ratioOfNothing : Nat → BitVec 32

end Sys2Proof.Config
end

