-- ==== Sys2Proof/Machine/Fp.lean ====
section
/-!
DEFINITION. Sys2Proof/Machine/Fp.lean: FP32 arithmetic. Every operation computes the exact value as a dyadic number
(a natural or integer count of a power of two) and rounds it once (R52 to R57, R224).
-/

namespace Sys2Proof.Machine

/-- What an FP32 or BF16 code stands for: NaN, a signed infinity, or the finite value (-1)^neg x mag x 2^ex. -/
inductive FpVal where
  | nan
  | inf (neg : Bool)
  | fin (neg : Bool) (mag : Nat) (ex : Int)
deriving DecidableEq, Repr

/-- The canonical FP32 NaN (R56). -/
def fpNan : W32 := 0x7FC00000#32

/-- The value of an FP32 code; subnormals are honoured (R39). -/
def fpDecode (x : W32) : FpVal :=
  let neg := x.getLsbD 31
  let e := (x.extractLsb' 23 8).toNat
  let m := (x.extractLsb' 0 23).toNat
  if e = 255 then (if m = 0 then .inf neg else .nan)
  else if e = 0 then .fin neg m (-149)
  else .fin neg (m + 8388608) ((e : Int) - 150)

/-- Half-way decision of round-to-nearest-even: r is the discarded part of sig, of k bits. -/
def rneUp (sig r k : Nat) : Bool :=
  if k = 0 then false
  else if r > 2 ^ (k - 1) then true
  else if r = 2 ^ (k - 1) then sig % 2 = 1
  else false

/-- The 31 magnitude bits of mag x 2^ex rounded once to FP32, nearest-even; beyond the range, infinity (R52). -/
def fpRoundMag (mag : Nat) (ex : Int) : Nat :=
  if mag = 0 then 0
  else
    let top : Int := (Nat.log2 mag : Int) + ex
    let q : Int := max (top - 23) (-149)
    let sig : Nat :=
      if q ≤ ex then mag * 2 ^ (ex - q).toNat
      else
        let k := (q - ex).toNat
        let s := mag / 2 ^ k
        if rneUp s (mag % 2 ^ k) k then s + 1 else s
    let bits : Int := (q + 149) * 8388608 + sig
    if bits ≥ 0x7F800000 then 0x7F800000 else bits.toNat

/-- The FP32 code with sign neg and the given 31 magnitude bits. -/
def fpCode (neg : Bool) (magBits : Nat) : W32 :=
  BitVec.ofNat 32 (magBits + if neg then 2147483648 else 0)

/-- mag x 2^ex with sign neg, rounded once to FP32. -/
def fpRound (neg : Bool) (mag : Nat) (ex : Int) : W32 := fpCode neg (fpRoundMag mag ex)

/-- n x 2^ex rounded once to FP32; an exact zero gives +0. -/
def fpRoundInt (n : Int) (ex : Int) : W32 := fpRound (decide (n < 0)) n.natAbs ex

/-- The signed count of 2^e units in a finite value whose exponent is at least e. -/
def fpUnits (neg : Bool) (mag : Nat) (ex e : Int) : Int :=
  let u : Int := (mag * 2 ^ (ex - e).toNat : Nat)
  if neg then -u else u

/-- Sum of two FP32 values, nearest-even; an exact zero sum is -0 only when both operands are -0. -/
def fpAddVal : FpVal → FpVal → W32
  | .nan, _ => fpNan
  | _, .nan => fpNan
  | .inf a, .inf b => if a = b then fpCode a 0x7F800000 else fpNan
  | .inf a, .fin .. => fpCode a 0x7F800000
  | .fin .., .inf b => fpCode b 0x7F800000
  | .fin na ma ea, .fin nb mb eb =>
    let e := min ea eb
    let n := fpUnits na ma ea e + fpUnits nb mb eb e
    if n = 0 then fpCode (na && nb && ma == 0 && mb == 0) 0 else fpRoundInt n e

/-- FP32 addition (R53, R55). -/
def fpAdd (a b : W32) : W32 := fpAddVal (fpDecode a) (fpDecode b)

/-- A value with its sign inverted; a NaN stays NaN. -/
def FpVal.negate : FpVal → FpVal
  | .nan => .nan
  | .inf n => .inf (!n)
  | .fin n m e => .fin (!n) m e

/-- FP32 subtraction. -/
def fpSub (a b : W32) : W32 := fpAddVal (fpDecode a) (fpDecode b).negate

/-- The exact product, not rounded; infinity times zero is NaN. -/
def fpMulVal : FpVal → FpVal → FpVal
  | .nan, _ => .nan
  | _, .nan => .nan
  | .inf a, .inf b => .inf (xor a b)
  | .inf a, .fin nb mb _ => if mb = 0 then .nan else .inf (xor a nb)
  | .fin na ma _, .inf b => if ma = 0 then .nan else .inf (xor na b)
  | .fin na ma ea, .fin nb mb eb => .fin (xor na nb) (ma * mb) (ea + eb)

/-- An exact value rounded once to FP32. -/
def fpEncode : FpVal → W32
  | .nan => fpNan
  | .inf n => fpCode n 0x7F800000
  | .fin n m e => fpRound n m e

/-- FP32 multiplication. -/
def fpMul (a b : W32) : W32 := fpEncode (fpMulVal (fpDecode a) (fpDecode b))

/-- a x b + c with one rounding (R224). -/
def fpFma (a b c : W32) : W32 := fpAddVal (fpMulVal (fpDecode a) (fpDecode b)) (fpDecode c)

/-- An order key of a code that is not NaN: -0 lies below +0. -/
def fpKey (x : W32) : Int :=
  let m : Int := (x.extractLsb' 0 31).toNat
  if x.getLsbD 31 then -m - 1 else m

/-- Is the code a NaN? -/
def fpIsNan (x : W32) : Bool := decide ((x.extractLsb' 0 31).toNat > 0x7F800000)

/-- IEEE 754-2019 maximum (R224). -/
def fpMax (a b : W32) : W32 :=
  if fpIsNan a || fpIsNan b then fpNan else if fpKey a < fpKey b then b else a

/-- IEEE 754-2019 minimum (R224). -/
def fpMin (a b : W32) : W32 :=
  if fpIsNan a || fpIsNan b then fpNan else if fpKey b < fpKey a then b else a

/-- The comparison of two codes that are not NaN: +0 and -0 are equal. -/
def fpEqv (a b : W32) : Bool :=
  decide (a = b) || (decide ((a.extractLsb' 0 31).toNat = 0) && decide ((b.extractLsb' 0 31).toNat = 0))

/-- VCMP's relations: 0 EQ, 1 LT, 2 LE, 3 NE; with a NaN operand EQ, LT and LE are false and NE is true (R224). -/
def fpCmp (rel : Nat) (a b : W32) : Bool :=
  if fpIsNan a || fpIsNan b then rel == 3
  else match rel with
    | 0 => fpEqv a b
    | 1 => decide (fpKey a < fpKey b) && !fpEqv a b
    | 2 => decide (fpKey a < fpKey b) || fpEqv a b
    | _ => !fpEqv a b

/-- One level of the pairwise tree: adjacent terms, lower index on the left (R53). -/
def pairLevel (f : W32 → W32 → W32) : List W32 → List W32
  | a :: b :: l => f a b :: pairLevel f l
  | l => l

/-- The pairwise tree over n levels (R53, R226). -/
def pairTree (f : W32 → W32 → W32) : Nat → List W32 → W32
  | 0, l => l.headD 0#32
  | n + 1, l => pairTree f n (pairLevel f l)

/-- A BF16 code as the FP32 code of the same value. -/
def bf16ToFp (x : BitVec 16) : W32 := x.setWidth 32 <<< 16

/-- Integer square root by bits: the largest r with r * r ≤ n, r below 2^(k). -/
def isqrtBits (n : Nat) : Nat → Nat → Nat
  | 0, r => r
  | k + 1, r => let r' := r + 2 ^ k; isqrtBits n k (if r' * r' ≤ n then r' else r)

/-- 1 / x (R225). -/
def fpRcp (x : W32) : W32 :=
  match fpDecode x with
  | .nan => fpNan
  | .inf n => fpCode n 0
  | .fin n m e =>
    if m = 0 then fpCode n 0x7F800000
    else
      let t := 2 ^ 80 / m
      fpRound n (2 * t + if 2 ^ 80 % m = 0 then 0 else 1) (-81 - e)

/-- 1 / sqrt x (R225). -/
def fpRsqrt (x : W32) : W32 :=
  match fpDecode x with
  | .nan => fpNan
  | .inf n => if n then fpNan else fpCode false 0
  | .fin n m e =>
    if m = 0 then fpCode n 0x7F800000
    else if n then fpNan
    else
      let odd := e % 2 ≠ 0
      let m' := if odd then 2 * m else m
      let e' : Int := if odd then e - 1 else e
      let r := isqrtBits (2 ^ 160 / m') 81 0
      fpRound false (2 * r + if r * r * m' = 2 ^ 160 then 0 else 1) (-81 - e' / 2)

end Sys2Proof.Machine
end

