-- ==== Sys2Proof/Machine/Formats.lean ====
section
/-!
DEFINITION. Sys2Proof/Machine/Formats.lean: the element formats, the exact column sums of the matrix array with their
silent-error checks, the quantising and dequantising conversions, and the generator of stochastic rounding
(R38 to R68, R106 to R109).
-/

namespace Sys2Proof.Machine

/-- The element types of Table 3.2 that carry a code of their own, 0x1 to 0x6. -/
inductive EType where
  | t2 | e2m1 | e4m3 | e5m2 | int8 | bf16
deriving DecidableEq, Repr

/-- The element type of a code of Table 3.2; none for NONE and the reserved codes. -/
def etypeOfCode (c : Nat) : Option EType :=
  match c with
  | 1 => some .t2
  | 2 => some .e2m1
  | 3 => some .e4m3
  | 4 => some .e5m2
  | 5 => some .int8
  | 6 => some .bf16
  | _ => none

/-- The code of Table 3.2. -/
def etypeCode : EType → Nat
  | .t2 => 1 | .e2m1 => 2 | .e4m3 => 3 | .e5m2 => 4 | .int8 => 5 | .bf16 => 6

/-- Element width in bits (Table 2.1). -/
def etypeBits : EType → Nat
  | .t2 => 2 | .e2m1 => 4 | .e4m3 => 8 | .e5m2 => 8 | .int8 => 8 | .bf16 => 16

/-- Elements in one 128-byte row: lanes of a weight column and of one activation half (Tables 2.3, 2.4). -/
def etypeLanes (t : EType) : Nat := 1024 / etypeBits t

/-- The negated exponent of the fixed-point unit (R52); 0 for BF16, which has none. -/
def etypeQ : EType → Nat
  | .t2 => 0 | .e2m1 => 1 | .e4m3 => 9 | .e5m2 => 16 | .int8 => 6 | .bf16 => 0

/-- Mantissa bits of a floating-point element; none for the integer-coded formats. -/
def etypeMant : EType → Option Nat
  | .t2 => none | .e2m1 => some 1 | .e4m3 => some 3 | .e5m2 => some 2 | .int8 => none | .bf16 => some 7

/-- The pairs of Table 2.5 (R49). -/
def pairOk (w a : EType) : Bool :=
  match w, a with
  | .t2, .e2m1 => true
  | .e2m1, .e2m1 => true
  | .e2m1, .e4m3 => true
  | .e2m1, .e5m2 => true
  | .e4m3, .e4m3 => true
  | .e4m3, .e5m2 => true
  | .e5m2, .e4m3 => true
  | .e5m2, .e5m2 => true
  | .int8, .int8 => true
  | .e4m3, .bf16 => true
  | .e5m2, .bf16 => true
  | .bf16, .bf16 => true
  | _, _ => false

/-- The side words that a read for type t carries (R629). -/
def etypeSideWords : EType → Nat
  | .t2 => 4 | .e2m1 => 2 | .e4m3 => 1 | .e5m2 => 1 | .int8 => 1 | .bf16 => 0

/-- The code of element i of a row's data part (R45). -/
def elemCode (t : EType) (d : BitVec 1024) (i : Nat) : Nat :=
  (d.extractLsb' (etypeBits t * i) (etypeBits t)).toNat

/-- Scale byte b of a side part (R46). -/
def scaleByte (sd : BitVec 128) (b : Nat) : Nat := (sd.extractLsb' (8 * b) 8).toNat

/-- Units of an unsigned floating-point code with mb mantissa bits. -/
def magUnits (mb c : Nat) : Nat :=
  let e := c / 2 ^ mb
  let m := c % 2 ^ mb
  if e = 0 then m else (2 ^ mb + m) * 2 ^ (e - 1)

/-- Is the element a NaN or an infinity of an MX format (R51)? -/
def elemSpecial (t : EType) (code : Nat) : Bool :=
  match t with
  | .e4m3 => code % 128 = 127
  | .e5m2 => code % 128 ≥ 124
  | _ => false

/-- The signed count of fixed-point units of an element; 0 for NaN, infinity and T2 code 10b (R42, R43, R51). -/
def elemUnits (t : EType) (code : Nat) : Int :=
  let fpu (mb w : Nat) : Int :=
    let m : Int := (magUnits mb (code % 2 ^ (w - 1)) : Nat)
    if code ≥ 2 ^ (w - 1) then -m else m
  if elemSpecial t code then 0
  else match t with
    | .t2 => if code = 1 then 1 else if code = 3 then -1 else 0
    | .e2m1 => fpu 1 4
    | .e4m3 => fpu 3 8
    | .e5m2 => fpu 2 8
    | .int8 => if code ≥ 128 then (code : Int) - 256 else code
    | .bf16 => fpu 7 16

/-- An activation row: two halves (R47). -/
structure ActRow where
  half0 : Row
  half1 : Row
deriving DecidableEq, Repr

/-- The half that holds activation lane i, and the lane's index within it (R48). -/
def actLane (a : EType) (r : ActRow) (i : Nat) : Row × Nat :=
  if i < etypeLanes a then (r.half0, i) else (r.half1, i - etypeLanes a)

/-- The code of activation lane i. -/
def actCode (a : EType) (r : ActRow) (i : Nat) : Nat :=
  let h := actLane a r i
  elemCode a h.1.data h.2

/-- The scale byte of activation block b. -/
def actScale (a : EType) (r : ActRow) (b : Nat) : Nat :=
  let h := actLane a r (32 * b)
  scaleByte h.1.side (h.2 / 32)

/-- A physical defect that a column meets in array row `row`, lane `lane`. In an exact-blocks pair the lane's product
is off by `value` units; in BF16 mode the lane delivers `value` as its term's 32-bit code. -/
structure Defect where
  row : Nat
  lane : Nat
  value : Int
deriving DecidableEq, Repr

/-- The active lanes of block b under K count k (R50). -/
def blockLanes (k b : Nat) : List Nat := (List.range 32).filterMap fun i => if 32 * b + i < k then some (32 * b + i) else none

/-- The exact block sum P_b with the defects of this row (R51). -/
def blockSum (w a : EType) (k : Nat) (col : Row) (r : ActRow) (ds : List Defect) (b : Nat) : Int :=
  let base := (blockLanes k b).foldl
    (fun p i => p + elemUnits w (elemCode w col.data i) * elemUnits a (actCode a r i)) 0
  ds.foldl (fun p d => if d.lane / 32 = b ∧ d.lane < k then p + d.value else p) base

/-- The canonical-NaN condition of an active block (R57). -/
def blockSpecial (w a : EType) (k : Nat) (col : Row) (r : ActRow) (b : Nat) : Bool :=
  decide (scaleByte col.side b = 255) || decide (actScale a r b = 255) ||
  (blockLanes k b).any fun i => elemSpecial w (elemCode w col.data i) || elemSpecial a (actCode a r i)

/-- The block term T_b (R52, R57); a term below the range rounds to +0 whatever its sign, and a block with no active
lane gives +0. -/
def blockTerm (w a : EType) (k : Nat) (col : Row) (r : ActRow) (ds : List Defect) (b : Nat) : W32 :=
  if 32 * b < k then
    if blockSpecial w a k col r b then fpNan
    else
      let t := fpRoundInt (blockSum w a k col r ds b)
        ((scaleByte col.side b : Int) + actScale a r b - 254 - etypeQ w - etypeQ a)
      if t = 0x80000000#32 then 0#32 else t
  else 0#32

/-- The lane term of BF16 mode (R54, R57); +0 for an inactive lane. -/
def laneTerm (w a : EType) (k : Nat) (col : Row) (r : ActRow) (ds : List Defect) (i : Nat) : W32 :=
  if i < k then
    match ds.find? (fun d => d.lane = i) with
    | some d => BitVec.ofInt 32 d.value
    | none =>
      let av := fpDecode (bf16ToFp (BitVec.ofNat 16 (actCode a r i)))
      let wc := elemCode w col.data i
      if w = .bf16 then fpEncode (fpMulVal (fpDecode (bf16ToFp (BitVec.ofNat 16 wc))) av)
      else if elemSpecial w wc ∨ scaleByte col.side (i / 32) = 255 then fpNan
      else
        let u := elemUnits w wc
        fpEncode (fpMulVal (.fin (decide (u < 0)) u.natAbs ((scaleByte col.side (i / 32) : Int) - 127 - etypeQ w)) av)
  else 0#32

/-- Levels of the pairwise tree over n terms, n a power of two. -/
def treeLevels (n : Nat) : Nat := Nat.log2 n

/-- The column sum of weight column col with one activation row (R51 to R54). -/
def columnSum (w a : EType) (k : Nat) (col : Row) (r : ActRow) (ds : List Defect) : W32 :=
  let lanes := etypeLanes w
  if a = .bf16 then
    pairTree fpAdd (treeLevels lanes) ((List.range lanes).map (laneTerm w a k col r ds))
  else
    pairTree fpAdd (treeLevels (lanes / 32)) ((List.range (lanes / 32)).map (blockTerm w a k col r ds))

/-- res(n): n mod 127 in the range 0 to 126 (R106). -/
def res127 (n : Int) : Nat := (n % 127).toNat

/-- The residue W_b of a checked block (R106). -/
def blockWitness (w a : EType) (k : Nat) (col : Row) (r : ActRow) (b : Nat) : Nat :=
  (blockLanes k b).foldl
    (fun s i => (s + res127 (elemUnits w (elemCode w col.data i)) * res127 (elemUnits a (actCode a r i))) % 127) 0

/-- W_b with bit 0 inverted when the injection is taken (R111). -/
def flipBit0 (inject : Bool) (n : Nat) : Nat := if inject then (if n % 2 = 0 then n + 1 else n - 1) else n

/-- Does the residue compare of block b of one row differ? `inv` inverts bit 0 of its W_b (R106, R108, R111). -/
def witnessBad (w a : EType) (k : Nat) (col : Row) (r : ActRow) (ds : List Defect) (b : Nat) (inv : Bool) : Bool :=
  decide (flipBit0 inv (blockWitness w a k col r b) ≠ res127 (blockSum w a k col r ds b))

/-- The checked blocks of a column: those with an active lane (R106). -/
def checkedBlocks (w : EType) (k : Nat) : List Nat := (List.range (etypeLanes w / 32)).filter fun b => decide (32 * b < k)

/-- Lanes of T2 code 10b within the K count (R43). -/
def badCodes (w : EType) (k : Nat) (col : Row) : Nat :=
  if w = .t2 then ((List.range (etypeLanes w)).filter fun i => decide (i < k) && decide (elemCode w col.data i = 2)).length
  else 0

/-- Special weight elements and 0xFF weight scales within the K count (R58). -/
def weightSpecials (w : EType) (k : Nat) (col : Row) : Nat :=
  if w = .bf16 then 0
  else
    ((List.range (etypeLanes w)).filter fun i => decide (i < k) && elemSpecial w (elemCode w col.data i)).length +
    ((List.range (etypeLanes w / 32)).filter fun b => decide (32 * b < k) && decide (scaleByte col.side b = 255)).length

/-- Special activation elements and 0xFF activation scales of one row within the K count (R58). -/
def actSpecials (w a : EType) (k : Nat) (r : ActRow) : Nat :=
  if a = .bf16 then 0
  else
    ((List.range (etypeLanes w)).filter fun i => decide (i < k) && elemSpecial a (actCode a r i)).length +
    ((List.range (etypeLanes w / 32)).filter fun b => decide (32 * b < k) && decide (actScale a r b = 255)).length

/-- The words (0 to 31 data, 32 to 35 side) of a row that carry an active lane, or the scale of a block with one;
lanes first to last of type t (R92). -/
def activeWords (t : EType) (first k : Nat) : BitVec 36 :=
  let n := min (k - first) (etypeLanes t)
  let dw := (n * etypeBits t + 31) / 32
  let sw := if t = .bf16 then 0 else ((n + 31) / 32 + 3) / 4
  (BitVec.ofNat 36 (2 ^ dw - 1)) ||| (BitVec.ofNat 36 ((2 ^ sw - 1) * 2 ^ 32))

/-- Does a crazed word of the weight column carry an active lane or scale (R92)? -/
def weightCrazed (w : EType) (k : Nat) (col : Row) : Bool := decide (col.z &&& activeWords w 0 k ≠ 0#36)

/-- Does a crazed word of the activation row carry an active lane or scale (R92)? -/
def actCrazed (w a : EType) (k : Nat) (r : ActRow) : Bool :=
  decide (r.half0.z &&& activeWords a 0 k ≠ 0#36) ||
  (decide (etypeLanes w > etypeLanes a) && decide (r.half1.z &&& activeWords a (etypeLanes a) k ≠ 0#36))

/-! ### Quantising conversions -/

/-- One rounding of mag x 2^e to the grid with mb mantissa bits (none: the integers), without an upper limit
(R60); `sr` is the 16 random bits of stochastic rounding, none for nearest-even (R67). -/
def roundGrid (mb : Option Nat) (mag : Nat) (e : Int) (sr : Option Nat) : Nat :=
  if mag = 0 then 0
  else
    let g : Int := match mb with
      | some m => max 0 ((Nat.log2 mag : Int) + e - m)
      | none => 0
    let k := g - e
    if k ≤ 0 then mag * 2 ^ e.toNat
    else
      let kn := k.toNat
      let s := mag / 2 ^ kn
      let r := mag % 2 ^ kn
      let up := match sr with
        | none => rneUp s r kn
        | some bits => decide (bits < r * 65536 / 2 ^ kn)
      (if up then s + 1 else s) * 2 ^ g.toNat

/-- The largest output magnitude in units (R60, R62). -/
def etypeMaxUnits : EType → Nat
  | .t2 => 1 | .e2m1 => 12 | .e4m3 => 229376 | .e5m2 => 3758096384 | .int8 => 127 | .bf16 => 255 * 2 ^ 253

/-- The unsigned code of u units with mb mantissa bits. -/
def unitsCode (mb u : Nat) : Nat :=
  if u < 2 ^ mb then u
  else
    let e := Nat.log2 u
    (e - mb + 1) * 2 ^ mb + u / 2 ^ (e - mb) - 2 ^ mb

/-- The element code of a signed count of units; zero has sign 0 (R40). -/
def encodeUnits (t : EType) (neg : Bool) (u : Nat) : Nat :=
  if u = 0 then 0
  else match t with
    | .t2 => if neg then 3 else 1
    | .int8 => if neg then 256 - u else u
    | _ =>
      let mb := (etypeMant t).getD 0
      unitsCode mb u + if neg then 2 ^ (etypeBits t - 1) else 0

/-- One quantised element: its code, and whether it was clipped. -/
structure QElem where
  code : Nat
  clipped : Bool
deriving DecidableEq, Repr

/-- Quantise one finite or infinite value with the scale 2^sc (R60, R61); NaN gives zero. -/
def quantElem (t : EType) (sc : Int) (x : W32) (sr : Option Nat) : QElem :=
  match fpDecode x with
  | .nan => { code := 0, clipped := false }
  | .inf n => { code := encodeUnits t n (etypeMaxUnits t), clipped := true }
  | .fin n m e =>
    let u := roundGrid (etypeMant t) m (e - sc + etypeQ t) sr
    if u > etypeMaxUnits t then { code := encodeUnits t n (etypeMaxUnits t), clipped := true }
    else { code := encodeUnits t n u, clipped := false }

/-- Convert one FP32 value to BF16 (R62). -/
def quantBf16 (x : W32) (sr : Option Nat) : QElem :=
  match fpDecode x with
  | .nan => { code := 0x7FC0, clipped := false }
  | .inf n => { code := if n then 0xFF80 else 0x7F80, clipped := false }
  | .fin n m e =>
    let u := roundGrid (some 7) m (e + 133) sr
    if u > etypeMaxUnits .bf16 then { code := if n then 0xFF7F else 0x7F7F, clipped := true }
    else { code := encodeUnits .bf16 n u, clipped := false }

/-- The magnitude bits of an input for the maximum-magnitude register; 0 for NaN (R63). -/
def magBits (x : W32) : Nat := if fpIsNan x then 0 else (x.extractLsb' 0 31).toNat

/-- emax of R59. -/
def etypeEmax : EType → Int
  | .e2m1 => 2 | .e4m3 => 8 | .e5m2 => 15 | _ => 0

/-- floor(log2) of the finite magnitude with the given 31 bits, not 0. -/
def magLog2 (b : Nat) : Int :=
  if b < 8388608 then (Nat.log2 b : Int) - 149 else ((b / 8388608 : Nat) : Int) - 127

/-- The scale byte of a block (R59). -/
def blockScale (t : EType) (xs : List W32) : Nat :=
  let m := xs.foldl (fun a x => max a (min (magBits x) 0x7F7FFFFF)) 0
  if m = 0 then 0
  else (min 254 (max 0 (magLog2 m - etypeEmax t + 127))).toNat

/-- What a quantised block gives: codes, scale byte, clipped and NaN counts and the largest magnitude. -/
structure QBlock where
  codes : List Nat
  scale : Nat
  clips : Nat
  nans : Nat
  maxMag : Nat
deriving DecidableEq, Repr

/-- Quantise one block of 32 values, the random bits by index within the block (R59 to R63). -/
def quantBlock (t : EType) (xs : List W32) (sr : Nat → Option Nat) : QBlock :=
  let sc := blockScale t xs
  let m := xs.foldl (fun a x => max a (magBits x)) 0
  let es := xs.zipIdx.map fun (x, i) =>
    if t = EType.bf16 then quantBf16 x (sr i)
    else if m = 0 then { code := 0, clipped := false } else quantElem t ((sc : Int) - 127) x (sr i)
  { codes := es.map (·.code), scale := if t = .bf16 then 0 else sc,
    clips := (es.filter (·.clipped)).length, nans := (xs.filter fpIsNan).length, maxMag := m }

/-- Dequantise one element (R64). An MX negative zero has the value zero (R40), a NaN is canonical (R56), and a BF16
lane is converted exactly (R229, assumption 14). DESIGN CHOICE (assumption 96): a T2 code 10b in a block whose scale byte is
0xFF gives the canonical NaN; R64 has the code give zero and R44 has the scale be NaN. -/
def dequant (t : EType) (code scale : Nat) : W32 :=
  if t = .bf16 then
    let x := bf16ToFp (BitVec.ofNat 16 code)
    if fpIsNan x then fpNan else x
  else if scale = 255 then fpNan
  else match t with
    | .e4m3 => if elemSpecial t code then fpNan else fpRoundInt (elemUnits t code) ((scale : Int) - 127 - etypeQ t)
    | .e5m2 =>
      if elemSpecial t code then (if code % 128 = 124 then fpCode (decide (code ≥ 128)) 0x7F800000 else fpNan)
      else fpRoundInt (elemUnits t code) ((scale : Int) - 127 - etypeQ t)
    | _ => fpRoundInt (elemUnits t code) ((scale : Int) - 127 - etypeQ t)

/-! ### Stochastic rounding -/

/-- One Philox round on (c0, c1, c2, c3) with keys k0, k1 (R65). -/
def philoxRound (c : W32 × W32 × W32 × W32) (k0 k1 : W32) : W32 × W32 × W32 × W32 :=
  let p0 := 0xD2511F53 * c.1.toNat
  let p1 := 0xCD9E8D57 * c.2.2.1.toNat
  (BitVec.ofNat 32 (p1 / 2 ^ 32) ^^^ c.2.1 ^^^ k0, BitVec.ofNat 32 p1,
   BitVec.ofNat 32 (p0 / 2 ^ 32) ^^^ c.2.2.2 ^^^ k1, BitVec.ofNat 32 p0)

/-- n Philox rounds (R65). -/
def philox : Nat → W32 × W32 × W32 × W32 → W32 → W32 → W32 × W32 × W32 × W32
  | 0, c, _, _ => c
  | n + 1, c, k0, k1 => philox n (philoxRound c k0 k1) (k0 + 0x9E3779B9#32) (k1 + 0xBB67AE85#32)

/-- sr_bits of R65. -/
def srBits (seed : W64) (vcid icount rep e : Nat) : Nat :=
  let c0 := BitVec.ofNat 32 icount
  let c1 := BitVec.ofNat 32 vcid
  let c2 := BitVec.ofNat 32 (rep % 65536 * 65536 + icount / 2 ^ 32 % 65536)
  let c3 := BitVec.ofNat 32 (rep / 65536 % 65536 * 65536 + e / 8)
  let w := philox 10 (c0, c1, c2, c3) (seed.setWidth 32) (BitVec.ofNat 32 (seed.toNat / 2 ^ 32))
  let word := match e % 8 / 2 with
    | 0 => w.1
    | 1 => w.2.1
    | 2 => w.2.2.1
    | _ => w.2.2.2
  if e % 2 = 0 then word.toNat % 65536 else word.toNat / 65536

end Sys2Proof.Machine
end

