-- ==== Sys2Proof/Machine/Isa.lean ====
section
/-!
DEFINITION. Sys2Proof/Machine/Isa.lean: the instruction words that a core fetches from its instruction memory: fields,
encoder and decoder (R202, R203, R240, R250, Tables 6.1 to 6.7 and 7.1 to 7.14).
-/

namespace Sys2Proof.Machine

/-- The register and immediate address functions (Table 6.3). -/
inductive AddrFn where
  | add | sub | and | or | shl | shr
deriving DecidableEq, Repr

/-- The second operand of an address function: AT or a 24-bit immediate (R211). -/
inductive AddrSrc where
  | reg (at_ : BitVec 5)
  | imm (v : BitVec 24)
deriving DecidableEq, Repr

/-- The R-form vector instructions (Table 6.6). -/
inductive VecFn where
  | vadd | vsub | vmul | vfma | vmax | vmin | vcmp | vsel | vand | vor | vxor | vtrans | vred
  | vmov | vbcast | vperm | vquant | vdeq
deriving DecidableEq, Repr

/-- The vector-memory instructions (Table 6.7). -/
inductive VmemFn where
  | vldr | vldc | vldn | vstr | vstc | vstn
deriving DecidableEq, Repr

/-- The transfer instructions (Table 7.7). -/
inductive XferFn where
  | xget | xput | xhalo | xcast
deriving DecidableEq, Repr

/-- A core instruction's operation with the operand fields of its encoding table. -/
inductive CoreOp where
  | nop
  | loop (e : BitVec 13) (count : BitVec 16)
  | loopr (e : BitVec 13) (as_ : BitVec 5)
  | stop (id : BitVec 16)
  | halt
  | notice (level : BitVec 6) (delay : BitVec 16)
  | time (ad : BitVec 5)
  | mark (tag : BitVec 16)
  | set (ad : BitVec 5) (imm : BitVec 32)
  | sethi (ad : BitVec 5) (imm : BitVec 16)
  | sets (ad : BitVec 5) (sel : BitVec 1) (imm : BitVec 32)
  | addr (f : AddrFn) (ad as_ : BitVec 5) (src : AddrSrc)
  | vec (f : VecFn) (vd va vb vc : BitVec 6) (rep : BitVec 8) (sa sb sc : BitVec 1) (sub : BitVec 5)
  | vsplat (vd : BitVec 6) (imm : BitVec 32)
  | vmem (f : VmemFn) (v : BitVec 6) (an : BitVec 5) (pi : BitVec 2) (s d : BitVec 1) (seg : BitVec 5)
      (rep : BitVec 8) (cstep : BitVec 1)
  | mmode (atype wtype : BitVec 4)
  | mclear (tiles : BitVec 16)
  | mload (an : BitVec 5) (pi : BitVec 2) (kcount : BitVec 10) (rowmask : BitVec 16)
  | mstream (an : BitVec 5) (pi : BitVec 2) (flip : BitVec 1) (c0 : BitVec 11) (n : BitVec 12)
  | mdrain (vb : BitVec 6) (clr : BitVec 1) (g0 ng : BitVec 6) (row0 nrows : BitVec 4)
  | xfer (f : XferFn) (an : BitVec 5) (ps : BitVec 2) (ad : BitVec 5) (pd kind : BitVec 2) (s po : BitVec 1)
      (count : BitVec 8) (cw ch : BitVec 6)
  | sset (slot : BitVec 8) (ab : BitVec 5) (pc cc : BitVec 6) (init remote : BitVec 1) (ar : BitVec 5)
  | swait (slot : BitVec 8)
  | spost (slot : BitVec 8)
  | sfree (slot : BitVec 8)
  | barrier (id : BitVec 16)
deriving DecidableEq, Repr

/-- An instruction: WAIT and POST fields (0xFF none) and the operation (Table 6.1). -/
structure CoreInsn where
  wait : BitVec 8
  post : BitVec 8
  op : CoreOp
deriving DecidableEq, Repr

/-- Opcodes of the address functions. -/
def addrFnByte : AddrFn → BitVec 8
  | .add => 0x22#8 | .sub => 0x23#8 | .and => 0x24#8 | .or => 0x25#8 | .shl => 0x26#8 | .shr => 0x27#8

/-- Opcodes of the R-form vector instructions. -/
def vecFnByte : VecFn → BitVec 8
  | .vadd => 0x40#8 | .vsub => 0x41#8 | .vmul => 0x42#8 | .vfma => 0x43#8 | .vmax => 0x44#8 | .vmin => 0x45#8
  | .vcmp => 0x46#8 | .vsel => 0x47#8 | .vand => 0x48#8 | .vor => 0x49#8 | .vxor => 0x4A#8 | .vtrans => 0x4B#8
  | .vred => 0x4C#8 | .vmov => 0x50#8 | .vbcast => 0x52#8 | .vperm => 0x53#8 | .vquant => 0x54#8 | .vdeq => 0x55#8

/-- Opcodes of the vector-memory instructions. -/
def vmemFnByte : VmemFn → BitVec 8
  | .vldr => 0x60#8 | .vldc => 0x61#8 | .vldn => 0x62#8 | .vstr => 0x68#8 | .vstc => 0x69#8 | .vstn => 0x6A#8

/-- Opcodes of the transfer instructions. -/
def xferFnByte : XferFn → BitVec 8
  | .xget => 0xA0#8 | .xput => 0xA1#8 | .xhalo => 0xA2#8 | .xcast => 0xA3#8

/-- The opcode byte [63:56] (R272). -/
def opByte : CoreOp → BitVec 8
  | .nop => 0x00#8
  | .loop .. => 0x01#8
  | .loopr .. => 0x02#8
  | .stop .. => 0x08#8
  | .halt => 0x09#8
  | .notice .. => 0x0A#8
  | .time .. => 0x0B#8
  | .mark .. => 0x0C#8
  | .set .. => 0x20#8
  | .sethi .. => 0x21#8
  | .addr f .. => addrFnByte f
  | .sets .. => 0x28#8
  | .vec f .. => vecFnByte f
  | .vsplat .. => 0x51#8
  | .vmem f .. => vmemFnByte f
  | .mmode .. => 0x80#8
  | .mload .. => 0x81#8
  | .mstream .. => 0x82#8
  | .mdrain .. => 0x83#8
  | .mclear .. => 0x84#8
  | .xfer f .. => xferFnByte f
  | .sset .. => 0xC0#8
  | .swait .. => 0xC1#8
  | .spost .. => 0xC2#8
  | .sfree .. => 0xC3#8
  | .barrier .. => 0xC4#8

/-- The 40 operand bits, each table's fields from the left, reserved fields 0. -/
def operandBits : CoreOp → BitVec 40
  | .nop => 0#40
  | .loop e c => e ++ (0#11 ++ c)
  | .loopr e a => e ++ (a ++ 0#22)
  | .stop id => 0#24 ++ id
  | .halt => 0#40
  | .notice l d => 0#18 ++ (l ++ d)
  | .time ad => 0#13 ++ (ad ++ 0#22)
  | .mark t => 0#24 ++ t
  | .set ad imm => ad ++ (0#3 ++ imm)
  | .sethi ad imm => ad ++ (0#19 ++ imm)
  | .sets ad sel imm => ad ++ (sel ++ (0#2 ++ imm))
  | .addr _ ad a src =>
    match src with
    | .reg t => ad ++ (a ++ (0#1 ++ (t ++ 0#24)))
    | .imm v => ad ++ (a ++ (1#1 ++ (0#5 ++ v)))
  | .vec _ vd va vb vc rep sa sb sc sub => vd ++ (va ++ (vb ++ (vc ++ (rep ++ (sa ++ (sb ++ (sc ++ sub)))))))
  | .vsplat vd imm => vd ++ (0#2 ++ imm)
  | .vmem _ v an pi s d seg rep cstep => v ++ (an ++ (pi ++ (s ++ (d ++ (0#4 ++ (seg ++ (rep ++ (cstep ++ 0#7))))))))
  | .mmode a w => 0#32 ++ (a ++ w)
  | .mclear t => 0#24 ++ t
  | .mload an pi k rm => an ++ (pi ++ (0#7 ++ (k ++ rm)))
  | .mstream an pi f c0 n => an ++ (pi ++ (f ++ (0#9 ++ (c0 ++ n))))
  | .mdrain vb clr g0 ng r0 nr => vb ++ (clr ++ (0#9 ++ (g0 ++ (ng ++ (r0 ++ (nr ++ 0#4))))))
  | .xfer _ an ps ad pd kind s po count cw ch =>
    an ++ (ps ++ (ad ++ (pd ++ (kind ++ (s ++ (po ++ (count ++ (cw ++ (ch ++ 0#2)))))))))
  | .sset slot ab pc cc init remote ar => slot ++ (ab ++ (pc ++ (cc ++ (init ++ (remote ++ (ar ++ 0#8))))))
  | .swait slot => slot ++ 0#32
  | .spost slot => slot ++ 0#32
  | .sfree slot => slot ++ 0#32
  | .barrier id => 0#24 ++ id

/-- The 64-bit word of an instruction (R202). -/
def encodeInsn (i : CoreInsn) : W64 := opByte i.op ++ (i.wait ++ (i.post ++ operandBits i.op))

/-- Does the vector function use VB, VC, REP and the steps SA, SB, SC (Table 6.6, R227, R229)? VPERM's VB depends on its
SUB. -/
def vecUses (f : VecFn) : Bool × Bool × Bool × Bool × Bool × Bool :=
  match f with
  | .vfma | .vsel => (true, true, true, true, true, true)
  | .vadd | .vsub | .vmul | .vmax | .vmin | .vcmp | .vand | .vor | .vxor => (true, false, true, true, true, false)
  | .vtrans | .vred | .vmov | .vbcast | .vquant => (false, false, true, true, false, false)
  | .vperm => (true, true, false, false, false, false)
  | .vdeq => (true, false, true, false, false, false)

/-- Is the SUB value listed for the vector function (Table 6.6)? -/
def vecSubOk (f : VecFn) (sub : BitVec 5) : Bool :=
  match f with
  | .vcmp => sub.toNat ≤ 3
  | .vtrans => sub.toNat ≤ 4
  | .vred | .vperm => sub.toNat ≤ 1
  | .vbcast => true
  | .vquant => 1 ≤ sub.toNat % 16 ∧ sub.toNat % 16 ≤ 6
  | .vdeq => 1 ≤ sub.toNat ∧ sub.toNat ≤ 6
  | _ => sub = 0#5

/-- The checks on operand fields that do not follow from the layout: unused fields 0, SUB values listed, KIND legal
(R203, R227, R229, R250, R251). -/
def opOk : CoreOp → Bool
  | .vec f _ _ vb vc rep sa sb sc sub =>
    let u := vecUses f
    (u.1 || decide (vb = 0#6)) && (u.2.1 || decide (vc = 0#6)) && (u.2.2.1 || decide (rep = 0#8)) &&
    (u.2.2.2.1 || decide (sa = 0#1)) && (u.2.2.2.2.1 || decide (sb = 0#1)) && (u.2.2.2.2.2 || decide (sc = 0#1)) &&
    vecSubOk f sub &&
    (!(decide (f = .vperm) && decide (sub = 1#5)) || decide (vb = 0#6)) &&
    (!decide (f = .vdeq) || decide (vb.toNat < 16))
  | .vmem f _ _ _ s d seg _ cstep =>
    match f with
    | .vldr => decide (d = 0#1) && decide (seg = 0#5) && decide (cstep = 0#1)
    | .vstr => decide (seg = 0#5) && decide (cstep = 0#1)
    | .vldc | .vstc => decide (s = 0#1) && decide (d = 0#1)
    | .vldn | .vstn => decide (s = 0#1) && decide (d = 0#1) && decide (cstep = 0#1)
  | .xfer f _ _ _ _ kind s po count cw ch =>
    match f with
    | .xget => decide (po = 0#1) && decide (cw = 0#6) && decide (ch = 0#6) && decide (kind ≠ 3#2) &&
        !(decide (kind = 2#2) && decide (s = 1#1))
    | .xput => decide (cw = 0#6) && decide (ch = 0#6) && decide (kind ≠ 3#2) &&
        !(decide (kind = 2#2) && decide (s = 1#1)) &&
        (decide (po = 0#1) || (decide (kind = 0#2) && decide (count = 0#8)))
    | .xhalo => decide (po = 0#1) && decide (cw = 0#6) && decide (ch = 0#6)
    | .xcast => decide (po = 0#1) && decide (kind.toNat < 2)
  | _ => true

/-- The checks on WAIT and POST: STOP and HALT post nothing, SWAIT waits on nothing (R207, R264). -/
def insnOk (i : CoreInsn) : Bool :=
  opOk i.op &&
  match i.op with
  | .stop _ => decide (i.post = 0xFF#8)
  | .halt => decide (i.post = 0xFF#8)
  | .swait _ => decide (i.wait = 0xFF#8)
  | _ => true

/-- The operand fields of a word read under vector function f. -/
def parseVec (f : VecFn) (w : W64) : CoreOp :=
  .vec f (w.extractLsb' 34 6) (w.extractLsb' 28 6) (w.extractLsb' 22 6) (w.extractLsb' 16 6) (w.extractLsb' 8 8)
    (w.extractLsb' 7 1) (w.extractLsb' 6 1) (w.extractLsb' 5 1) (w.extractLsb' 0 5)

/-- The operand fields of a word read under vector-memory function f. -/
def parseVmem (f : VmemFn) (w : W64) : CoreOp :=
  .vmem f (w.extractLsb' 34 6) (w.extractLsb' 29 5) (w.extractLsb' 27 2) (w.extractLsb' 26 1) (w.extractLsb' 25 1)
    (w.extractLsb' 16 5) (w.extractLsb' 8 8) (w.extractLsb' 7 1)

/-- The operand fields of a word read under address function f. -/
def parseAddr (f : AddrFn) (w : W64) : CoreOp :=
  .addr f (w.extractLsb' 35 5) (w.extractLsb' 30 5)
    (if w.getLsbD 29 then .imm (w.extractLsb' 0 24) else .reg (w.extractLsb' 24 5))

/-- The operand fields of a word read under transfer function f. -/
def parseXfer (f : XferFn) (w : W64) : CoreOp :=
  .xfer f (w.extractLsb' 35 5) (w.extractLsb' 33 2) (w.extractLsb' 28 5) (w.extractLsb' 26 2) (w.extractLsb' 24 2)
    (w.extractLsb' 23 1) (w.extractLsb' 22 1) (w.extractLsb' 14 8) (w.extractLsb' 8 6) (w.extractLsb' 2 6)

/-- The operation a word's opcode and fields name; none for an undefined opcode (R272). -/
def parseOp (w : W64) : Option CoreOp :=
  match (w.extractLsb' 56 8).toNat with
  | 0x00 => some .nop
  | 0x01 => some (.loop (w.extractLsb' 27 13) (w.extractLsb' 0 16))
  | 0x02 => some (.loopr (w.extractLsb' 27 13) (w.extractLsb' 22 5))
  | 0x08 => some (.stop (w.extractLsb' 0 16))
  | 0x09 => some .halt
  | 0x0A => some (.notice (w.extractLsb' 16 6) (w.extractLsb' 0 16))
  | 0x0B => some (.time (w.extractLsb' 22 5))
  | 0x0C => some (.mark (w.extractLsb' 0 16))
  | 0x20 => some (.set (w.extractLsb' 35 5) (w.extractLsb' 0 32))
  | 0x21 => some (.sethi (w.extractLsb' 35 5) (w.extractLsb' 0 16))
  | 0x22 => some (parseAddr .add w)
  | 0x23 => some (parseAddr .sub w)
  | 0x24 => some (parseAddr .and w)
  | 0x25 => some (parseAddr .or w)
  | 0x26 => some (parseAddr .shl w)
  | 0x27 => some (parseAddr .shr w)
  | 0x28 => some (.sets (w.extractLsb' 35 5) (w.extractLsb' 34 1) (w.extractLsb' 0 32))
  | 0x40 => some (parseVec .vadd w)
  | 0x41 => some (parseVec .vsub w)
  | 0x42 => some (parseVec .vmul w)
  | 0x43 => some (parseVec .vfma w)
  | 0x44 => some (parseVec .vmax w)
  | 0x45 => some (parseVec .vmin w)
  | 0x46 => some (parseVec .vcmp w)
  | 0x47 => some (parseVec .vsel w)
  | 0x48 => some (parseVec .vand w)
  | 0x49 => some (parseVec .vor w)
  | 0x4A => some (parseVec .vxor w)
  | 0x4B => some (parseVec .vtrans w)
  | 0x4C => some (parseVec .vred w)
  | 0x50 => some (parseVec .vmov w)
  | 0x51 => some (.vsplat (w.extractLsb' 34 6) (w.extractLsb' 0 32))
  | 0x52 => some (parseVec .vbcast w)
  | 0x53 => some (parseVec .vperm w)
  | 0x54 => some (parseVec .vquant w)
  | 0x55 => some (parseVec .vdeq w)
  | 0x60 => some (parseVmem .vldr w)
  | 0x61 => some (parseVmem .vldc w)
  | 0x62 => some (parseVmem .vldn w)
  | 0x68 => some (parseVmem .vstr w)
  | 0x69 => some (parseVmem .vstc w)
  | 0x6A => some (parseVmem .vstn w)
  | 0x80 => some (.mmode (w.extractLsb' 4 4) (w.extractLsb' 0 4))
  | 0x81 => some (.mload (w.extractLsb' 35 5) (w.extractLsb' 33 2) (w.extractLsb' 16 10) (w.extractLsb' 0 16))
  | 0x82 => some (.mstream (w.extractLsb' 35 5) (w.extractLsb' 33 2) (w.extractLsb' 32 1) (w.extractLsb' 12 11)
      (w.extractLsb' 0 12))
  | 0x83 => some (.mdrain (w.extractLsb' 34 6) (w.extractLsb' 33 1) (w.extractLsb' 18 6) (w.extractLsb' 12 6)
      (w.extractLsb' 8 4) (w.extractLsb' 4 4))
  | 0x84 => some (.mclear (w.extractLsb' 0 16))
  | 0xA0 => some (parseXfer .xget w)
  | 0xA1 => some (parseXfer .xput w)
  | 0xA2 => some (parseXfer .xhalo w)
  | 0xA3 => some (parseXfer .xcast w)
  | 0xC0 => some (.sset (w.extractLsb' 32 8) (w.extractLsb' 27 5) (w.extractLsb' 21 6) (w.extractLsb' 15 6)
      (w.extractLsb' 14 1) (w.extractLsb' 13 1) (w.extractLsb' 8 5))
  | 0xC1 => some (.swait (w.extractLsb' 32 8))
  | 0xC2 => some (.spost (w.extractLsb' 32 8))
  | 0xC3 => some (.sfree (w.extractLsb' 32 8))
  | 0xC4 => some (.barrier (w.extractLsb' 0 16))
  | _ => none

/-- The instruction of a word, or none where its issue faults BAD_OPCODE (R152, R203): an undefined opcode, a reserved
bit that is not 0 (the word then differs from its fields' encoding), or a field value that is not listed. -/
def decodeInsn (w : W64) : Option CoreInsn :=
  match parseOp w with
  | none => none
  | some op =>
    let i : CoreInsn := { wait := w.extractLsb' 48 8, post := w.extractLsb' 40 8, op := op }
    if encodeInsn i = w ∧ insnOk i = true then some i else none

/-- The engine classes of Table 5.1 with their queues. -/
inductive Engine where
  | issue | vector | matrix | transfer | sync | stop
deriving DecidableEq, Repr

/-- The engine of an operation, opcode[63:61] (Table 5.1). -/
def opEngine (op : CoreOp) : Engine :=
  match op with
  | .vec .. | .vsplat .. | .vmem .. => .vector
  | .mmode .. | .mclear .. | .mload .. | .mstream .. | .mdrain .. => .matrix
  | .xfer .. => .transfer
  | .sset .. | .swait .. | .spost .. | .sfree .. | .barrier .. => .sync
  | _ => .issue

/-- CORE.FAULT.ENGINE code. -/
def engineCode : Engine → Nat
  | .issue => 0 | .vector => 1 | .matrix => 2 | .transfer => 3 | .sync => 4 | .stop => 5

/-- The address registers an operation names as memory operands: the first (source, base) with its selector, and the
second (transfers, SSET's AR). -/
def opAregs (op : CoreOp) : Option (Nat × Nat) × Option (Nat × Nat) :=
  match op with
  | .vmem _ _ an pi .. => (some (an.toNat, pi.toNat), none)
  | .mload an pi .. => (some (an.toNat, pi.toNat), none)
  | .mstream an pi .. => (some (an.toNat, pi.toNat), none)
  | .xfer _ an ps ad pd .. => (some (an.toNat, ps.toNat), some (ad.toNat, pd.toNat))
  | .sset _ ab _ _ _ _ ar => (some (ab.toNat, 0), some (ar.toNat, 0))
  | _ => (none, none)

/-- The repeat count n of R162. -/
def opRepeats (op : CoreOp) : Nat :=
  match op with
  | .vmem _ _ _ _ _ _ _ rep _ => rep.toNat + 1
  | .mstream _ _ _ _ n => n.toNat
  | _ => 1

end Sys2Proof.Machine
end

