-- ==== Sys2Proof/Machine/SMap.lean ====
section
/-!
DEFINITION. Sys2Proof/Machine/SMap.lean: sparse storage. A store is a list of (key, value) pairs in one canonical
form: keys strictly rising, and no entry equal to the value d that an unlisted key reads as. Equal stores are equal lists.
-/

namespace Sys2Proof.Machine

/-- A sparse store from natural keys. -/
abbrev SMap (α : Type) := List (Nat × α)

/-- The value at key k; d where k is not listed. -/
def smGet {α : Type} (d : α) : SMap α → Nat → α
  | [], _ => d
  | (j, v) :: m, k => if j = k then v else smGet d m k

/-- The store with key k removed. -/
def smDel {α : Type} : SMap α → Nat → SMap α
  | [], _ => []
  | (j, v) :: m, k => if j = k then smDel m k else (j, v) :: smDel m k

/-- The store with (k, v) put at its place in rising order; k is not listed before. -/
def smIns {α : Type} : SMap α → Nat → α → SMap α
  | [], k, v => [(k, v)]
  | (j, w) :: m, k, v => if k < j then (k, v) :: (j, w) :: m else (j, w) :: smIns m k v

/-- The store with v at key k, in canonical form: writing d removes the entry. -/
def smSet {α : Type} [DecidableEq α] (d : α) (m : SMap α) (k : Nat) (v : α) : SMap α :=
  if v = d then smDel m k else smIns (smDel m k) k v

/-- The store with f applied at key k. -/
def smMod {α : Type} [DecidableEq α] (d : α) (m : SMap α) (k : Nat) (f : α → α) : SMap α :=
  smSet d m k (f (smGet d m k))

/-- Every key of m is above k. -/
def smAbove {α : Type} (k : Nat) : SMap α → Bool
  | [] => true
  | (j, _) :: m => decide (k < j) && smAbove k m

/-- The canonical form: keys strictly rising and no entry equal to d. -/
def smWf {α : Type} [DecidableEq α] (d : α) : SMap α → Bool
  | [] => true
  | (j, v) :: m => decide (v ≠ d) && smAbove j m && smWf d m

/-- The store with f applied to every listed value (f keeps d). -/
def smMap {α : Type} [DecidableEq α] (d : α) (f : Nat → α → α) (m : SMap α) : SMap α :=
  (m.map fun kv => (kv.1, f kv.1 kv.2)).filter fun kv => decide (kv.2 ≠ d)

/-- The store with f applied at every key of ks. -/
def smModAll {α : Type} [DecidableEq α] (d : α) (m : SMap α) (ks : List Nat) (f : Nat → α → α) : SMap α :=
  ks.foldl (fun acc k => smSet d acc k (f k (smGet d acc k))) m

end Sys2Proof.Machine
end

