-- ==== Sys2Proof/Machine/CoreState.lean ====
section
/-!
DEFINITION. Sys2Proof/Machine/CoreState.lean: the state of one core: its instruction stream, address registers, slots,
engines and their queues, slab, registers, and the packets its router holds for it. Plain data; each structure has its
value after reset beside it.
-/

namespace Sys2Proof.Machine

/-! ### Packets -/

/-- Packet types 0x00 to 0x0C (Table 9.5). -/
inductive PktType where
  | write | read | readData | ack | nack | hbmWrite | hbmRead | hbmData | mcastWrite | credit | barrier | control
  | dropNotice
deriving DecidableEq, Repr

/-- A rectangle with inclusive bounds. -/
structure Rect where
  x0 : Nat
  y0 : Nat
  x1 : Nat
  y1 : Nat
deriving DecidableEq, Repr

/-- The empty rectangle value of a packet without one. -/
def Rect.zero : Rect := { x0 := 0, y0 := 0, x1 := 0, y1 := 0 }

/-- ROUTE.ORDER (Table 9.4). -/
inductive Order where
  | xy | yx | detour
deriving DecidableEq, Repr

/-- What a CONTROL packet between a core and the signal box carries (R311, R188, R198). -/
inductive CtlMsg where
  /-- The arrival of a stop with its STOP_ID and the stop count. -/
  | arrival (stopId count : Nat)
  /-- A core fault: code, engine, position and instruction count. -/
  | fault (code engine pc icount : Nat)
  /-- A register write that the signal box sends to the core: offset in the per-core window and value. -/
  | regWrite (offset value : Nat)
deriving DecidableEq, Repr

/-- What travels beside a packet's header because Table 9.4 has no place for it (assumption 38): `segs`, that ADDR and
COUNT name segments, the words then standing one per row in word 0; `halo`, that the halo requesters serve it; `total`, how
many rows its transfer brings this destination, and `xid`, which transfer of its issuer it belongs to, if any (R256, R257);
`cast`, that HBM data are those of an XCAST of that issuer; `srcEdge` and `dstEdge`, that SRC or DEST names the edge unit behind
that entry router and not its core; `ident`, a BARRIER's (ID, ordinal); `release`, that a BARRIER is a release; `ctl`, a
CONTROL's message. -/
structure Mark where
  segs : Bool
  halo : Bool
  cast : Option Nat
  release : Bool
  srcEdge : Bool
  dstEdge : Bool
  total : Nat
  xid : Option Nat
  ident : Nat × Nat
  ctl : Option CtlMsg
deriving DecidableEq, Repr

/-- Nothing beside the header. -/
def Mark.none : Mark :=
  { segs := false, halo := false, cast := Option.none, release := false, srcEdge := false, dstEdge := false, total := 0,
    xid := Option.none, ident := (0, 0), ctl := Option.none }

/-- A packet with the fields of its header (Table 9.4), what travels beside it, and the rows it carries. `mcast` says that it
travels as a multicast tree (assumption 38). `aborted` is set at a destination where an ABORT tail closed the packet (R309). -/
structure Packet extends Mark where
  typ : PktType
  src : Nat
  dst : Nat
  side : Bool
  post : Bool
  mcast : Bool
  job : Nat
  slot : Nat
  tag : Nat
  status : Nat
  addr : Nat
  haddr : Nat
  count : Nat
  prect : Rect
  vrect : Rect
  rows : List Row
  order : Order
  yt : Nat
  aborted : Bool
deriving DecidableEq, Repr

/-- A header with nothing set. -/
def Packet.blank : Packet :=
  { Mark.none with
    typ := .write, src := 0, dst := 0, side := false, post := false, mcast := false, job := 0, slot := 255, tag := 0,
    status := 0, addr := 0, haddr := 0, count := 0, prect := Rect.zero, vrect := Rect.zero, rows := [], order := .xy, yt := 0,
    aborted := false }

/-! ### The instruction stream -/

/-- An address register with its strides (R160). -/
structure AReg where
  value : W48
  stride0 : W32
  stride1 : W32
deriving DecidableEq, Repr

/-- A zero address register (R160). -/
def AReg.zero : AReg := { value := 0#48, stride0 := 0#32, stride1 := 0#32 }

/-- An open hardware loop (R164 to R169). -/
structure HwLoop where
  start : Nat
  stop : Nat
  remain : Nat
deriving DecidableEq, Repr

/-- The states of Table 5.3. -/
inductive CoreSt where
  | idle | running | stopping | arrived | halted | faulted
deriving DecidableEq, Repr

/-- The core fault codes of Table 5.4. -/
inductive FaultCode where
  | accRange | slabRange | crazedOperand | witnessMismatch | slotStall | issueStall | badOpcode | modePair
  | modeMismatch | shapeBound | fencedTarget | bankOff | loopDepth | accLive
deriving DecidableEq, Repr

/-- The recorded fault (CORE.FAULT, CORE.FAULT_ICOUNT), with the cycle it arose in (R199). -/
structure FaultRec where
  code : FaultCode
  engine : Engine
  pc : Nat
  icount : Nat
  cc : Nat
deriving DecidableEq, Repr

/-- A queued instruction with what it captured at issue (R154). `admitted` is set for a posting transfer that took its
admission and waits for credits (R155, R179). -/
structure QEntry where
  insn : CoreInsn
  pc : Nat
  icount : Nat
  ra : AReg
  rd : AReg
  admitted : Bool
  gen : Nat
deriving DecidableEq, Repr

/-- What drains in STOPPING: a STOP with its STOP_ID, or a HALT (R188, R193). -/
inductive StopKind where
  | none
  | stop (id : Nat)
  | halt
deriving DecidableEq, Repr

/-- How far a platform stop has come: draining, or committed and waiting for bank transitions (R188). -/
inductive StopPhase where
  | drain
  | banks
deriving DecidableEq, Repr

/-- The instruction stream of a core (R151 to R201). `stopId` is the STOP_ID of the last STOP, for a crash dump (R207);
`atStop` says that the core stands at the stop it counted last, ARRIVED or halted by HALT_AT (R188, R190). -/
structure Stream where
  state : CoreSt
  pc : Nat
  loops : List HwLoop
  icount : Nat
  fault : Option FaultRec
  more : Bool
  stopCount : Nat
  haltEn : Bool
  entryEn : Bool
  entry : Nat
  haltAt : Nat
  stopKind : StopKind
  stopPhase : StopPhase
  stopPc : Nat
  stopIcount : Nat
  stopId : Nat
  atStop : Bool
  switched : Bool
  switchReq : Bool
  bankB : Bool
  imemRefused : Nat
  imemA : SMap W64
  imemB : SMap W64
  markTag : BitVec 16
  markIcount : Nat
deriving DecidableEq, Repr

/-- The word of an instruction position that nothing has loaded: NOP without WAIT and POST (assumption 2). -/
def imemEmpty : W64 := 0x00FFFF0000000000#64

/-- The stream after module reset: IDLE, everything zero (R197, R201). -/
def Stream.reset : Stream :=
  { state := .idle, pc := 0, loops := [], icount := 0, fault := none, more := false, stopCount := 0, haltEn := false,
    entryEn := false, entry := 0, haltAt := 0, stopKind := .none, stopPhase := .drain, stopPc := 0, stopIcount := 0,
    stopId := 0, atStop := false, switched := false, switchReq := false,
    bankB := false, imemRefused := 0, imemA := [], imemB := [], markTag := 0#16, markIcount := 0 }

/-- A started instruction that has not completed, with the slot generation it was admitted under. -/
structure Started where
  entry : QEntry
  gen : Nat
deriving DecidableEq, Repr

/-! ### Slots, credits and barriers -/

/-- A slot (R170), with the posts and releases that have reached it since its last update (R175) and a generation
number that tells consumers admitted before a setup from later ones (R171). -/
structure Slot where
  base : Nat
  rows : Nat
  pcount : Nat
  ccount : Nat
  full : Bool
  posted : Nat
  admitted : Nat
  released : Nat
  remote : Bool
  px0 : Nat
  py0 : Nat
  pw : Nat
  ph : Nat
  posts : Nat
  releases : Nat
  gen : Nat
deriving DecidableEq, Repr

/-- A slot after reset: every register field zero, so both counts are 1 (CORE.SLOT_n). -/
def Slot.reset : Slot :=
  { base := 0, rows := 0, pcount := 1, ccount := 1, full := false, posted := 0, admitted := 0, released := 0,
    remote := false, px0 := 0, py0 := 0, pw := 0, ph := 0, posts := 0, releases := 0, gen := 0 }

/-- A tally that a barrier leader holds (R267, R268). -/
structure Tally where
  id : Nat
  ordinal : Nat
  arrived : List Nat
deriving DecidableEq, Repr

/-- The sync unit: slots, counters, credit table, barrier state (R170 to R181, R261 to R271). -/
structure Sync where
  slots : SMap Slot
  overposts : Nat
  creditDrops : Nat
  creditsSent : Nat
  creditsReceived : Nat
  credits : List (Nat × Nat)
  waiting : Option (Started × Nat)
  ordinals : SMap Nat
  tallies : List Tally
  barrierDrops : Nat
  bx0 : Nat
  by0 : Nat
  bw : Nat
  bh : Nat
deriving DecidableEq, Repr

/-- The sync unit after reset. -/
def Sync.reset : Sync :=
  { slots := [], overposts := 0, creditDrops := 0, creditsSent := 0, creditsReceived := 0, credits := [],
    waiting := none, ordinals := [], tallies := [], barrierDrops := 0, bx0 := 0, by0 := 0, bw := 0, bh := 0 }

/-! ### Engines -/

/-- A vector-memory instruction with ungranted repeats: k is the next (R217, R233). -/
structure VecJob where
  st : Started
  k : Nat
deriving DecidableEq, Repr

/-- A load's register write that waits for earlier instructions to be done with the register (R218): the instruction count
of its load, the cycle it lands in at the earliest, the register, the words it writes and the row that holds them. -/
structure Landing where
  icount : Nat
  cyc : Nat
  reg : Nat
  segs : List Nat
  row : Row
deriving DecidableEq, Repr

/-- A write to a vector register with its cycle and the row that stood there before it (R221). -/
structure RegWrite where
  cyc : Nat
  reg : Nat
  old : Row
deriving DecidableEq, Repr

/-- The vector engine (R213 to R221): registers, the clash counter, the ALU instruction that waits for its registers, the
load and the store with ungranted repeats, loaded rows not yet landed, and the register writes of the vector engine and of
MDRAIN in the latest cycles. -/
structure Vec where
  regs : SMap Row
  clashes : Nat
  alu : Option Started
  load : Option VecJob
  store : Option VecJob
  landing : List Landing
  lands : List RegWrite
  drains : List RegWrite
deriving DecidableEq, Repr

/-- The vector engine after reset. -/
def Vec.reset : Vec :=
  { regs := [], clashes := 0, alu := none, load := none, store := none, landing := [], lands := [], drains := [] }

/-- An activation buffer: 16 rows of two halves, keyed 2j and 2j + 1 (R82). -/
structure ActBuf where
  valid : Bool
  k : Nat
  rowMask : BitVec 16
  rows : SMap Row
deriving DecidableEq, Repr

/-- An empty, invalid buffer. -/
def ActBuf.reset : ActBuf := { valid := false, k := 0, rowMask := 0#16, rows := [] }

/-- A column between its read and its accumulation: index, read grant cycle, data, the buffer that was front when it
was read (R89), and a bank of its read that was off (R247). -/
structure Column where
  k : Nat
  grant : Nat
  data : Row
  buf : ActBuf
  bankOff : Bool
deriving DecidableEq, Repr

/-- A witness or duplicate mismatch that waits for its signal cycle (R108, R109). -/
structure Mismatch where
  grant : Nat
  injected : Bool
deriving DecidableEq, Repr

/-- A started MSTREAM (R90, R105), with the mismatches of its columns that have not been signalled, oldest first. -/
structure StreamJob where
  st : Started
  base : Nat
  n : Nat
  c0 : Nat
  granted : Nat
  done : Nat
  inflight : List Column
  mismatches : List Mismatch
deriving DecidableEq, Repr

/-- A started MLOAD: rows read so far and the rows still to come (R83). -/
structure LoadJob where
  st : Started
  base : Nat
  k : Nat
  rowMask : BitVec 16
  nread : Nat
deriving DecidableEq, Repr

/-- The matrix engine (R72 to R112). -/
structure Matrix where
  mode : Option (EType × EType)
  front : ActBuf
  back : ActBuf
  acc : SMap W32
  live : BitVec 1024
  load : Option LoadJob
  streams : List StreamJob
  injected : Bool
  armRes : Bool
  armDup : Bool
  witnessEvents : Nat
  dupChecks : Nat
deriving DecidableEq, Repr

/-- The matrix engine after reset (R78, R98). -/
def Matrix.reset : Matrix :=
  { mode := none, front := ActBuf.reset, back := ActBuf.reset, acc := [], live := 0#1024, load := none, streams := [],
    injected := false, armRes := false, armDup := false, witnessEvents := 0, dupChecks := 0 }

/-- A started transfer (R258): its index, the destinations that have not acknowledged, the rows an XGET still
awaits, and whether a refusal has been answered (R630). -/
structure XferJob where
  tag : Nat
  st : Started
  waitAcks : List Nat
  hbmAcks : Nat
  waitRows : Nat
  nacked : Bool
deriving DecidableEq, Repr

/-- Rows, or segments, that a requester still reads for a packet (Table 4.1): the header, the next address, how many are
left, the index of the next within the packet, the rows read so far with their index, the first refusal, and the index of
the own transfer it belongs to; none for a reply (R144, R252). -/
structure OutJob where
  pkt : Packet
  next : Nat
  left : Nat
  idx : Nat
  got : List (Nat × Row)
  refused : Option Nat
  own : Option Nat
deriving DecidableEq, Repr

/-- Rows of an arrived packet that a requester has still to write, by their index in the packet, how many are stored, the
first refusal (Table 4.1, R143, R630), and whether they are the rows of an own XGET (R252). -/
structure InJob where
  pkt : Packet
  left : List (Nat × Row)
  stored : Nat
  refused : Option Nat
  own : Bool
deriving DecidableEq, Repr

/-- The transfer engine: started transfers; the rows received so far of the transfer that each (sender site x 16 + index)
brings, as (transfer, rows) (R257); and the accesses queued at the transfer-out, halo-out, transfer-in and halo-in
requesters (Table 4.1). -/
structure Xfer where
  jobs : List XferJob
  refused : Nat
  rx : SMap (Nat × Nat)
  outs : List OutJob
  haloOuts : List OutJob
  ins : List InJob
  haloIns : List InJob
deriving DecidableEq, Repr

/-- The transfer engine after reset. -/
def Xfer.reset : Xfer := { jobs := [], refused := 0, rx := [], outs := [], haloOuts := [], ins := [], haloIns := [] }

/-- The format monitors (R69 to R71), the clip and magnitude lists in the order of Table 2.6. -/
structure FmtMon where
  clips : List Nat
  maxMags : List Nat
  nanIn : Nat
  specialIn : Nat
  badCode : Nat
deriving DecidableEq, Repr

/-- The monitors cleared. -/
def FmtMon.reset : FmtMon :=
  { clips := [0, 0, 0, 0, 0, 0], maxMags := [0, 0, 0, 0, 0, 0], nanIn := 0, specialIn := 0, badCode := 0 }

/-! ### The slab -/

/-- A fettling write-back that waits for its grant: the row, what it writes, and whether a newer write to the row was
granted meanwhile (R139, R140). -/
structure WriteBack where
  row : Nat
  words : List (Nat × SlabWord)
  stale : Bool
deriving DecidableEq, Repr

/-- The slab (R113 to R150). Word key: row x 36 + segment, the side words at 32 to 35. Bank sets are 36 bits, data
banks 0 to 31 and side banks 32 to 35. `pwrReq` is the shadow of CORE.SLAB_PWR and `pwrEff` the value in effect (R15, R141);
`closeCc` the cycle in which the closing banks began to close (R142). -/
structure Slab where
  words : SMap SlabWord
  ce : Nat
  ue : Nat
  lastErr : BitVec 32
  passes : Nat
  pointer : Nat
  dueCount : Nat
  lateWrites : Nat
  spare : Option Nat
  pwrReq : BitVec 36
  pwrEff : BitVec 36
  off : BitVec 36
  closing : BitVec 36
  rising : BitVec 36
  closeCc : Nat
  winEn : Bool
  winBase : Nat
  winVx0 : Nat
  winVy0 : Nat
  winWd : Nat
  winHt : Nat
  winPages : Nat
  due : Bool
  wb : List WriteBack
deriving DecidableEq, Repr

/-- The slab after module reset: every word zero and clean, every bank on (R145, R150). -/
def Slab.reset : Slab :=
  { words := [], ce := 0, ue := 0, lastErr := 0#32, passes := 0, pointer := 0, dueCount := 0, lateWrites := 0,
    spare := none, pwrReq := 0#36, pwrEff := 0#36, off := 0#36, closing := 0#36, rising := 0#36, closeCc := 0, winEn := false, winBase := 0,
    winVx0 := 0, winVy0 := 0, winWd := 0, winHt := 0, winPages := 0, due := false, wb := [] }

/-! ### Arbiters -/

/-- The values of an arbiter register set (R342, R343): 64 four-bit slots in four words, ranks, guard period. -/
structure ArbVals where
  tt : BitVec 256
  rank : BitVec 27
  guard_ : BitVec 7
deriving DecidableEq, Repr

/-- Reset values (R351). -/
def ArbVals.reset : ArbVals := { tt := BitVec.allOnes 256, rank := 0#27, guard_ := 0x10#7 }

/-- A register set: values in effect, shadow values, an armed commit, the commits taken (R344, R351). -/
structure ArbSet where
  eff : ArbVals
  shadow : ArbVals
  armed : Bool
  applied : Nat
deriving DecidableEq, Repr

/-- A set after reset. -/
def ArbSet.reset : ArbSet := { eff := ArbVals.reset, shadow := ArbVals.reset, armed := false, applied := 0 }

/-- One arbiter: pointer, grants since the guard, raised requests with the grant cycles since they were raised, and
the requester granted in the last grant cycle (R335 to R340). -/
structure ArbInst where
  ptr : Nat
  gsg : Nat
  reqs : List (Nat × Nat)
  last : Option Nat
deriving DecidableEq, Repr

/-- An arbiter after reset (R346). -/
def ArbInst.reset : ArbInst := { ptr := 0, gsg := 0, reqs := [], last := none }

/-! ### Placement and the whole core -/

/-- One entry of the placement table: the site of a virtual core, and whether it is fenced (R294). -/
structure PlaceEnt where
  site : Nat
  fenced : Bool
deriving DecidableEq, Repr

/-- The placement of the job on this core: PLACE, STEP and ARENA registers (R301) and the job's placement table, row
by row (R294). -/
structure Place where
  job : Nat
  placed : Bool
  site : Nat
  rank : Nat
  vy : Nat
  vx : Nat
  bucket : Nat
  steps : Nat
  arenaBase : Nat
  inMax : Nat
  inLim : Nat
  outMax : Nat
  outLim : Nat
  vw : Nat
  vh : Nat
  table : List PlaceEnt
deriving DecidableEq, Repr

/-- No placement (R301). -/
def Place.reset : Place :=
  { job := 0, placed := false, site := 0, rank := 0, vy := 0, vx := 0, bucket := 0, steps := 0, arenaBase := 0,
    inMax := 0, inLim := 0, outMax := 0, outLim := 0, vw := 0, vh := 0, table := [] }

/-- Activity since the cluster's last energy estimate (R420): column-rows, slab accesses, vector repeats, bytes. -/
structure Activity where
  cols : Nat
  slab : Nat
  vec : Nat
  xfer : Nat
deriving DecidableEq, Repr

/-- A core. `out` holds the packets its router is to inject; `cc` is the model's own count of read-port grant cycles,
by which the columns in flight are timed; `events` holds fault-history events (type, unit within the core) that the
signal box has not yet entered (R571). -/
structure Core where
  stream : Stream
  aregs : SMap AReg
  queue : List QEntry
  qmat : List QEntry
  qxfer : List QEntry
  qsync : List QEntry
  started : List Started
  sync : Sync
  vec : Vec
  matrix : Matrix
  xfer : Xfer
  mon : FmtMon
  seed : W64
  slab : Slab
  arbRd : ArbSet
  arbWr : ArbSet
  rd : ArbInst
  wr : ArbInst
  place : Place
  activity : Activity
  lockDrain : W64
  lockStore : W64
  stepCc : Nat
  fenced : Bool
  out : List Packet
  events : List (Nat × Nat)
  cc : Nat
deriving DecidableEq, Repr

/-- A core after module reset. -/
def Core.reset : Core :=
  { stream := Stream.reset, aregs := [], queue := [], qmat := [], qxfer := [], qsync := [], started := [],
    sync := Sync.reset, vec := Vec.reset, matrix := Matrix.reset, xfer := Xfer.reset,
    mon := FmtMon.reset, seed := 0#64, slab := Slab.reset, arbRd := ArbSet.reset, arbWr := ArbSet.reset,
    rd := ArbInst.reset, wr := ArbInst.reset, place := Place.reset,
    activity := { cols := 0, slab := 0, vec := 0, xfer := 0 }, lockDrain := BitVec.allOnes 64,
    lockStore := BitVec.allOnes 64, stepCc := 0, fenced := false, out := [],
    events := [], cc := 0 }

end Sys2Proof.Machine
end

