-- ==== Sys2Proof/Machine/CoreOps.lean ====
section
/-!
DEFINITION. Sys2Proof/Machine/CoreOps.lean: the named operations on one core that every engine shares: saturating
counters, address and vector registers, faults (R198, R199), slots (R170 to R177), admission and completion (R155,
R156), and packets.
-/

namespace Sys2Proof.Machine

/-- a + n, at most max: a saturating counter. -/
def satAdd (max a n : Nat) : Nat := min max (a + n)

/-- A 32-bit saturating counter plus n. -/
def sat32 (a n : Nat) : Nat := satAdd 0xFFFFFFFF a n

/-- A 16-bit saturating counter plus n. -/
def sat16 (a n : Nat) : Nat := satAdd 0xFFFF a n

/-- l with the element at index i replaced by f of it. -/
def listMod {α : Type} (f : α → α) : List α → Nat → List α
  | [], _ => []
  | a :: l, 0 => f a :: l
  | a :: l, n + 1 => a :: listMod f l n

/-- l without the element at index i. -/
def listDel {α : Type} : List α → Nat → List α
  | [], _ => []
  | _ :: l, 0 => l
  | a :: l, n + 1 => a :: listDel l n

/-- x with its bits [lo + len - 1 : lo] replaced by v. -/
def setField {n : Nat} (x : BitVec n) (lo len v : Nat) : BitVec n :=
  let m := BitVec.ofNat n (2 ^ len - 1) <<< lo
  (x &&& ~~~m) ||| ((BitVec.ofNat n (v % 2 ^ len)) <<< lo)

/-- Bits [lo + len - 1 : lo] of x as a natural number. -/
def getField {n : Nat} (x : BitVec n) (lo len : Nat) : Nat := (x.extractLsb' lo len).toNat

/-! ### Rows -/

/-- Data word c of a row. -/
def rowWord (r : Row) (c : Nat) : W32 := r.data.extractLsb' (32 * c) 32

/-- Side word k of a row. -/
def rowSide (r : Row) (k : Nat) : W32 := r.side.extractLsb' (32 * k) 32

/-- Word i of a row, side words at 32 to 35. -/
def rowAny (r : Row) (i : Nat) : W32 := if i < 32 then rowWord r i else rowSide r (i - 32)

/-- The crazed bit of word i. -/
def rowZ (r : Row) (i : Nat) : Bool := r.z.getLsbD i

/-- The row with word i and its crazed bit replaced. -/
def rowSetAny (r : Row) (i : Nat) (v : W32) (z : Bool) : Row :=
  { data := if i < 32 then setField r.data (32 * i) 32 v.toNat else r.data,
    side := if i < 32 then r.side else setField r.side (32 * (i - 32)) 32 v.toNat,
    z := setField r.z i 1 z.toNat }

/-- A row from its data words, first word lowest. -/
def rowOfWords (ws : List W32) (side : BitVec 128) (z : BitVec 36) : Row :=
  { data := ws.foldr (fun w (acc : BitVec 1024) => (acc <<< 32) ||| w.setWidth 1024) 0#1024, side := side, z := z }

/-- The 32 data words of a row. -/
def rowWords (r : Row) : List W32 := (List.range 32).map (rowWord r)

/-- Byte i of a row's data part. -/
def rowByte (r : Row) (i : Nat) : Byte := r.data.extractLsb' (8 * i) 8

/-- The 128 data bytes of a row. -/
def rowBytes (r : Row) : List Byte := (List.range 128).map (rowByte r)

/-- The 16 side bytes of a row. -/
def sideBytes (r : Row) : List Byte := (List.range 16).map fun i => r.side.extractLsb' (8 * i) 8

/-! ### Registers -/

/-- Address register n. -/
def getA (c : Core) (n : Nat) : AReg := smGet AReg.zero c.aregs n

/-- The core with address register n replaced. -/
def setA (c : Core) (n : Nat) (v : AReg) : Core := { c with aregs := smSet AReg.zero c.aregs n v }

/-- The core with the value of address register n replaced, its strides unchanged. -/
def setAVal (c : Core) (n : Nat) (v : W48) : Core := setA c n { getA c n with value := v }

/-- Vector register n mod 64. -/
def getV (c : Core) (n : Nat) : Row := smGet Row.zero c.vec.regs (n % 64)

/-- The core with vector register n mod 64 replaced. -/
def setV (c : Core) (n : Nat) (v : Row) : Core :=
  { c with vec := { c.vec with regs := smSet Row.zero c.vec.regs (n % 64) v } }

/-- The word at position n of the active instruction bank (R194). -/
def fetchWord (st : Stream) (n : Nat) : W64 := smGet imemEmpty (if st.bankB then st.imemB else st.imemA) n

/-- The virtual core id of a core (R289). -/
def coreVcid (p : Place) : Nat := p.rank * 4096 + p.vy * 64 + p.vx

/-! ### Packets -/

/-- The destination that stands for the signal box in a packet's DEST. -/
def boxSite : Nat := 4096

/-- A packet of this core, with its site, job and nothing else set. -/
def mkPkt (c : Core) (t : PktType) (dst : Nat) : Packet :=
  { Packet.blank with typ := t, src := c.place.site, dst := dst, job := c.place.job }

/-- The core with packets handed to its router. -/
def sendPkts (c : Core) (ps : List Packet) : Core := { c with out := c.out ++ ps }

/-! ### Faults -/

/-- The code of Table 5.4. -/
def faultNum : FaultCode → Nat
  | .accRange => 1 | .slabRange => 2 | .crazedOperand => 3 | .witnessMismatch => 4 | .slotStall => 5
  | .issueStall => 6 | .badOpcode => 7 | .modePair => 8 | .modeMismatch => 9 | .shapeBound => 10
  | .fencedTarget => 11 | .bankOff => 12 | .loopDepth => 13 | .accLive => 14

/-- The report of a recorded fault. -/
def faultReport (f : FaultRec) : CtlMsg := .fault (faultNum f.code) (engineCode f.engine) f.pc f.icount

/-- The packets with the report of fault f replaced by that of g. -/
def reReport (f g : FaultRec) (ps : List Packet) : List Packet :=
  ps.map fun p => if p.ctl = some (faultReport f) then { p with ctl := some (faultReport g) } else p

/-- A core fault: the first since admission is recorded, puts the core into FAULTED and is reported to the signal box.
A later one sets CORE.FAULT.MORE; when it arose in the same cycle with a lower instruction count it is the one recorded
and reported (R198, R199). Commands between two grant cycles of the read port fall in one cycle (assumption 91). -/
def coreFault (c : Core) (code : FaultCode) (e : Engine) (pc icount : Nat) : Core :=
  let g : FaultRec := { code := code, engine := e, pc := pc, icount := icount, cc := c.cc }
  match c.stream.fault with
  | some f =>
    if f.cc = c.cc ∧ icount < f.icount then
      { c with stream := { c.stream with state := .faulted, fault := some g, more := true }, out := reReport f g c.out }
    else { c with stream := { c.stream with state := .faulted, more := true } }
  | none =>
    let c' := { c with stream := { c.stream with state := .faulted, fault := some g } }
    sendPkts c' [{ mkPkt c .control boxSite with ctl := some (faultReport g) }]

/-- A core fault on a queued instruction. -/
def entryFault (c : Core) (code : FaultCode) (e : QEntry) : Core :=
  coreFault c code (opEngine e.insn.op) e.pc e.icount

/-! ### Slots -/

/-- Slot n. -/
def getSlot (c : Core) (n : Nat) : Slot := smGet Slot.reset c.sync.slots n

/-- The core with slot n replaced. -/
def setSlot (c : Core) (n : Nat) (v : Slot) : Core :=
  { c with sync := { c.sync with slots := smSet Slot.reset c.sync.slots n v } }

/-- Does slot n admit another consumer (R172)? -/
def slotAdmits (c : Core) (n : Nat) : Bool := (getSlot c n).full && decide ((getSlot c n).admitted < (getSlot c n).ccount)

/-- Does the wait field w admit? 0xFF names no slot. -/
def waitAdmits (c : Core) (w : BitVec 8) : Bool := decide (w = 0xFF#8) || slotAdmits c w.toNat

/-- One admission on the wait field w (R172). -/
def admitWait (c : Core) (w : BitVec 8) : Core :=
  if w = 0xFF#8 then c
  else setSlot c w.toNat { getSlot c w.toNat with admitted := (getSlot c w.toNat).admitted + 1 }

/-- One release of slot n by a consumer admitted under generation g; a release admitted before the slot was set up is
discarded (R171, R173). -/
def releaseSlot (c : Core) (n g : Nat) : Core :=
  if (getSlot c n).gen = g then setSlot c n { getSlot c n with releases := (getSlot c n).releases + 1 } else c

/-- One release of the wait field w (R173). -/
def releaseWait (c : Core) (w : BitVec 8) (g : Nat) : Core := if w = 0xFF#8 then c else releaseSlot c w.toNat g

/-- One post to slot n (R174). -/
def postSlot (c : Core) (n : Nat) : Core := setSlot c n { getSlot c n with posts := (getSlot c n).posts + 1 }

/-- One post of the post field p (R174). -/
def postField (c : Core) (p : BitVec 8) : Core := if p = 0xFF#8 then c else postSlot c p.toNat

/-- The generation of the wait field's slot; 0 without one. -/
def waitGen (c : Core) (w : BitVec 8) : Nat := if w = 0xFF#8 then 0 else (getSlot c w.toNat).gen

/-- The completion of a queued instruction: it releases its wait slot and posts its post slot (R156, R173, R174). -/
def completeEntry (c : Core) (st : Started) : Core :=
  postField (releaseWait c st.entry.insn.wait st.gen) st.entry.insn.post

/-! ### Engine queues -/

/-- The queue of an engine (Table 5.1); the issue unit has none. -/
def engineQueue (c : Core) : Engine → List QEntry
  | .vector => c.queue | .matrix => c.qmat | .transfer => c.qxfer | .sync => c.qsync | _ => []

/-- The core with an engine's queue replaced. -/
def setQueue (c : Core) (e : Engine) (q : List QEntry) : Core :=
  match e with
  | .vector => { c with queue := q }
  | .matrix => { c with qmat := q }
  | .transfer => { c with qxfer := q }
  | .sync => { c with qsync := q }
  | _ => c

/-- May engines start instructions: the core runs or drains (R189, R198)? -/
def mayStart (c : Core) : Bool :=
  match c.stream.state with
  | .running | .stopping => true
  | _ => false

/-- Every issued instruction that is not complete. -/
def openEntries (c : Core) : List QEntry :=
  c.queue ++ c.qmat ++ c.qxfer ++ c.qsync ++ c.started.map (·.entry) ++
  (match c.matrix.load with
    | some j => [j.st.entry]
    | none => []) ++
  c.vec.alu.toList.map (·.entry) ++ c.vec.load.toList.map (·.st.entry) ++ c.vec.store.toList.map (·.st.entry) ++
  c.matrix.streams.map (·.st.entry) ++ c.xfer.jobs.map (·.st.entry) ++
  (match c.sync.waiting with
    | some w => [w.1.entry]
    | none => [])

/-- Has the core drained: every queue empty and every issued instruction complete (R188)? -/
def coreDrained (c : Core) : Bool := (openEntries c).isEmpty

/-- The instruction count of the oldest issued instruction not complete, or i when there is none (R153). -/
def oldestOpen (c : Core) (i : Nat) : Nat := (openEntries c).foldl (fun m e => min m e.icount) i

end Sys2Proof.Machine
end

