-- ==== Sys2Proof/Machine/Hash.lean ====
section
/-!
DEFINITION. Sys2Proof/Machine/Hash.lean: the check and digest functions the rules name: the CRC-16 of mesh flits
(R305), the CRC-64 of trunk flits and of the store and drain checks (R504, R543), SHA-256 (R540 to R544) and SHA-384
(Table 16.2, R589), the last two as FIPS 180-4 defines them (PRESUMED, assumption 13).
-/

namespace Sys2Proof.Machine

/-- Natural number to n bytes, least significant first. -/
def bytesLE : Nat → Nat → List Byte
  | 0, _ => []
  | n + 1, v => BitVec.ofNat 8 v :: bytesLE n (v / 256)

/-- Bytes, least significant first, to a natural number. -/
def ofBytesLE : List Byte → Nat
  | [] => 0
  | b :: l => b.toNat + 256 * ofBytesLE l

/-- Natural number to n bytes, most significant first. -/
def bytesBE (n v : Nat) : List Byte := (bytesLE n v).reverse

/-- Bytes, most significant first, to a natural number. -/
def ofBytesBE (l : List Byte) : Nat := l.foldl (fun a b => a * 256 + b.toNat) 0

/-- One bit of a CRC register of n bits with polynomial p, most significant bit first. -/
def crcBit {n : Nat} (p : BitVec n) (c : BitVec n) (bit : Bool) : BitVec n :=
  let c' := c <<< 1
  if xor c.msb bit then c' ^^^ p else c'

/-- One byte into a CRC register, most significant bit first. -/
def crcByte {n : Nat} (p : BitVec n) (c : BitVec n) (b : Byte) : BitVec n :=
  (List.range 8).foldl (fun c i => crcBit p c (b.getLsbD (7 - i))) c

/-- The CRC-16 of R305 over a list of bytes. -/
def crc16 (l : List Byte) : BitVec 16 := l.foldl (crcByte 0x1021#16) 0xFFFF#16

/-- The CRC-64 register of R504 after a list of bytes, before the final XOR. -/
def crc64Run (c : BitVec 64) (l : List Byte) : BitVec 64 := l.foldl (crcByte 0x42F0E1EBA9EA3693#64) c

/-- The CRC-64 of R504. -/
def crc64 (l : List Byte) : BitVec 64 := ~~~ (crc64Run (BitVec.allOnes 64) l)

/-- The floor of the k-th root of x, found from bit b - 1 down; r holds the bits found so far. -/
def rootBits (k x : Nat) : Nat → Nat → Nat
  | 0, r => r
  | b + 1, r => rootBits k x b (if (r + 2 ^ b) ^ k ≤ x then r + 2 ^ b else r)

/-- The first n bits of the fraction of the k-th root of a prime below 2^9. -/
def rootFraction (k n p : Nat) : Nat := rootBits k (p * 2 ^ (k * n)) (n + 5) 0 % 2 ^ n

/-- The first 80 primes: the numbers from 2 to 409 that no smaller number from 2 to 20 divides. -/
def shaPrimes : List Nat :=
  (List.range 410).filter fun n => decide (2 ≤ n) && (List.range 21).all fun d => decide (d < 2 ∨ n ≤ d ∨ n % d ≠ 0)

/-- The 80 round constants: 64 fraction bits of the cube roots of the primes. SHA-256 takes the upper halves of the
first 64. -/
def shaK : List Nat := shaPrimes.map (rootFraction 3 64)

/-- The initial hash value of SHA-256: 32 fraction bits of the square roots of the first eight primes. -/
def sha256Iv : List Nat := (shaPrimes.take 8).map (rootFraction 2 32)

/-- The initial hash value of SHA-384: 64 fraction bits of the square roots of the next eight primes. -/
def sha384Iv : List Nat := ((shaPrimes.drop 8).take 8).map (rootFraction 2 64)

/-- The rotation amounts of one of the two functions: Sigma0, Sigma1 (three rotations), sigma0, sigma1 (two rotations
and a shift). -/
structure ShaRot where
  s0 : Nat × Nat × Nat
  s1 : Nat × Nat × Nat
  e0 : Nat × Nat × Nat
  e1 : Nat × Nat × Nat

/-- SHA-256's amounts. -/
def sha256Rot : ShaRot := { s0 := (2, 13, 22), s1 := (6, 11, 25), e0 := (7, 18, 3), e1 := (17, 19, 10) }

/-- SHA-384's amounts. -/
def sha384Rot : ShaRot := { s0 := (28, 34, 39), s1 := (14, 18, 41), e0 := (1, 8, 7), e1 := (19, 61, 6) }

/-- Three rotations XORed. -/
def shaBig {n : Nat} (r : Nat × Nat × Nat) (x : BitVec n) : BitVec n :=
  x.rotateRight r.1 ^^^ x.rotateRight r.2.1 ^^^ x.rotateRight r.2.2

/-- Two rotations and a shift XORed. -/
def shaSmall {n : Nat} (r : Nat × Nat × Nat) (x : BitVec n) : BitVec n :=
  x.rotateRight r.1 ^^^ x.rotateRight r.2.1 ^^^ (x >>> r.2.2)

/-- The next n words of the message schedule; w holds the last 16 words, oldest first. -/
def shaSchedule {b : Nat} (r : ShaRot) : Nat → List (BitVec b) → List (BitVec b)
  | 0, _ => []
  | n + 1, w =>
    let g := fun i => w.getD i 0#b
    let x := shaSmall r.e1 (g 14) + g 9 + shaSmall r.e0 (g 1) + g 0
    x :: shaSchedule r n (w.drop 1 ++ [x])

/-- One round on the eight working words. -/
def shaRound {b : Nat} (r : ShaRot) (h : List (BitVec b)) (kw : BitVec b × BitVec b) : List (BitVec b) :=
  match h with
  | [a, bb, c, d, e, f, g, hh] =>
    let t1 := hh + shaBig r.s1 e + ((e &&& f) ^^^ (~~~e &&& g)) + kw.1 + kw.2
    let t2 := shaBig r.s0 a + ((a &&& bb) ^^^ (a &&& c) ^^^ (bb &&& c))
    [t1 + t2, a, bb, c, d + t1, e, f, g]
  | l => l

/-- One block of 16 words into the hash value. -/
def shaBlock {b : Nat} (r : ShaRot) (ks : List (BitVec b)) (h blk : List (BitVec b)) : List (BitVec b) :=
  let w := blk ++ shaSchedule r (ks.length - 16) blk
  let h' := (ks.zip w).foldl (shaRound r) h
  List.zipWith (· + ·) h h'

/-- n blocks of 16 words of `wb` bytes from a padded message. -/
def shaBlocks {b : Nat} (r : ShaRot) (ks : List (BitVec b)) (wb : Nat) :
    Nat → List (BitVec b) → List Byte → List (BitVec b)
  | 0, h, _ => h
  | n + 1, h, l =>
    let blk := (List.range 16).map fun i => BitVec.ofNat b (ofBytesBE ((l.drop (wb * i)).take wb))
    shaBlocks r ks wb n (shaBlock r ks h blk) (l.drop (16 * wb))

/-- The padded message for blocks of `blk` bytes with a length field of `lf` bytes. -/
def shaPad (blk lf : Nat) (l : List Byte) : List Byte :=
  let z := (blk - (l.length + 1 + lf) % blk) % blk
  l ++ [0x80#8] ++ List.replicate z 0#8 ++ bytesBE lf (8 * l.length)

/-- SHA-256 of a message, 32 bytes. -/
def sha256 (l : List Byte) : List Byte :=
  let p := shaPad 64 8 l
  let ks := (shaK.take 64).map fun k => BitVec.ofNat 32 (k / 2 ^ 32)
  (shaBlocks sha256Rot ks 4 (p.length / 64) (sha256Iv.map (BitVec.ofNat 32)) p).flatMap fun w => bytesBE 4 w.toNat

/-- SHA-384 of a message, 48 bytes. -/
def sha384 (l : List Byte) : List Byte :=
  let p := shaPad 128 16 l
  let ks := shaK.map (BitVec.ofNat 64)
  ((shaBlocks sha384Rot ks 8 (p.length / 128) (sha384Iv.map (BitVec.ofNat 64)) p).take 6).flatMap
    fun w => bytesBE 8 w.toNat

end Sys2Proof.Machine
end

