-- ==== Sys2Proof/Machine/Meter.lean ====
section
/-!
DEFINITION. Sys2Proof/Machine/Meter.lean: energy accounts, the reconciliation of a period, and the waybill records
(R477 to R495).
-/

namespace Sys2Proof.Machine

/-- The four categories of Table 16.1. -/
structure Cats where
  compute : Nat
  memory : Nat
  links : Nat
  static_ : Nat
deriving DecidableEq, Repr

/-- Nothing in any category. -/
def Cats.zero : Cats := { compute := 0, memory := 0, links := 0, static_ := 0 }

/-- Categories added. -/
def Cats.add (a b : Cats) : Cats :=
  { compute := a.compute + b.compute, memory := a.memory + b.memory, links := a.links + b.links, static_ := a.static_ + b.static_ }

/-- The categories in record order. -/
def Cats.toList (a : Cats) : List Nat := [a.compute, a.memory, a.links, a.static_]

/-- The sum of the categories. -/
def Cats.sum (a : Cats) : Nat := a.compute + a.memory + a.links + a.static_

/-- Categories from a list of four. -/
def catsOf (l : List Nat) : Cats :=
  { compute := l.getD 0 0, memory := l.getD 1 0, links := l.getD 2 0, static_ := l.getD 3 0 }

/-- The account of one step: its estimate in fJ in this period, its reconciled µJ, its requests with their rows in
selection order, those that have their records, whether it is in flight, the largest dev_ppm and the flags of its periods, its bucket's DIM[0], its
ticks, and whether its energy goes to the house account instead (R479, R482, R483). -/
structure StepAcc where
  job : Nat
  step : Nat
  est : Cats
  uj : Cats
  rows : List (Nat × Nat)
  paid : List Nat
  stepRows : Nat
  running : Bool
  settled : Bool
  dev : Nat
  flags : Nat
  start : Nat
  stop : Nat
deriving DecidableEq, Repr

/-- The handling account of one accepted SUBMIT (R481). -/
structure HandAcc where
  ticket : Nat
  fj : Nat
  uj : Nat
  settled : Bool
  dev : Nat
  flags : Nat
deriving DecidableEq, Repr

/-- A reserved record (R486, R489). `step` is the account it is charged to; `cats` holds a HOUSE record's energies. -/
structure Resv where
  index : Nat
  kind : Nat
  ticket : Nat
  job : Nat
  status : Nat
  flags : Nat
  rows : Nat
  start : Nat
  stop : Nat
  step : Option (Nat × Nat)
  cats : Cats
  dev : Nat
  backstamp : List Byte
deriving DecidableEq, Repr

/-- What the boot flash keeps of the ledger: epoch, last SEQ, its hash, and whether a last record wrote it (R491). -/
structure LedgerFlash where
  epoch : Nat
  seq : Nat
  hash : List Byte
  last : Bool
deriving DecidableEq, Repr

/-- The meter (R495). -/
structure Meter where
  hUj : Nat
  attrPpm : Nat
  nearFull : Bool
  signHold : Bool
  mUj : Nat
  devPpm : Nat
  totalUj : Nat
  epoch : Nat
  reserved : Nat
  written : Nat
  readIdx : Nat
  wbase : Nat
  overwritten : Nat
  signHolds : Nat
  idPub : List Byte
  cert : List Byte
  house : Cats
  houseUj : Cats
  houseDev : Nat
  houseFlags : Nat
  steps : List StepAcc
  hands : List HandAcc
  resv : List Resv
  prevSeq : Nat
  prevHash : List Byte
  flash : LedgerFlash
deriving DecidableEq, Repr

/-- The meter after reset (R495); a flash that holds no ledger yet (assumption 17). -/
def Meter.reset : Meter :=
  { hUj := 0, attrPpm := 0, nearFull := false, signHold := false, mUj := 0, devPpm := 0, totalUj := 0, epoch := 0, reserved := 0,
    written := 0, readIdx := 0, wbase := 0, overwritten := 0, signHolds := 0, idPub := [], cert := [], house := Cats.zero,
    houseUj := Cats.zero, houseDev := 0, houseFlags := 0, steps := [], hands := [], resv := [], prevSeq := 0,
    prevHash := List.replicate 48 0#8, flash := { epoch := 0, seq := 0, hash := List.replicate 48 0#8, last := true } }

/-! ### Apportioning (R481) -/

/-- Does entry (remainder, index) a come before b: the larger remainder, the lower index on a tie? -/
def remBefore (a b : Nat × Nat) : Bool := decide (a.1 > b.1) || (decide (a.1 = b.1) && decide (a.2 < b.2))

/-- The shares of a total by weights, the rest to the largest remainders (R481). -/
def apportion (total : Nat) (ws : List Nat) : List Nat :=
  let w := ws.foldl (· + ·) 0
  if w = 0 then ws.map fun _ => 0
  else
    let base := ws.map fun x => total * x / w
    let rems := (ws.map fun x => total * x % w).zipIdx
    let left := total - base.foldl (· + ·) 0
    base.zipIdx.map fun p =>
      let me := (total * ws.getD p.2 0 % w, p.2)
      if (rems.filter fun r => remBefore r me).length < left then p.1 + 1 else p.1

/-- The deviation of a period in ppm, rounded up: measured m µJ against an estimate of e fJ (R481); of a period that measured nothing a
free value (assumption 111). -/
def devPpmOf (m e : Nat) : Nat :=
  if m = 0 then (Config.devOfNothing e).toNat
  else
    let a := m * 1000000000
    let d := if a ≥ e then a - e else e - a
    (d * 1000000 + a - 1) / a

/-- Cut a list into fours. -/
def fours : List Nat → List (List Nat)
  | a :: b :: c :: d :: l => [a, b, c, d] :: fours l
  | _ => []

/-- One sample of a feed's two converters: raw voltage and current. -/
structure FeedSample where
  v : Nat
  i : Nat
deriving DecidableEq, Repr

/-- A converter's reading corrected by its gain, in millionths, and its offset, in the reading's unit of mV or mA: millionths of that
unit, not below 0 (R477). -/
def corrected (cal : Nat × Int) (raw : Nat) : Nat := ((raw * cal.1 : Int) + cal.2 * 1000000).toNat

/-- The energy of a sample, V × I × 1 µs, in millionths of millionths of a pJ (R477). -/
def sampleEnergy (v i : Nat × Int) (x : FeedSample) : Nat := corrected v x.v * corrected i x.i

/-- The measured energy M of a period, in whole µJ: the sum of its 1,000 samples of both feeds, rounded down (R477). `cal` calibrates the
converters of feed A's voltage and current and feed B's (assumption 133). -/
def measuredUj (cal : List (Nat × Int)) (xs : List (FeedSample × FeedSample)) : Nat :=
  let c := fun (k : Nat) => cal.getD k (1000000, 0)
  ((xs.take 1000).map fun x => sampleEnergy (c 0) (c 1) x.1 + sampleEnergy (c 2) (c 3) x.2).sum / 10 ^ 18

/-- Accounts that have settled and that no request is charged from: their energy is the house's (R483). -/
def unclaimed (s : StepAcc) : Bool := s.settled && s.rows.isEmpty

/-- The energy of unclaimed accounts goes to the house account (R483). -/
def claimHouse (k : Meter) : Meter :=
  { k with
    houseUj := (k.steps.filter unclaimed).foldl (fun a s => a.add s.uj) k.houseUj
    steps := k.steps.filter fun s => !unclaimed s }

/-- Reconcile a period of m µJ: every cell in order, house first, step accounts by job id, handling accounts in order
of acceptance (R481). `flags` are the record flags of the period. -/
def reconcilePeriod (k : Meter) (m flags : Nat) : Meter :=
  let ss := k.steps.mergeSort fun a b => decide (a.job < b.job) || (decide (a.job = b.job) && decide (a.step ≤ b.step))
  let fresh := k.hands.filter fun h => !h.settled
  let cells := k.house.toList ++ ss.flatMap (fun s => s.est.toList) ++ fresh.flatMap fun h => [0, 0, 0, h.fj]
  let est := cells.foldl (· + ·) 0
  let dev := devPpmOf m est
  let shares := fours (apportion m cells)
  let houseGot := if est = 0 then { Cats.zero with static_ := m } else catsOf (shares.getD 0 [])
  let ns := ss.length
  let steps := ss.zipIdx.map fun p =>
    let used := decide (p.1.est.sum > 0)
    { p.1 with
      uj := p.1.uj.add (catsOf (shares.getD (1 + p.2) [])), est := Cats.zero
      dev := if used then max p.1.dev dev else p.1.dev, flags := if used then p.1.flags ||| flags else p.1.flags
      settled := !p.1.running }
  let handled := fresh.zipIdx.map fun p =>
    { p.1 with uj := (catsOf (shares.getD (1 + ns + p.2) [])).static_, settled := true, dev := dev, flags := flags }
  claimHouse { k with
    house := Cats.zero, houseUj := k.houseUj.add houseGot, houseDev := max k.houseDev dev, houseFlags := k.houseFlags ||| flags
    steps := steps, hands := (k.hands.filter fun h => h.settled) ++ handled
    mUj := m % 2 ^ 32, devPpm := min dev 0xFFFFFFFF, totalUj := min (2 ^ 64 - 1) (k.totalUj + m) }

/-! ### Tagging (R479, R480) -/

/-- The step of a job that is in flight, as the start of an interval finds it (R479). -/
def inFlight (k : Meter) (job : Nat) : Option (Nat × Nat) :=
  (k.steps.find? fun s => decide (s.job = job) && s.running).map fun s => (s.job, s.step)

/-- Energy tagged to the account of a step that is not yet settled, or to the house account (R479). -/
def tagAcc (k : Meter) (acc : Option (Nat × Nat)) (e : Cats) : Meter :=
  match acc.bind fun a => k.steps.findIdx? fun s => decide (s.job = a.1) && decide (s.step = a.2) && !s.settled with
  | some i => { k with steps := k.steps.zipIdx.map fun s => if s.2 = i then { s.1 with est := s.1.est.add e } else s.1 }
  | none => { k with house := k.house.add e }

/-- A step starts: its account opens (R479). -/
def openStep (k : Meter) (job step rows now : Nat) (reqs : List (Nat × Nat)) : Meter :=
  { k with steps := k.steps ++ [{ job := job, step := step, est := Cats.zero, uj := Cats.zero, rows := reqs, stepRows := rows,
                                  running := true, settled := false, paid := [], dev := 0, flags := 0, start := now, stop := now }] }

/-- A step reaches its stop: its account closes (R479, R482). -/
def closeStep (k : Meter) (job now : Nat) : Meter :=
  { k with steps := k.steps.map fun s => if s.job = job ∧ s.running then { s with running := false, stop := now } else s }

/-- A step that does not reach its stop, or that has reached it and is run again: its energy goes to the house account; `again` names
the latter (R483). -/
def abandonStep (k : Meter) (job : Nat) (again : Option Nat) : Meter :=
  let lost := fun (s : StepAcc) => decide (s.job = job) && (s.running || decide (again = some s.step))
  let gone := k.steps.filter lost
  { k with
    steps := k.steps.filter fun s => !lost s
    house := gone.foldl (fun a s => a.add s.est) k.house
    houseUj := gone.foldl (fun a s => a.add s.uj) k.houseUj }

/-- The requests of a job's step in flight have ended before its stop: nothing is charged from its account (R483). -/
def unchargeStep (k : Meter) (job : Nat) : Meter :=
  { k with steps := k.steps.map fun s => if s.job = job ∧ s.running then { s with rows := [] } else s }

/-- An accepted SUBMIT has a handling account in the period of its acceptance (R481). -/
def openHand (k : Meter) (ticket : Nat) : Meter :=
  { k with hands := k.hands ++ [{ ticket := ticket, fj := k.hUj * 1000000000, uj := 0, settled := false, dev := 0, flags := 0 }] }

/-! ### Records (R482 to R489) -/

/-- Reserve the next number for a record (R489). -/
def reserve (k : Meter) (r : Resv) : Meter :=
  { k with resv := k.resv ++ [{ r with index := k.reserved }], reserved := (k.reserved + 1) % 2 ^ 40 }

/-- The SEQ of an index in the current epoch. -/
def seqOf (k : Meter) (i : Nat) : Nat := k.epoch % 2 ^ 24 * 2 ^ 40 + i % 2 ^ 40

/-- A HOUSE record at the end of 1,000 periods (R488). -/
def reserveHouse (k : Meter) (start stop : Nat) : Meter :=
  let k1 := reserve k { index := 0, kind := 1, ticket := 0, job := 0xFF, status := 0, flags := k.houseFlags, rows := 0,
                        start := start, stop := stop, step := none, cats := k.houseUj, dev := k.houseDev,
                        backstamp := List.replicate 32 0#8 }
  { k1 with houseUj := Cats.zero, houseDev := 0, houseFlags := 0 }

/-- A request's share of its step's energy: by category, weighted by rows in selection order (R482). -/
def requestShare (s : StepAcc) (ticket : Nat) : Cats :=
  match s.rows.findIdx? fun r => decide (r.1 = ticket) with
  | none => Cats.zero
  | some i => catsOf (s.uj.toList.map fun e => (apportion e (s.rows.map (·.2))).getD i 0)

/-- The uncertainty of an energy (R485). -/
def uncertainty (k : Meter) (e d : Nat) : Nat := (e * (10000 + k.attrPpm + d) + 999999) / 1000000

/-- Is the account the one that a record is charged from: of its step, with its request? -/
def chargedFrom (js : Nat × Nat) (ticket : Nat) (s : StepAcc) : Bool :=
  decide (s.job = js.1) && decide (s.step = js.2) && s.rows.any fun x => decide (x.1 = ticket)

/-- Are the energies of a reserved record settled? -/
def resvReady (k : Meter) (r : Resv) : Bool :=
  match r.kind with
  | 0 =>
    (k.hands.all fun h => !decide (h.ticket = r.ticket) || h.settled) &&
    match r.step with
    | some js => k.steps.all fun s => !chargedFrom js r.ticket s || s.settled
    | none => true
  | _ => true

/-- The energies, the largest dev_ppm, the flags, STEP_ROWS and the ticks of a record. -/
def resvFigures (k : Meter) (r : Resv) : Cats × Nat × Nat × Nat × Nat × Nat :=
  match r.kind with
  | 0 =>
    let h := k.hands.find? fun h => decide (h.ticket = r.ticket)
    let hu := match h with
      | some h => (h.uj, h.dev, h.flags)
      | none => (0, 0, 0)
    let st := match r.step with
      | some js => k.steps.find? (chargedFrom js r.ticket)
      | none => none
    match st with
    | some s =>
      let c := requestShare s r.ticket
      ({ c with static_ := c.static_ + hu.1 }, max s.dev hu.2.1, s.flags ||| hu.2.2, s.stepRows, s.start, s.stop)
    | none => ({ Cats.zero with static_ := hu.1 }, hu.2.1, hu.2.2, 0, r.start, r.stop)
  | _ => (r.cats, r.dev, 0, 0, r.start, r.stop)

/-- Bytes 0x00 to 0x9F of a record (Table 16.2). -/
def recordBody (k : Meter) (r : Resv) : List Byte :=
  let f := resvFigures k r
  let c := f.1
  let u := if r.kind = 2 then 0 else uncertainty k c.sum f.2.1
  bytesLE 8 (seqOf k r.index) ++ bytesLE 8 r.ticket ++ bytesLE 1 r.kind ++ bytesLE 1 r.job ++ bytesLE 1 r.status ++
  bytesLE 1 (r.flags ||| f.2.2.1) ++ bytesLE 2 r.rows ++ bytesLE 2 f.2.2.2.1 ++ bytesLE 8 f.2.2.2.2.1 ++
  bytesLE 8 f.2.2.2.2.2 ++ bytesLE 8 c.compute ++ bytesLE 8 c.memory ++ bytesLE 8 c.links ++ bytesLE 8 c.static_ ++
  bytesLE 4 u ++ bytesLE 4 (match r.step with
    | some js => js.2
    | none => 0) ++ (r.backstamp ++ List.replicate (32 - r.backstamp.length) 0#8) ++ k.prevHash

/-- The 256 bytes of a record with its signature (R486, R487, assumption 9). -/
def recordBytes (k : Meter) (r : Resv) : List Byte :=
  let b := recordBody k r
  let s := Config.ledgerSign b
  b ++ bytesBE 48 s.1.toNat ++ bytesBE 48 s.2.toNat

/-- Slots of the ledger ring (R492). -/
def ledgerSlots : Nat := 4194304

/-- The device physical addresses of copies A and B of an index's slot (R492). -/
def ledgerAddrs (i : Nat) : Nat × Nat :=
  let s := i % ledgerSlots
  let base := fun (p : Nat) => p * 0x1800000000 + 24320 * 0x400000
  let off := 260 * 0x100000 + s / 8 * 256
  (base (s % 8) + off, base ((s % 8 + 4) % 8) + off + 128 * 0x100000)

/-- NEAR_FULL with its hysteresis (R493). -/
def nearFullNow (k : Meter) : Bool :=
  let n := k.written - k.readIdx
  if k.nearFull then decide (n > 2097152) else decide (n > 3145728)

/-- SIGN_HOLD with its hysteresis (R490). -/
def holdNow (k : Meter) : Bool :=
  let n := k.reserved - k.written
  if k.signHold then decide (n > 61440) else decide (n ≥ 65536)

/-- The flags recomputed, a new hold counted (R490, R493). -/
def meterFlags (k : Meter) : Meter :=
  let h := holdNow k
  { k with
    nearFull := nearFullNow k, signHold := h, signHolds := if h && !k.signHold then sat32 k.signHolds 1 else k.signHolds }

/-- Have all requests of an account their records? -/
def fullyPaid (s : StepAcc) : Bool := !s.rows.isEmpty && s.rows.all fun x => s.paid.contains x.1

/-- The first reserved record is written: the meter and the record's bytes with their two addresses (R489 to R493). -/
def writeRecord (k : Meter) : Option (Meter × List Byte × Nat × Nat) :=
  match k.resv with
  | [] => none
  | r :: rest =>
    if resvReady k r then
      let b := recordBytes k r
      let a := ledgerAddrs r.index
      let lostOne := decide (r.index ≥ ledgerSlots) && decide (r.index - ledgerSlots ≥ k.readIdx)
      let pay := fun (s : StepAcc) => match r.step with
        | some js => if chargedFrom js r.ticket s then { s with paid := s.paid ++ [r.ticket] } else s
        | none => s
      let k1 := { k with
          resv := rest, written := (r.index + 1) % 2 ^ 40, prevSeq := seqOf k r.index, prevHash := sha384 b
          overwritten := if lostOne then sat32 k.overwritten 1 else k.overwritten
          hands := k.hands.filter fun h => !decide (h.ticket = r.ticket)
          steps := (k.steps.map pay).filter fun s => !fullyPaid s }
      some (meterFlags k1, b, a.1, a.2)
    else none

/-- The flash values of the ledger, from a 10 s update or a last record (R491). -/
def saveLedger (k : Meter) (last : Bool) : Meter :=
  { k with flash := { epoch := k.epoch, seq := k.prevSeq, hash := k.prevHash, last := last } }

/-- At READY the epoch starts with a GENESIS record (R491) (assumption 131). -/
def startEpoch (k : Meter) (now : Nat) : Meter :=
  let k1 := { k with epoch := (k.flash.epoch + 1) % 2 ^ 24, reserved := 0, written := 0, prevHash := k.flash.hash, resv := [] }
  reserve k1 { index := 0, kind := 2, ticket := k.flash.seq, job := 0xFF, status := 0,
               flags := if k.flash.last then 0 else 8, rows := 0, start := now, stop := now, step := none, cats := Cats.zero, dev := 0,
               backstamp := List.replicate 32 0#8 }

end Sys2Proof.Machine
end

