-- ==== Sys2Proof/Machine/HostQ.lean ====
section
/-!
DEFINITION. Sys2Proof/Machine/HostQ.lean: the host ports' registers, session queues, control queues, completion rings and
MSI-X, as operations on their own state (R441 to R451, R458, R466 to R476).
-/

namespace Sys2Proof.Machine

/-- What the record of a QUERY carries (R457): of the module its grade, divider, admitted jobs, spare count and the spares of each field
column (R34), of a job its state, stop count and placement as (shared, field, first column), of a queue its state word. -/
inductive QueryRec where
  | module (grade div jobs spares : Nat) (columns : List Nat)
  | job (id state stop : Nat) (place : Option (Bool × Nat × Nat))
  | queue (id word : Nat)
deriving DecidableEq, Repr

/-- What the block sends out of itself: writes to host memory, MSI-X messages, trunk flits and the levels of the codewords on the
physical lanes that carry them, SMBus answers, JTAG output,
PCIe configuration answers with the function's identity (its class code above its vendor and device ID),
the contents of a QUERY record, and the status IMEM_ACTIVE of a refused load (R195). -/
inductive OutMsg where
  | hostWrite (port addr : Nat) (bytes : List Byte)
  | msix (port vector addr data : Nat)
  | trunkFlit (port : Nat) (bytes : List Byte)
  | lane (port phys : Nat) (levels : List Nat)
  | smbus (bytes : List Byte)
  | nackSmbus
  | tdo (bits : List Bool)
  | config (port : Nat) (retry : Bool) (ident : Nat)
  | window (value : Nat)
  | imemActive (site : Nat)
  | query (rec : QueryRec)
deriving DecidableEq, Repr

/-- A completion on its way to a ring (Table 15.7). `queue` is the session queue whose entry it frees; `record` says
how its waybill is reserved. -/
structure Comp where
  port : Nat
  ring : Nat
  ticket : Nat
  status : Nat
  result : Nat
  tag : Nat
  backstamp : List Byte
  queue : Option Nat
  record : Option Resv
deriving DecidableEq, Repr

/-- A completion ring (HOSTn.CRING_r). `unsig` counts entries posted since the last signal, `sinceMark` the
completions dropped since the last marker. -/
structure Ring where
  base : Nat
  head : Nat
  phase : Bool
  tail : Nat
  dropped : Nat
  held : List Comp
  en : Bool
  log2n : Nat
  vector : Nat
  coalUs : Nat
  coalN : Nat
  unsig : Nat
  sinceMark : Nat
deriving DecidableEq, Repr

/-- A ring after reset. -/
def Ring.reset : Ring :=
  { base := 0, head := 0, phase := false, tail := 0, dropped := 0, held := [], en := false, log2n := 0, vector := 0, coalUs := 0,
    coalN := 0, unsig := 0, sinceMark := 0 }

/-- A control queue (HOSTn.CQ_k). -/
structure Cq where
  base : Nat
  en : Bool
  log2n : Nat
  cring : Nat
  head : Nat
  seq : Nat
deriving DecidableEq, Repr

/-- A control queue after reset. -/
def Cq.reset : Cq := { base := 0, en := false, log2n := 0, cring := 0, head := 0, seq := 0 }

/-- An MSI-X table entry; every vector is masked after reset (assumption 21). -/
structure MsixEnt where
  addr : Nat
  data : Nat
  mask : Bool
deriving DecidableEq, Repr

/-- An MSI-X entry after reset. -/
def MsixEnt.reset : MsixEnt := { addr := 0, data := 0, mask := true }

/-- A host port: its link, PERST_N, and its registers. `perst` says that PERST_N is asserted, `waited` that 100 ms have
passed since its deassertion. -/
structure HostPort where
  perst : Bool
  linkUp : Bool
  d0 : Bool
  waited : Bool
  rate : Nat
  width : Nat
  flit : Bool
  gone : Nat
  qsel : Nat
  rings : SMap Ring
  cqs : SMap Cq
  msix : SMap MsixEnt
  pending : SMap Bool
deriving DecidableEq, Repr

/-- A host port after reset: no link, its PERST_N input low through the pull-down (R603). -/
def HostPort.reset : HostPort :=
  { perst := true, linkUp := false, d0 := true, waited := false, rate := 0, width := 0, flit := false, gone := 0, qsel := 0,
    rings := [], cqs := [], msix := [], pending := [] }

/-- Is the port present (R471)? -/
def portPresent (h : HostPort) : Bool := !h.perst && h.linkUp && h.d0

/-- A session queue's state word (R446). -/
structure QState where
  en : Bool
  port : Nat
  cring : Nat
  job : Nat
  outstanding : Nat
  seq : Nat
deriving DecidableEq, Repr

/-- A queue's state word after reset. -/
def QState.reset : QState := { en := false, port := 0, cring := 0, job := 0, outstanding := 0, seq := 0 }

/-- The queue block: state words, the cache (least recently used first) and the waiting list, counters (R450, R476). -/
structure Queues where
  states : SMap QState
  cache : List Nat
  waiting : List Nat
  dropped : Nat
  refused : Nat
deriving DecidableEq, Repr

/-- The queue block after reset. -/
def Queues.reset : Queues := { states := [], cache := [], waiting := [], dropped := 0, refused := 0 }

/-! ### Session queues -/

/-- Queue q's state word. -/
def getQ (x : Queues) (q : Nat) : QState := smGet QState.reset x.states q

/-- The queue block with queue q's state word replaced. -/
def setQ (x : Queues) (q : Nat) (v : QState) : Queues := { x with states := smSet QState.reset x.states q v }

/-- The device physical addresses of entry i of queue q in copies A and B (R445) (assumption 129). -/
def entryAddrs (q i : Nat) : Nat × Nat :=
  let p := q / 262144
  let a := fun (p : Nat) => p * 0x1800000000 + 24320 * 0x400000 + q % 262144 * 1024 + i % 16 * 64
  (a p, a (p + 4))

/-- Does a doorbell of n entries for queue q stand (R447)? -/
def doorbellOk (x : Queues) (q n : Nat) : Bool :=
  decide (1 ≤ n) && decide (n ≤ 16) && (getQ x q).en && decide ((getQ x q).outstanding + n ≤ 16)

/-- Queue q takes its place in the cache, or joins the waiting list (R450). -/
def cacheQueue (x : Queues) (q : Nat) : Queues :=
  if x.cache.contains q then { x with cache := (x.cache.filter fun c => !decide (c = q)) ++ [q] }
  else if x.waiting.contains q then x
  else if x.cache.length < 4096 then { x with cache := x.cache ++ [q] }
  else
    match x.cache.find? fun c => decide ((getQ x c).outstanding = 0) with
    | some c => { x with cache := (x.cache.filter fun d => !decide (d = c)) ++ [q] }
    | none => { x with waiting := x.waiting ++ [q] }

/-- Waiting queues enter the cache in order as entries free (R450). -/
def refillCache : Nat → Queues → Queues
  | 0, x => x
  | n + 1, x =>
    match x.waiting with
    | [] => x
    | q :: rest =>
      let y := cacheQueue { x with waiting := rest } q
      if y.waiting.contains q then x else refillCache n y

/-- A completion of queue q is posted or dropped: one entry frees (R446, R450). -/
def freeEntry (x : Queues) (q : Nat) : Queues :=
  let s := getQ x q
  let y := setQ x q { s with outstanding := s.outstanding - 1 }
  refillCache (y.waiting.length + 1) y

/-- Queues with requests that hold a cache entry (QUEUE.CACHE). -/
def cachedCount (x : Queues) : Nat := (x.cache.filter fun q => decide ((getQ x q).outstanding > 0)).length

/-- A write of QDESC for queue q (R446): EN from 0 to 1 restarts SEQ, and is ignored with requests outstanding; while EN
is 1, a write that changes PORT or JOB is ignored. -/
def writeQdesc (x : Queues) (q v : Nat) : Queues :=
  let s := getQ x q
  let en := decide (v / 2 ^ 63 % 2 = 1)
  let port := v / 2 ^ 62 % 2
  let ring := v / 2 ^ 54 % 256
  let job := v / 2 ^ 49 % 32
  if s.en then
    if port = s.port ∧ job = s.job then setQ x q { s with en := en, cring := ring } else x
  else if en then
    if s.outstanding ≠ 0 then x else setQ x q { s with en := true, port := port, cring := ring, job := job, seq := 0 }
  else setQ x q { s with port := port, cring := ring, job := job }

/-- The QDESC value of queue q. -/
def readQdesc (x : Queues) (q : Nat) : Nat :=
  let s := getQ x q
  s.en.toNat * 2 ^ 63 + s.port * 2 ^ 62 + s.cring * 2 ^ 54 + s.job * 2 ^ 49 + s.outstanding * 2 ^ 44 + s.seq

/-- A ticket (R458, Table 15.5). -/
def mkTicket (q seq origin : Nat) : Nat := q % 2 ^ 20 * 2 ^ 44 + seq % 2 ^ 32 * 2 ^ 12 + origin % 16 * 2 ^ 8

/-- EN cleared in every queue bound to a job (R446). -/
def unbindJob (x : Queues) (job : Nat) : Queues :=
  { x with states := smMap QState.reset (fun _ s => if s.job = job then { s with en := false } else s) x.states }

/-! ### Rings -/

/-- Ring r of a port. -/
def getRing (h : HostPort) (r : Nat) : Ring := smGet Ring.reset h.rings r

/-- The port with ring r replaced. -/
def setRing (h : HostPort) (r : Nat) (v : Ring) : HostPort := { h with rings := smSet Ring.reset h.rings r v }

/-- Control queue k of a port. -/
def getCq (h : HostPort) (k : Nat) : Cq := smGet Cq.reset h.cqs k

/-- The port with control queue k replaced. -/
def setCq (h : HostPort) (k : Nat) (v : Cq) : HostPort := { h with cqs := smSet Cq.reset h.cqs k v }

/-- Entries of a ring. -/
def ringSize (r : Ring) : Nat := 2 ^ r.log2n

/-- Is the ring full (R466)? -/
def ringFull (r : Ring) : Bool :=
  let n := ringSize r
  decide ((r.tail % n + n - r.head % n) % n = n - 1)

/-- The 64 bytes of a completion entry (Table 15.7). -/
def compBytes (c : Comp) (phase : Bool) (waybill : Nat) : List Byte :=
  bytesLE 8 c.ticket ++ bytesLE 1 c.status ++ bytesLE 1 phase.toNat ++ bytesLE 2 0 ++ bytesLE 4 c.result ++ bytesLE 8 c.tag ++
  bytesLE 8 waybill ++ (c.backstamp.take 32 ++ List.replicate (32 - c.backstamp.length) 0#8)

/-- No waybill. -/
def noWaybill : Nat := 0xFFFFFFFFFFFFFFFF

/-- The MSI-X message of a vector, or its pending bit while it is masked (R468). -/
def signalVector (port : Nat) (h : HostPort) (v : Nat) : HostPort × List OutMsg :=
  let e := smGet MsixEnt.reset h.msix v
  if e.mask then ({ h with pending := smSet false h.pending v true }, [])
  else ({ h with pending := smSet false h.pending v false }, [.msix port v e.addr e.data])

/-- One entry is written at TAIL; PHASE inverts at the wrap; the vector is signalled by the coalescing rule (R466 to
R468). -/
def ringPut (port : Nat) (h : HostPort) (r : Nat) (bytes : List Byte) : HostPort × List OutMsg :=
  let g := getRing h r
  let t := g.tail % ringSize g
  let nxt := (t + 1) % ringSize g
  let n := g.unsig + 1
  let sig := decide (g.coalN = 0) || decide (g.coalUs = 0) || decide (n ≥ g.coalN)
  let h1 := setRing h r { g with tail := nxt, phase := if nxt = 0 then !g.phase else g.phase, unsig := if sig then 0 else n }
  let w := OutMsg.hostWrite port (g.base + 64 * t) bytes
  if sig then
    let s := signalVector port h1 g.vector
    (s.1, w :: s.2)
  else (h1, [w])

/-- The marker of a ring that dropped completions: status QUEUE_DROPPED, RESULT the count (R470). -/
def markerBytes (g : Ring) : List Byte :=
  compBytes { port := 0, ring := 0, ticket := 0, status := 4, result := g.sinceMark, tag := 0, backstamp := [], queue := none,
              record := none } g.phase noWaybill

/-- Post the marker where one is due and fits (R470). -/
def putMarker (port : Nat) (h : HostPort) (r : Nat) : HostPort × List OutMsg :=
  let g := getRing h r
  if g.en && decide (g.sinceMark > 0) && g.held.isEmpty && !ringFull g then
    let p := ringPut port h r (markerBytes g)
    (setRing p.1 r { getRing p.1 r with sinceMark := 0 }, p.2)
  else (h, [])

/-- Limits of LOG2N (HOSTn.CRING_r, CQ_k). -/
def limitLog (lo hi n : Nat) : Nat := max lo (min hi n)

/-- A write to the word of a ring's register that holds EN, LOG2N, VECTOR and the coalescing fields: EN from 0 to 1
sets TAIL to HEAD and PHASE to 1 (HOSTn.CRING_r). -/
def writeRingCtl (g : Ring) (v : Nat) : Ring :=
  let en := decide (v / 2 ^ 63 % 2 = 1)
  let g1 := { g with log2n := limitLog 6 16 (v / 2 ^ 54 % 32), vector := v / 2 ^ 43 % 2048, coalUs := v / 2 ^ 16 % 65536,
                     coalN := v % 65536, en := en }
  if en && !g.en then { g1 with tail := g.head % 2 ^ g1.log2n, phase := true, unsig := 0 } else g1

/-- A write to the word of a control queue that holds EN, LOG2N and CRING: EN from 0 to 1 restarts HEAD and the sequence
(R451). -/
def writeCqCtl (g : Cq) (v : Nat) : Cq :=
  let en := decide (v / 2 ^ 63 % 2 = 1)
  let g1 := { g with log2n := limitLog 4 12 (v / 2 ^ 54 % 32), cring := v / 2 ^ 46 % 256, en := en }
  if en && !g.en then { g1 with head := 0, seq := 0 } else g1

/-- The port goes away: its rings and control queues are disabled (R472). -/
def disablePort (h : HostPort) : HostPort :=
  { h with
    rings := smMap Ring.reset (fun _ g => { g with en := false }) h.rings
    cqs := smMap Cq.reset (fun _ g => { g with en := false }) h.cqs }

/-- Entries of a control queue from HEAD up to a new tail (R451). -/
def cqCount (g : Cq) (tail : Nat) : Nat := (tail % 2 ^ g.log2n + 2 ^ g.log2n - g.head % 2 ^ g.log2n) % 2 ^ g.log2n

end Sys2Proof.Machine
end

