-- ==== Sys2Proof/Machine/Package.lean ====
section
/-!
DEFINITION. Sys2Proof/Machine/Package.lean: program packages with every limit of their tables, bucket choice, and the
placer (R276 to R284, R288 to R299).
-/

namespace Sys2Proof.Machine

/-- A region entry (Table 8.2). -/
structure RegionEnt where
  vx0 : Nat
  vy0 : Nat
  w : Nat
  h : Nat
  entries : List Nat
deriving DecidableEq, Repr

/-- A bucket entry (Table 8.3). -/
structure BucketEnt where
  dims : List Nat
  inBytes : Nat
  outBytes : Nat
deriving DecidableEq, Repr

/-- An image entry with its instruction words (Table 8.4). -/
structure ImageEnt where
  bankA : List W64
  bankB : List W64
  pairs : Nat
  pwr : Nat
deriving DecidableEq, Repr

/-- A program package that keeps every limit (Table 8.1). -/
structure Package where
  compat : Bool
  vw : Nat
  vh : Nat
  modules : Nat
  ndims : Nat
  winBase : Nat
  arenaVa : Nat
  inMax : Nat
  outMax : Nat
  regions : List RegionEnt
  buckets : List BucketEnt
  images : List ImageEnt
deriving DecidableEq, Repr

/-- The n-byte little-endian field at offset off. -/
def fieldLE (l : List Byte) (off n : Nat) : Nat := ofBytesLE ((l.drop off).take n)

/-- Does the table of n entries of size sz at offset off lie wholly within the package (R276)? -/
def tableIn (l : List Byte) (off n sz : Nat) : Bool := decide (off + n * sz ≤ l.length)

/-- A region entry that keeps its limits. -/
def parseRegion (l : List Byte) (off vw vh nb : Nat) : Option RegionEnt :=
  let e : RegionEnt :=
    { vx0 := fieldLE l off 1, vy0 := fieldLE l (off + 1) 1, w := fieldLE l (off + 2) 1,
      h := fieldLE l (off + 3) 1, entries := (List.range 16).map fun b => fieldLE l (off + 6 + 2 * b) 2 }
  if e.w ≥ 1 ∧ e.vx0 + e.w ≤ vw ∧ e.h ≥ 1 ∧ e.vy0 + e.h ≤ vh ∧ fieldLE l (off + 4) 2 = 0 ∧ fieldLE l (off + 0x26) 2 = 0 ∧
      e.entries.zipIdx.all (fun p => if p.2 < nb then decide (p.1 ≤ 8191) else decide (p.1 = 0)) then some e else none

/-- A bucket entry that keeps its limits. -/
def parseBucket (l : List Byte) (off nd inMax outMax : Nat) : Option BucketEnt :=
  let e : BucketEnt :=
    { dims := (List.range 4).map fun i => fieldLE l (off + 4 * i) 4,
      inBytes := fieldLE l (off + 0x10) 4, outBytes := fieldLE l (off + 0x14) 4 }
  if e.dims.zipIdx.all (fun p => if p.2 < nd then decide (p.1 ≥ 1) else decide (p.1 = 0)) ∧
      e.inBytes % 16 = 0 ∧ e.inBytes ≤ inMax ∧ e.outBytes % 16 = 0 ∧ e.outBytes ≤ outMax ∧ fieldLE l (off + 0x18) 8 = 0
  then some e else none

/-- n instruction words at offset off, least significant byte first (R202). -/
def bankWords (l : List Byte) (off n : Nat) : List W64 :=
  (List.range n).map fun i => BitVec.ofNat 64 (fieldLE l (off + 8 * i) 8)

/-- An image entry that keeps its limits. -/
def parseImage (l : List Byte) (off : Nat) : Option ImageEnt :=
  let aOff := fieldLE l off 4
  let aLen := fieldLE l (off + 4) 2
  let bLen := fieldLE l (off + 6) 2
  let bOff := fieldLE l (off + 8) 4
  let pairs := fieldLE l (off + 12) 2
  let pwr := fieldLE l (off + 14) 1
  if aOff % 8 = 0 ∧ 1 ≤ aLen ∧ aLen ≤ 8192 ∧ tableIn l aOff aLen 8 ∧ bLen ≤ 8192 ∧
      (bLen = 0 ∨ (bOff % 8 = 0 ∧ tableIn l bOff bLen 8)) ∧ pairs ≤ 1024 ∧ pwr < 32 ∧ fieldLE l (off + 15) 1 = 0
  then some { bankA := bankWords l aOff aLen, bankB := if bLen = 0 then [] else bankWords l bOff bLen,
              pairs := pairs, pwr := pwr }
  else none

/-- All the results, or none when one is missing. -/
def allSome {α : Type} : List (Option α) → Option (List α)
  | [] => some []
  | none :: _ => none
  | some a :: l => (allSome l).map (a :: ·)

/-- Is virtual core (x, y) in the region? -/
def inRegion (e : RegionEnt) (x y : Nat) : Bool :=
  decide (e.vx0 ≤ x) && decide (x < e.vx0 + e.w) && decide (e.vy0 ≤ y) && decide (y < e.vy0 + e.h)

/-- Do the regions cover every virtual core exactly once (R277)? -/
def regionsCover (rs : List RegionEnt) (vw vh : Nat) : Bool :=
  (List.range vh).all fun y => (List.range vw).all fun x => decide ((rs.filter fun e => inRegion e x y).length = 1)

/-- The package in a list of bytes, or none where any field breaks its limit: FORMAT_REJECTED (R276 to R279). -/
def parsePackage (l : List Byte) : Option Package :=
  let g := fun off n => fieldLE l off n
  let flags := g 4 4
  let vw := g 8 2
  let vh := g 0xA 2
  let nd := g 0xE 1
  let nb := g 0xF 1
  let nr := g 0x10 4
  let winBase := g 0x14 2
  let arena := g 0x18 8
  let inMax := g 0x20 4
  let outMax := g 0x24 4
  if l.length ≥ 0x40 ∧ g 0 4 = 0x00010000 ∧ flags ≤ 1 ∧ ((1 ≤ vw ∧ vw ≤ 16) ∨ vw = 32 ∨ vw = 48 ∨ vw = 64) ∧
      (vh = 18 ∨ (vh = 36 ∧ vw ≥ 16)) ∧ 1 ≤ g 0xC 2 ∧ g 0xC 2 ≤ 64 ∧ 1 ≤ nd ∧ nd ≤ 4 ∧ 1 ≤ nb ∧ nb ≤ 16 ∧
      1 ≤ nr ∧ nr ≤ vw * vh ∧ (if flags = 1 then winBase ≤ 24575 else winBase = 0) ∧ g 0x16 2 = 0 ∧
      arena % 0x400000 = 0 ∧ arena + inMax + outMax ≤ 2 ^ 48 ∧ inMax % 16 = 0 ∧ outMax % 16 = 0 ∧
      tableIn l (g 0x28 8) nr 40 ∧ tableIn l (g 0x30 8) nb 32 ∧ tableIn l (g 0x38 8) (vw * vh) 16 then
    match allSome ((List.range nr).map fun i => parseRegion l (g 0x28 8 + 40 * i) vw vh nb),
          allSome ((List.range nb).map fun i => parseBucket l (g 0x30 8 + 32 * i) nd inMax outMax),
          allSome ((List.range (vw * vh)).map fun i => parseImage l (g 0x38 8 + 16 * i)) with
    | some rs, some bs, some is =>
      if regionsCover rs vw vh then
        some { compat := decide (flags = 1), vw := vw, vh := vh, modules := g 0xC 2, ndims := nd, winBase := winBase,
               arenaVa := arena, inMax := inMax, outMax := outMax, regions := rs, buckets := bs, images := is }
      else none
    | _, _, _ => none
  else none

/-! ### Buckets -/

/-- Does the bucket hold the shape (R282)? -/
def bucketHolds (nd : Nat) (b : BucketEnt) (shape : List Nat) : Bool :=
  (List.range nd).all fun i => decide (shape.getD i 0 ≤ b.dims.getD i 0)

/-- The product of a bucket's extents. -/
def bucketSize (nd : Nat) (b : BucketEnt) : Nat := (b.dims.take nd).foldl (· * ·) 1

/-- The bucket of least product that holds the shape, the lower index on a tie (R282). -/
def chooseBucket (p : Package) (shape : List Nat) : Option Nat :=
  p.buckets.zipIdx.foldl (fun best bi =>
    if bucketHolds p.ndims bi.1 shape then
      match best with
      | none => some bi.2
      | some j =>
        match p.buckets[j]? with
        | some bj => if bucketSize p.ndims bi.1 < bucketSize p.ndims bj then some bi.2 else best
        | none => some bi.2
    else best) none

/-- The shape of a step from its requests' shapes: the sum of D0 and the maximum of each further dimension (R281). -/
def stepShape (shapes : List (List Nat)) : List Nat :=
  (List.range 4).map fun i =>
    shapes.foldl (fun a s => if i = 0 then a + s.getD 0 0 else max a (s.getD i 0)) 0

/-! ### The placer -/

/-- Where a job stands: its north-west field, its extent in fields, and for a shared-field job its first column and its
width (R288). -/
structure JobPlace where
  field : Nat
  fw : Nat
  fh : Nat
  shared : Bool
  c0 : Nat
  vw : Nat
deriving DecidableEq, Repr

/-- The fields a placement holds. -/
def placeFields (p : JobPlace) : List Nat :=
  (List.range p.fh).flatMap fun j => (List.range p.fw).map fun i => p.field + 4 * j + i

/-- The site at local column j and local row r of field f (R7, R8). -/
def fieldSite (f j r : Nat) : Nat := (20 * (f / 4) + r) * 64 + 16 * (f % 4) + j

/-- The field of a site. -/
def siteField (s : Nat) : Nat := s / 64 / 20 * 4 + s % 64 / 16

/-- The cluster of a site (R7). -/
def siteCluster (s : Nat) : Nat := s / 64 / 2 * 32 + s % 64 / 2

/-- The four sites of a cluster. -/
def clusterSites (k : Nat) : List Nat :=
  let y := k / 32 * 2
  let x := k % 32 * 2
  [y * 64 + x, y * 64 + x + 1, (y + 1) * 64 + x, (y + 1) * 64 + x + 1]

/-- The sites of a field. -/
def fieldSites (f : Nat) : List Nat := (List.range 20).flatMap fun r => (List.range 16).map fun j => fieldSite f j r

/-- The usable sites of a column of a field, northernmost first (R291). -/
def columnSites (usable : Nat → Bool) (f j : Nat) : List Nat :=
  ((List.range 20).map fun r => fieldSite f j r).filter usable

/-- Has the column at least 18 usable sites (R290)? -/
def columnOk (usable : Nat → Bool) (f j : Nat) : Bool := decide ((columnSites usable f j).length ≥ 18)

/-- Is column j of field f held by a placement? -/
def columnHeld (ps : List JobPlace) (f j : Nat) : Bool :=
  ps.any fun p => (placeFields p).contains f && (!p.shared || (decide (p.c0 ≤ j) && decide (j < p.c0 + p.vw)))

/-- May a whole-field placement hold field f (R290)? -/
def fieldQualifies (usable : Nat → Bool) (ps : List JobPlace) (f : Nat) : Bool :=
  !ps.any (fun p => (placeFields p).contains f) && (List.range 16).all (columnOk usable f)

/-- May a shared-field placement of vw columns from c0 hold field f (R290, R298)? -/
def runQualifies (usable : Nat → Bool) (ps : List JobPlace) (f c0 vw : Nat) : Bool :=
  decide (c0 + vw ≤ 16) && !ps.any (fun p => !p.shared && (placeFields p).contains f) &&
  decide ((ps.filter fun p => p.shared && decide (p.field = f)).length < 4) &&
  (List.range vw).all fun j => columnOk usable f (c0 + j) && !columnHeld ps f (c0 + j)

/-- Does a placement qualify among the others held? -/
def placeQualifies (usable : Nat → Bool) (ps : List JobPlace) (p : JobPlace) : Bool :=
  if p.shared then runQualifies usable ps p.field p.c0 p.vw
  else (placeFields p).all (fieldQualifies usable ps)

/-- The choices for a grid of vw x vh in the placer's order (R290). -/
def placeChoices (vw vh : Nat) : List JobPlace :=
  if vw < 16 then
    (List.range 8).flatMap fun f => (List.range (17 - vw)).map fun c0 =>
      { field := f, fw := 1, fh := 1, shared := true, c0 := c0, vw := vw }
  else
    let fw := vw / 16
    let fh := vh / 18
    ((List.range 8).filter fun f => decide (f % 4 + fw ≤ 4) && decide (f / 4 + fh ≤ 2)).map fun f =>
      { field := f, fw := fw, fh := fh, shared := false, c0 := 0, vw := vw }

/-- The first choice that qualifies (R290). -/
def firstPlace (usable : Nat → Bool) (ps : List JobPlace) (l : List JobPlace) : Option JobPlace :=
  l.find? (placeQualifies usable ps)

/-- The placement of a job: the first choice that qualifies, for a readmission the first in the fields that it had, while one
there qualifies (R290, R295). -/
def choosePlace (usable : Nat → Bool) (ps : List JobPlace) (vw vh : Nat) (old : Option JobPlace) : Option JobPlace :=
  let l := placeChoices vw vh
  match old with
  | some p =>
    (firstPlace usable ps (l.filter fun x => decide (placeFields x = placeFields p))).orElse fun _ => firstPlace usable ps l
  | none => firstPlace usable ps l

/-- The placement table of a placement: the site of each virtual core, row by row (R289, R291, R294). -/
def placeTable (usable : Nat → Bool) (p : JobPlace) (vw vh : Nat) : List PlaceEnt :=
  (List.range vh).flatMap fun vy => (List.range vw).map fun vx =>
    let f := if p.shared then p.field else p.field + 4 * (vy / 18) + vx / 16
    let j := if p.shared then p.c0 + vx else vx % 16
    match (columnSites usable f j)[vy % 18]? with
    | some s => { site := s, fenced := false }
    | none => { site := fieldSite f j 0, fenced := true }

/-- The SPARES and SHORT fields of a field's column (R297): spares 0 to 2, none when the column is short. -/
def columnSpares (usable : Nat → Bool) (f j : Nat) : Nat := (columnSites usable f j).length - 18

end Sys2Proof.Machine
end

