-- ==== Sys2Proof/Machine/Arbiter.lean ====
section
/-!
DEFINITION. Sys2Proof/Machine/Arbiter.lean: the timetable arbiter (R333 to R347) on its own: owners, ranks, parking,
the starvation guard, ties, and the taking of a commit; and the register sets that several arbiters share.
-/

namespace Sys2Proof.Machine

/-- The owner of slot p: a requester below n, or none for FREE and every code that acts as FREE (R342). -/
def arbOwner (v : ArbVals) (n p : Nat) : Option Nat :=
  let c := getField v.tt (4 * p) 4
  if c < n then some c else none

/-- The background rank of requester q (R343). -/
def arbRank (v : ArbVals) (q : Nat) : Nat := getField v.rank (3 * q) 3

/-- The guard period, limited to 4 to 64 (R343). -/
def guardLimit (g : BitVec 7) : BitVec 7 := BitVec.ofNat 7 (max 4 (min 64 g.toNat))

/-- The best of the eligible requests under a score: the higher score wins, the lower requester number on a tie (R340). -/
def arbBest (score : Nat × Nat → Nat) : List (Nat × Nat) → Option (Nat × Nat)
  | [] => none
  | r :: l =>
    match arbBest score l with
    | none => some r
    | some b => if score r > score b then some r else if score r = score b ∧ r.1 < b.1 then some r else some b

/-- Is the request eligible: it was raised before this grant cycle, and on lane B of a vertical output before this cc
(R336)? -/
def arbEligible (laneB : Bool) (r : Nat × Nat) : Bool := if laneB then decide (r.2 ≥ 2) else decide (r.2 ≥ 1)

/-- The requests that `raise` adds: each requester of the instance that holds none (R336). -/
def arbNew (n : Nat) (a : ArbInst) (raise : List Nat) : List Nat :=
  (List.range n).filter fun q => raise.contains q && !a.reqs.any fun r => decide (r.1 = q)

/-- Count one grant for the guard: the N-th starts the count again (R338, R339). -/
def guardCount (v : ArbVals) (gsg : Nat) : Nat := if gsg + 1 = v.guard_.toNat then 0 else gsg + 1

/-- The arbiter without the raised requests of requesters that have no access any more (assumption 113). -/
def keepAsking (wants : List Nat) (a : ArbInst) : ArbInst := { a with reqs := a.reqs.filter fun r => wants.contains r.1 }

/-- One grant cycle at slot p: the instance afterwards, its pointer unchanged, and the requester granted (R337 to
R340). `able` says which requesters can use a grant of this cycle: at a router output those with a flit and a downstream credit
for its lane (R334). -/
def arbCycle (v : ArbVals) (n p : Nat) (laneB : Bool) (able : Nat → Bool) (a : ArbInst) (raise : List Nat) :
    ArbInst × Option Nat :=
  let new := arbNew n a raise
  let aged := fun (l : List (Nat × Nat)) => l.map fun r => (r.1, r.2 + 1)
  let fresh := new.map fun q => (q, 1)
  if a.reqs.isEmpty && decide (a.last.toList = new) && a.last.any able then
    ({ a with gsg := guardCount v a.gsg }, a.last)
  else
    let el := a.reqs.filter fun r => arbEligible laneB r && able r.1
    let owned := match arbOwner v n p with
      | some o => el.find? fun r => decide (r.1 = o)
      | none => none
    let pick := if a.gsg + 1 = v.guard_.toNat then arbBest (fun r => r.2) el
      else match owned with
        | some r => some r
        | none => arbBest (fun r => arbRank v r.1) el
    match pick with
    | none => ({ a with reqs := aged a.reqs ++ fresh, last := none }, none)
    | some r =>
      ({ a with gsg := guardCount v a.gsg, last := some r.1,
                reqs := aged (a.reqs.filter fun x => !decide (x.1 = r.1)) ++ fresh }, some r.1)

/-- The pointer of an instance moves on by one slot (R335). -/
def arbAdvance (a : ArbInst) : ArbInst := { a with ptr := (a.ptr + 1) % 64 }

/-- The shadow values as they take effect (R343, R344). -/
def shadowTaken (s : ArbSet) : ArbVals := { s.shadow with guard_ := guardLimit s.shadow.guard_ }

/-- A write of 1 to COMMIT (R344, R345). -/
def armCommit (s : ArbSet) : ArbSet := { s with armed := true }

/-- A set with one instance takes an armed commit at slot 0 (R344). -/
def takeSingle (s : ArbSet) (a : ArbInst) : ArbSet × ArbInst :=
  if s.armed && decide (a.ptr = 0) then
    ({ s with eff := shadowTaken s, armed := false, applied := (s.applied + 1) % 256 }, { a with gsg := 0 })
  else (s, a)

/-- A register set that many arbiters of a field share, in lock-step (R346): the set, the values vertical outputs have
taken, which halves have taken an armed commit, the pointer of the one-grant instances, and the instances. The
instances' own pointers are unused. -/
structure ArbBank where
  set_ : ArbSet
  effV : ArbVals
  tookH : Bool
  tookV : Bool
  ptr : Nat
  insts : SMap ArbInst
deriving DecidableEq, Repr

/-- A shared set after reset. -/
def ArbBank.reset : ArbBank :=
  { set_ := ArbSet.reset, effV := ArbVals.reset, tookH := false, tookV := false, ptr := 0, insts := [] }

/-- The instance number of a router output: local site times 5 plus port, 0 north, 1 east, 2 south, 3 west, 4 local. -/
def routerInst (loc port : Nat) : Nat := loc * 5 + port

/-- Is the instance a vertical output? -/
def instVertical (i : Nat) : Bool := decide (i % 5 = 0) || decide (i % 5 = 2)

/-- The instances of the chosen half with their guard counts cleared (R344). -/
def clearGuards (sel : Nat → Bool) (m : SMap ArbInst) : SMap ArbInst :=
  smMap ArbInst.reset (fun i a => if sel i then { a with gsg := 0 } else a) m

/-- A bank whose halves have both taken the commit is done with it (R346). -/
def bankDone (b : ArbBank) : ArbBank :=
  if b.tookH && b.tookV then
    { b with tookH := false, tookV := false
             set_ := { b.set_ with armed := false, applied := (b.set_.applied + 1) % 256 } }
  else b

/-- The commit of a shared set at the wraps of this grant cycle: vertical outputs wrap at slots 0 and 32 of the
one-grant pointer, every other instance at slot 0 (R344, R346). `vert` says whether the set has vertical outputs. -/
def takeBank (vert : Bool) (b : ArbBank) : ArbBank :=
  if b.set_.armed then
    let v := shadowTaken b.set_
    let b1 := if b.ptr = 0 && !b.tookH then
        { b with tookH := true, set_ := { b.set_ with eff := v }
                 insts := clearGuards (fun i => !(vert && instVertical i)) b.insts }
      else b
    let b2 := if !vert then { b1 with tookV := b1.tookH, effV := if b1.tookH then v else b1.effV }
      else if b1.ptr % 32 = 0 && !b1.tookV then
        { b1 with tookV := true, effV := v, insts := clearGuards instVertical b1.insts }
      else b1
    bankDone b2
  else b

/-- May requester q ask for router output port: no input asks for the output of its own direction, but the local one
(R334)? -/
def routerMayAsk (port q : Nat) : Bool := decide (port = 4) || !decide (q = port)

/-- The instances outside the list stand idle for a cycle: nothing is asked of them, so no park holds (R337). -/
def idleInsts (busy : List Nat) (m : SMap ArbInst) : SMap ArbInst :=
  smMap ArbInst.reset (fun i a => if busy.contains i then a else { a with reqs := [], last := none }) m

/-- One grant cycle of an arbiter that has a set of its own: the set, the instance and the grant. -/
def singleCycle (n : Nat) (raise : List Nat) (s0 : ArbSet) (a0 : ArbInst) : ArbSet × ArbInst × Option Nat :=
  let t := takeSingle s0 a0
  let r := arbCycle t.1.eff n t.2.ptr false (fun _ => true) t.2 raise
  (t.1, arbAdvance r.1, r.2)

/-! ### The register sets (Table 10.5) -/

/-- A shadow write to the register at offset o of a set; the 64-bit value replaces its writable fields. -/
def setWrite (s : ArbSet) (o v : Nat) : ArbSet :=
  if o < 0x20 then
    { s with shadow := { s.shadow with tt := setField s.shadow.tt (64 * (o / 8)) 64 v } }
  else if o = 0x20 then { s with shadow := { s.shadow with rank := BitVec.ofNat 27 v } }
  else if o = 0x28 then { s with shadow := { s.shadow with guard_ := BitVec.ofNat 7 v } }
  else if o = 0x30 then (if v % 2 = 1 then armCommit s else s)
  else s

/-- The value a read of offset o of a set gives: the values in effect (R343). -/
def setRead (s : ArbSet) (ptr o : Nat) : Nat :=
  if o < 0x20 then getField s.eff.tt (64 * (o / 8)) 64
  else if o = 0x20 then s.eff.rank.toNat
  else if o = 0x28 then s.eff.guard_.toNat
  else if o = 0x38 then s.armed.toNat * 2 ^ 31 + s.applied * 2 ^ 16 + ptr
  else 0

/-! ### The slab ports (Table 4.1) -/

/-- One core cycle passes: the model's own count, and the step's count while the core runs or drains (CORE.STEP_CC). -/
def tickCc (c : Core) : Core := { c with cc := c.cc + 1, stepCc := if mayStart c then (c.stepCc + 1) % 2 ^ 48 else c.stepCc }

/-- One grant cycle of a core's slab read port, requesters 0 to 5. A due fettling request is raised by itself; where no
other requester holds or raises a request, fettling is granted at once (R136, R137). -/
def readPortCycle (wants : List Nat) (c0 : Core) : Core × Option Nat :=
  let c := tickCc c0
  let asks := wants ++ (if c.slab.due then [5] else [])
  let t := takeSingle c.arbRd (keepAsking asks c.rd)
  if wants.isEmpty then
    ({ c with arbRd := t.1, rd := arbAdvance { t.2 with gsg := guardCount t.1.eff t.2.gsg, reqs := [], last := some 5 } }, some 5)
  else
    let r := arbCycle t.1.eff 6 t.2.ptr false (fun _ => true) t.2 asks
    ({ c with arbRd := t.1, rd := arbAdvance r.1 }, r.2)

/-- One grant cycle of a core's slab write port, requesters 0 to 4; a waiting fettling write-back raises requester 4 by
itself (R139). -/
def writePortCycle (wants : List Nat) (c : Core) : Core × Option Nat :=
  let asks := wants ++ (if c.slab.wb.isEmpty then [] else [4])
  let r := singleCycle 5 asks c.arbWr (keepAsking asks c.wr)
  ({ c with arbWr := r.1, wr := r.2.1 }, r.2.2)

/-! ### The Holco defaults (Table 10.2) -/

/-- A timetable from the owner of each slot; 15 is FREE. -/
def ttOf (f : Nat → Nat) : BitVec 256 := BitVec.ofNat 256 ((List.range 64).foldl (fun n p => n + f p % 16 * 2 ^ (4 * p)) 0)

/-- Ranks of requesters 0, 1, ... -/
def rankOf (l : List Nat) : BitVec 27 := BitVec.ofNat 27 (l.zipIdx.foldl (fun n r => n + r.1 % 8 * 2 ^ (3 * r.2)) 0)

/-- Values with the default N = 16. -/
def valsOf (f : Nat → Nat) (ranks : List Nat) : ArbVals := { tt := ttOf f, rank := rankOf ranks, guard_ := 0x10#7 }

/-- The defaults of the router, slab read, slab write, channel and trunk sets. -/
def routerDefault : ArbVals := valsOf (fun p => if p < 60 then p % 5 else 15) [4, 4, 4, 4, 3]
def rdDefault : ArbVals :=
  valsOf (fun p => if p < 40 then 0 else if p < 48 then 1 else if p < 56 then 2 else if p < 60 then 3 else 4) [3, 4, 2, 5, 5, 0]
def wrDefault : ArbVals := valsOf (fun p => if p < 24 then 0 else if p < 36 then 1 else if p < 52 then 2 else 3) [5, 5, 3, 3, 0]
def hbmDefault : ArbVals := valsOf (fun p => if p < 56 then p % 8 else if p < 60 then 8 else 15) [3, 3, 3, 3, 3, 3, 3, 3, 6]
def trunkDefault : ArbVals := valsOf (fun _ => 15) [3, 3, 3, 3, 3, 3, 3, 3]

/-- A set into which the signal box has written and committed values, and which has taken them (R344). -/
def commitVals (a : ArbSet) (v : ArbVals) : ArbSet := { eff := v, shadow := v, armed := false, applied := (a.applied + 1) % 256 }

/-- The shadow of a set's register at offset o, 0 for one without a shadow (R15, R344). -/
def setShadow (s : ArbSet) (o : Nat) : Nat := if o < 0x30 then setRead { s with eff := s.shadow } 0 o else 0

/-- A core whose slab arbiters hold the defaults; the wrap that took them set grants_since_guard to 0 (R344, R349, R350). -/
def slabDefaults (c : Core) : Core :=
  { c with
    arbRd := commitVals c.arbRd rdDefault, arbWr := commitVals c.arbWr wrDefault
    rd := { c.rd with gsg := 0 }, wr := { c.wr with gsg := 0 } }

/-- A shared set that holds the defaults, every instance's count at 0 (R344, R346, R350). -/
def bankDefaults (b : ArbBank) (v : ArbVals) : ArbBank :=
  { b with set_ := commitVals b.set_ v, effV := v, tookH := false, tookV := false, insts := clearGuards (fun _ => true) b.insts }

end Sys2Proof.Machine
end

