-- ==== Sys2Proof/Machine/Trunk.lean ====
section
/-!
DEFINITION. Sys2Proof/Machine/Trunk.lean: a trunk port on its own: lanes and training, the link layer, and messages
(R496 to R513, R524, R594, R595).
-/

namespace Sys2Proof.Machine

/-! ### Messages (R508) -/

/-- A trunk message: the header of Table 17.5, its INLINE bytes, its data bytes, and the data words that are crazed. -/
structure TMsg where
  typ : Nat
  kind : Nat
  srcRank : Nat
  dstRank : Nat
  jkey : Nat
  id : Nat
  addr : Nat
  arg : Nat
  inl : List Byte
  data : List Byte
  craz : List Nat
deriving DecidableEq, Repr

/-- A message with nothing set. -/
def TMsg.blank : TMsg :=
  { typ := 0, kind := 0, srcRank := 0xFF, dstRank := 0xFF, jkey := 0, id := 0, addr := 0, arg := 0, inl := [], data := [], craz := [] }

/-- The virtual channel of a message type (Table 17.4). A COLLECT travels on VC 7 in ordered mode and 6 in fast mode, by
`fast`. -/
def msgVc (m : TMsg) (fast : Bool) : Nat :=
  match m.typ with
  | 5 | 6 => 1
  | 10 => 2
  | 8 => if m.kind = 0 then 3 else 4
  | 7 => 5
  | 9 => if fast then 6 else 7
  | _ => 0

/-- l cut or filled with zeros to n bytes. -/
def padTo (n : Nat) (l : List Byte) : List Byte := l.take n ++ List.replicate (n - l.length) 0#8

/-- The 240 payload bytes of a FIRST flit (Table 17.5). -/
def firstPayload (m : TMsg) : List Byte :=
  bytesLE 1 m.typ ++ bytesLE 1 m.kind ++ bytesLE 1 m.srcRank ++ bytesLE 1 m.dstRank ++ bytesLE 4 m.jkey ++ bytesLE 8 m.id ++
  bytesLE 8 m.addr ++ bytesLE 4 m.data.length ++ bytesLE 4 m.arg ++ List.replicate 16 0#8 ++ padTo 192 m.inl

/-- A flit without its sequence number: VC, FIRST, LAST, BYTES, VOID and payload (Table 17.3). -/
structure TFlit where
  vc : Nat
  first : Bool
  last : Bool
  bytes : Nat
  lost : Bool
  payload : List Byte
deriving DecidableEq, Repr

/-- The crazing bytes of the data words from word w on: bit i marks word w + i (R508). -/
def crazBytes (craz : List Nat) (w : Nat) : List Byte :=
  bytesLE 7 ((List.range 56).foldl (fun n i => if craz.contains (w + i) then n + 2 ^ i else n) 0)

/-- The data flits of a message from byte `off` on (R508). -/
def dataFlits (vc : Nat) (craz : List Nat) : Nat → Nat → List Byte → List TFlit
  | 0, _, _ => []
  | fuel + 1, off, l =>
    if l.isEmpty then []
    else
      let d := l.take 224
      { vc := vc, first := false, last := decide (l.length ≤ 224), bytes := d.length + 16, lost := false,
        payload := padTo 240 (d ++ crazBytes craz (off / 4)) } :: dataFlits vc craz fuel (off + 224) (l.drop 224)

/-- The flits of a message (R508). -/
def msgFlits (m : TMsg) (fast : Bool) : List TFlit :=
  let vc := msgVc m fast
  { vc := vc, first := true, last := m.data.isEmpty, bytes := 240, lost := false, payload := firstPayload m } ::
  dataFlits vc m.craz (m.data.length + 1) 0 m.data

/-- A message under reassembly on a VC. -/
structure Partial where
  msg : TMsg
  total : Nat
  lost : Bool
deriving DecidableEq, Repr

/-- The n-byte little-endian field at offset off. -/
def byteField (l : List Byte) (off n : Nat) : Nat := ofBytesLE ((l.drop off).take n)

/-- The message that a FIRST payload begins, and its data length. -/
def parseFirst (p : List Byte) : TMsg × Nat :=
  ({ typ := byteField p 0 1, kind := byteField p 1 1, srcRank := byteField p 2 1, dstRank := byteField p 3 1,
     jkey := byteField p 4 4, id := byteField p 8 8, addr := byteField p 0x10 8, arg := byteField p 0x1C 4,
     inl := (p.drop 0x30).take 192, data := [], craz := [] }, byteField p 0x18 4)

/-- A data flit joins its message; every word of a VOID flit is crazed (R505, R508). -/
def joinData (x : Partial) (f : TFlit) : Partial :=
  let n := if f.bytes ≥ 16 then min 224 (f.bytes - 16) else 0
  let w0 := x.msg.data.length / 4
  let bits := byteField f.payload n 7
  let cz := (List.range (n / 4)).filter fun i => f.lost || decide (bits / 2 ^ i % 2 = 1)
  { x with msg := { x.msg with data := x.msg.data ++ f.payload.take n, craz := x.msg.craz ++ cz.map (w0 + ·) } }

/-! ### A port -/

/-- A neighbour's last identity record (Table 17.7). -/
structure Neigh where
  moduleId : List Byte
  port : Nat
  grade : Nat
  width : Nat
  dist : Nat
  image : Nat
  masterId : List Byte
deriving DecidableEq, Repr

/-- A flit that waits for its acknowledgement. -/
structure ReplayEnt where
  seq : Nat
  flit : TFlit
deriving DecidableEq, Repr

/-- The transmit side of the lanes: FRAME, the payloads sent in the frame, and the bits that wait on each logical lane (R497). -/
structure LaneTx where
  frame : Nat
  cw : Nat
  bits : List (List Bool)
deriving DecidableEq, Repr

/-- The lanes as ALIGN starts them: FRAME 0. DESIGN CHOICE (assumption 78). -/
def LaneTx.reset : LaneTx := { frame := 0, cw := 0, bits := [] }

/-- A trunk port. Training: `st` 0 to 7 (Table 17.2), `lanesOk` the lanes that passed ADAPT, `presets` the transmit preset of each lane that PRESET found, `map` the physical lane of
each logical lane; `waiting` says that the retry wait has not yet passed, `heard` that a DISCOVER has been received since IDENTIFY began. Link layer: queues, credits, received and freed counts are keyed by VC; an unlisted credit is 256. -/
structure TPort where
  st : Nat
  retraining : Bool
  quarantined : Bool
  width : Nat
  spareUsed : Bool
  parent : Bool
  rttNs : Nat
  width4 : Bool
  disable : Bool
  ctrlRetrain : Bool
  lanesFailed : BitVec 9
  lanesOk : BitVec 9
  presets : List Nat
  map : List Nat
  spare : Option Nat
  swap : Option (Nat × Nat)
  fecCorr : Nat
  fecUnc : Nat
  replays : Nat
  crcFail : Nat
  drops : Nat
  retrains : Nat
  swaps : Nat
  degrades : Nat
  leaves : Nat
  neigh : Option Neigh
  heard : Bool
  present : Bool
  rawPresent : Bool
  backoffMs : Nat
  waiting : Bool
  changes : Nat
  quarantines : Nat
  trainFails : Nat
  recent : List Nat
  activeSince : Nat
  txq : SMap (List TFlit)
  credits : SMap Nat
  lastCcnt : SMap Nat
  freed : SMap Nat
  cvc : Nat
  txSeq : Nat
  rxSeq : Nat
  replay : List ReplayEnt
  replayed : Bool
  fails : Nat
  unacked : Nat
  parts : SMap (Option Partial)
  inbox : List TMsg
  hbCount : Nat
  arb : ArbSet
  arbInst : ArbInst
  tx : LaneTx
deriving DecidableEq, Repr

/-- A port after reset (R524, R600). -/
def TPort.reset : TPort :=
  { st := 0, retraining := false, quarantined := false, width := 0, spareUsed := false, parent := false, rttNs := 0,
    width4 := false, disable := false, ctrlRetrain := false, lanesFailed := 0#9, lanesOk := 0#9, presets := [], map := [], spare := none,
    swap := none, fecCorr := 0, fecUnc := 0, replays := 0, crcFail := 0, drops := 0, retrains := 0, swaps := 0, degrades := 0,
    leaves := 0, neigh := none, heard := false, present := false, rawPresent := false, backoffMs := 0,
    waiting := false, changes := 0,
    quarantines := 0, trainFails := 0, recent := [], activeSince := 0, txq := [], credits := [], lastCcnt := [], freed := [],
    cvc := 0, txSeq := 0, rxSeq := 0, replay := [], replayed := false, fails := 0, unacked := 0, parts := [], inbox := [],
    hbCount := 0, arb := ArbSet.reset, arbInst := ArbInst.reset, tx := LaneTx.reset }

/-- The link-layer state empty (R503). -/
def clearLink (t : TPort) : TPort :=
  { t with
    txq := [], credits := [], lastCcnt := [], freed := [], cvc := 0, txSeq := 0, rxSeq := 0, replay := [], replayed := false,
    fails := 0, unacked := 0, parts := [], inbox := [] }

/-! ### Sending -/

/-- A message joins the transmit queue of its VC. -/
def queueMsg (t : TPort) (m : TMsg) (fast : Bool) : TPort :=
  { t with txq := smMod [] t.txq (msgVc m fast) fun q => q ++ msgFlits m fast }

/-- The header of Table 17.3 as a number. -/
def flitHeader (t : TPort) (idle nak : Bool) (f : TFlit) (seq : Nat) : Nat :=
  idle.toNat * 2 ^ 63 + f.vc % 8 * 2 ^ 60 + f.first.toNat * 2 ^ 59 + f.last.toNat * 2 ^ 58 + seq % 1024 * 2 ^ 48 +
  (t.rxSeq + 1023) % 1024 * 2 ^ 38 + nak.toNat * 2 ^ 37 + t.cvc * 2 ^ 34 + smGet 0 t.freed t.cvc % 64 * 2 ^ 28 +
  f.bytes % 256 * 2 ^ 20 + f.lost.toNat * 2 ^ 19

/-- The 256 bytes of a flit: header, payload, CRC, most significant byte first (R504, assumption 19). -/
def flitBytes (hdr : Nat) (payload : List Byte) : List Byte :=
  let b := bytesBE 8 hdr ++ padTo 240 payload
  b ++ bytesBE 8 (crc64 b).toNat

/-- The empty flit of an idle slot. -/
def idleFlit : TFlit := { vc := 0, first := false, last := false, bytes := 0, lost := false, payload := [] }

/-- An IDLE flit, which carries acknowledgements, NAK and credits (R504, R505). -/
def sendIdle (t : TPort) (nak : Bool) : TPort × List Byte :=
  ({ t with cvc := (t.cvc + 1) % 8, unacked := 0 }, flitBytes (flitHeader t true nak idleFlit 0) [])

/-- May VC v send: its queue holds a flit and it has a credit (R506)? -/
def canSend (t : TPort) (v : Nat) : Bool :=
  !(smGet [] t.txq v).isEmpty && decide (smGet 256 t.credits v > 0) && decide (t.replay.length < 256) && decide (t.st = 7 ∨ t.st = 6)

/-- The granted VC sends its next flit: it spends a credit and waits in the replay buffer (R505, R506). -/
def sendFlit (t : TPort) (v : Nat) : TPort × List (List Byte) :=
  match smGet [] t.txq v with
  | f :: rest =>
    if canSend t v then
      ({ t with
          txq := smSet [] t.txq v rest
          credits := smSet 256 t.credits v (smGet 256 t.credits v - 1)
          replay := t.replay ++ [{ seq := t.txSeq, flit := f }]
          txSeq := (t.txSeq + 1) % 1024
          cvc := (t.cvc + 1) % 8
          unacked := 0 }, [flitBytes (flitHeader t false false f t.txSeq) f.payload])
    else (t, [])
  | [] => (t, [])

/-- Every flit of the replay buffer again (R505). -/
def replayAll (t : TPort) : TPort × List (List Byte) :=
  ({ t with replays := sat32 t.replays 1, replayed := true, unacked := 0 },
    t.replay.map fun e => flitBytes (flitHeader t false false e.flit e.seq) e.flit.payload)

/-- A retraining starts: from ADAPT, with the link-layer state kept (R502, R503). -/
def startTrunkRetrain (t : TPort) (ctrl : Bool) : TPort :=
  if t.st = 7 then
    { t with
      st := 3, retraining := true, ctrlRetrain := ctrl, retrains := sat16 t.retrains 1, lanesFailed := 0#9, spareUsed := false,
      swap := none }
  else t

/-- A NAK or a timeout of the oldest unacknowledged flit: a replay, or after the 8th failed one a VOID flit in its
place and a retraining (R505). -/
def replayEvent (t : TPort) : TPort × List (List Byte) :=
  match t.replay with
  | [] => (t, [])
  | e :: rest =>
    let n := if t.replayed then t.fails + 1 else 0
    if n ≥ 8 then
      let e' : ReplayEnt := { e with flit := { e.flit with lost := true, payload := [] } }
      (startTrunkRetrain { t with replay := e' :: rest, drops := sat16 t.drops 1, fails := 0, replayed := false } false, [])
    else replayAll { t with fails := n }

/-- The acknowledgement of every flit up to sequence number a. -/
def takeAck (t : TPort) (a : Nat) : TPort :=
  match t.replay with
  | [] => t
  | e :: _ =>
    let n := (a + 1 + 1024 - e.seq) % 1024
    if n ≥ 1 ∧ n ≤ t.replay.length then { t with replay := t.replay.drop n, fails := 0, replayed := false } else t

/-! ### Receiving -/

/-- Do the type and its kind exist (Table 17.6)? -/
def msgKnown (m : TMsg) : Bool :=
  match m.typ with
  | 1 | 2 | 10 => decide (m.kind = 0)
  | 3 | 7 | 8 | 9 => decide (m.kind ≤ 1)
  | 5 => decide (m.kind ≤ 2)
  | 4 | 6 => decide (m.kind ≤ 3)
  | _ => false

/-- Is it a control message, which a lost flit makes void (R505)? -/
def msgControl (m : TMsg) : Bool := m.data.isEmpty || decide (m.typ < 7) || decide (m.typ = 10)

/-- A message is complete: it reaches the inbox, or is discarded and counted (R505, R508). -/
def finishMsg (t : TPort) (x : Partial) : TPort :=
  if !msgKnown x.msg || (x.lost && msgControl x.msg) then { t with drops := sat16 t.drops 1 }
  else { t with inbox := t.inbox ++ [x.msg], heard := t.heard || decide (x.msg.typ = 1) }

/-- An accepted flit: its message grows or is complete; its buffer is freed (R506, R508) (assumption 118). -/
def acceptTFlit (t : TPort) (f : TFlit) : TPort :=
  let t1 := { t with
      rxSeq := (t.rxSeq + 1) % 1024, unacked := t.unacked + 1, freed := smMod 0 t.freed f.vc fun n => (n + 1) % 64 }
  let put := fun (t : TPort) (x : Option Partial) => { t with parts := smSet none t.parts f.vc x }
  if f.first then
    let p := parseFirst f.payload
    let x : Partial := { msg := if f.lost then TMsg.blank else p.1, total := p.2, lost := f.lost }
    if f.last then finishMsg (put t1 none) x else put t1 (some x)
  else
    match smGet none t1.parts f.vc with
    | some x =>
      let y := joinData { x with lost := x.lost || (f.lost && msgControl x.msg) } f
      if f.last then finishMsg (put t1 none) y else put t1 (some y)
    | none => t1

/-- The fields of a received flit's header. -/
def parseTFlit (hdr : Nat) (b : List Byte) : TFlit :=
  { vc := hdr / 2 ^ 60 % 8, first := decide (hdr / 2 ^ 59 % 2 = 1), last := decide (hdr / 2 ^ 58 % 2 = 1),
    bytes := hdr / 2 ^ 20 % 256, lost := decide (hdr / 2 ^ 19 % 2 = 1), payload := (b.drop 8).take 240 }

/-- Credits that a flit reports (R506). -/
def takeCredit (t : TPort) (hdr : Nat) : TPort :=
  let v := hdr / 2 ^ 34 % 8
  let n := hdr / 2 ^ 28 % 64
  let d := (n + 64 - smGet 0 t.lastCcnt v) % 64
  { t with credits := smSet 256 t.credits v (smGet 256 t.credits v + d), lastCcnt := smSet 0 t.lastCcnt v n }

/-- A flit arrives at the port: CRC, credits, acknowledgement, NAK, sequence (R504 to R506). The second part is what the
port sends in answer. -/
def receiveTFlit (t : TPort) (b : List Byte) : TPort × List (List Byte) :=
  let body := b.take 248
  if b.length ≠ 256 ∨ (crc64 body).toNat ≠ ofBytesBE (b.drop 248) then
    let r := sendIdle { t with crcFail := sat16 t.crcFail 1 } true
    (r.1, [r.2])
  else
    let hdr := ofBytesBE (b.take 8)
    let t1 := takeAck (takeCredit t hdr) (hdr / 2 ^ 38 % 1024)
    let r1 := if hdr / 2 ^ 37 % 2 = 1 then replayEvent t1 else (t1, [])
    if hdr / 2 ^ 63 % 2 = 1 then r1
    else if hdr / 2 ^ 48 % 1024 ≠ r1.1.rxSeq then
      let r2 := sendIdle r1.1 true
      (r2.1, r1.2 ++ [r2.2])
    else
      let t2 := acceptTFlit r1.1 (parseTFlit hdr b)
      if t2.unacked ≥ 16 then
        let r3 := sendIdle t2 false
        (r3.1, r1.2 ++ [r3.2])
      else (t2, r1.2)

/-! ### Lanes and training -/

/-- The lanes of a mask, lowest first. -/
def laneList (m : BitVec 9) : List Nat := (List.range 9).filter fun i => m.getLsbD i

/-- The mask of the lanes that carry a logical lane. -/
def lanesInUse (t : TPort) : BitVec 9 := t.map.foldl (fun m i => setField m i 1 1) 0#9

/-- The width ALIGN chooses: 8 with at least 8 lanes and no WIDTH4, 4 with 4 to 7 or WIDTH4, none below 4 (R500). A
retraining comes back to width 8 only when CTRL.RETRAIN started it (R502). -/
def alignWidth (t : TPort) : Option Nat :=
  let n := (laneList t.lanesOk).length
  if n < 4 then none
  else if n ≥ 8 ∧ !t.width4 ∧ (!t.retraining ∨ t.width = 8 ∨ t.width = 0 ∨ t.ctrlRetrain) then some 8 else some 4

/-- ALIGN ends: the logical lanes take the lowest lanes that passed, the next one is the spare (R500, R502). -/
def alignPort (t : TPort) (w : Nat) : TPort :=
  let ls := laneList t.lanesOk
  { t with
    st := 5, tx := LaneTx.reset, width := w, map := ls.take w, spare := (ls.drop w).head?, spareUsed := false
    degrades := if t.retraining && decide (w = 4) && decide ((laneList t.lanesOk).length < 8) then sat16 t.degrades 1 else t.degrades }

/-- Is the port ACTIVE, or in a retraining that started there? -/
def portUp (t : TPort) : Bool := decide (t.st = 7) || t.retraining

/-- A training state fails, or the port is lost from ACTIVE: back to DETECT, the retry wait doubling from 10 ms to 1 s; it returns to
10 ms once the port has been ACTIVE for 10 s (R499, R595). -/
def failTraining (t : TPort) (now : Nat) : TPort :=
  let keep := portUp t && decide (now ≥ t.activeSince + 4000000000)
  { t with
    st := 1, retraining := false, ctrlRetrain := false, width := 0, map := [], spare := none, swap := none, spareUsed := false
    trainFails := sat16 t.trainFails 1
    waiting := true
    backoffMs := if keep ∨ t.backoffMs = 0 then 10 else min 1000 (2 * t.backoffMs)
    recent := now :: t.recent }

/-- More than 10 events within 1 s: the port is quarantined (R595). -/
def checkQuarantine (t : TPort) (now : Nat) : TPort :=
  let r := t.recent.filter fun x => decide (now < x + 400000000)
  if r.length > 10 then
    { clearLink t with st := 0, quarantined := true, quarantines := sat16 t.quarantines 1, recent := [], backoffMs := 0, waiting := false }
  else { t with recent := r }

/-- The port's training fails, or its link is lost: DETECT after its retry wait, or quarantine; the link-layer state is empty
(R499, R503, R595). -/
def lostPort (now : Nat) (t : TPort) : TPort := checkQuarantine (clearLink (failTraining t now)) now

/-- Does the port leave its training state, and to which: `lanes` is what it measures there, `rtt` the round trip and
`peerSeq` the last sequence number the partner received in order (R499, R500, R503). `up` says that training may
start: READY, presence, no DISABLE, no quarantine; `presets` are those that the partner's receivers chose in PRESET, which a retraining
keeps (R499, R502). -/
def trainAdvance (t : TPort) (up : Bool) (lanes : BitVec 9) (presets : List Nat) (rtt peerSeq now : Nat) :
    TPort × List (List Byte) :=
  match t.st with
  | 0 => (if up then { t with st := 1, lanesFailed := 0#9 } else t, [])
  | 1 => (if (laneList lanes).length ≥ 4 ∧ !t.waiting then { t with st := 2 } else t, [])
  | 2 => ({ t with st := 3, presets := (presets.take 9).map (· % 16) }, [])
  | 3 => ({ t with st := 4, lanesOk := lanes, lanesFailed := ~~~lanes }, [])
  | 4 =>
    match alignWidth t with
    | some w => (alignPort t w, [])
    | none => (lostPort now t, [])
  | 5 =>
    let t1 := { t with st := 6, heard := false, rttNs := min rtt 0xFFFF }
    if t.retraining then
      let r := replayAll (takeAck t1 peerSeq)
      if (takeAck t1 peerSeq).replay.isEmpty then (takeAck t1 peerSeq, []) else r
    else (clearLink t1, [])
  | 6 =>
    (if t.heard then { t with st := 7, retraining := false, ctrlRetrain := false, activeSince := if t.retraining then t.activeSince else now } else t, [])
  | _ => (t, [])

/-- A logical lane fails in use, or with none named more than 64 codewords of the port: the spare is named for a swap 16 frames
ahead, or the port retrains (R501, R502). -/
def laneFail (t : TPort) (lane : Option Nat) : TPort :=
  match lane, t.swap, t.spare with
  | some l, none, some _ => { t with swap := some (l, (t.tx.frame + 16) % 2 ^ 32) }
  | some l, some m, _ => if m.1 = l then t else startTrunkRetrain t false
  | _, _, _ => startTrunkRetrain t false

/-- The named frame starts: the logical lane moves to the spare (R501). -/
def swapLane (t : TPort) : TPort :=
  match t.swap, t.spare with
  | some (lane, _), some p =>
    let old := t.map.getD lane 0
    { t with
      map := listMod (fun _ => p) t.map lane, spare := none, swap := none, spareUsed := true, swaps := sat16 t.swaps 1
      lanesFailed := setField t.lanesFailed old 1 1 }
  | _, _ => t

/-- The partner's receiver has named a logical lane to move to the spare, where none is named here (R501). -/
def peerSwap (peer : Option Nat) (t : TPort) : TPort :=
  match peer, t.swap with
  | some l, none => if t.st = 7 ∧ l < t.map.length ∧ t.spare.isSome then { t with swap := some (l, t.tx.frame) } else t
  | _, _ => t

/-- The port goes to DISABLED (R499, R594). -/
def portDisabled (t : TPort) : TPort :=
  { clearLink t with st := 0, width := 0, map := [], spare := none, swap := none, retraining := false, ctrlRetrain := false }

/-- Debounced presence changes (R594, R595). -/
def presenceChange (t : TPort) (present : Bool) (now : Nat) : TPort :=
  if present = t.present then t
  else
    let t1 := { t with present := present, changes := sat16 t.changes 1, recent := now :: t.recent }
    checkQuarantine (if present then t1 else portDisabled t1) now

/-- The identity record of Table 17.7. -/
def identityBytes (id : List Byte) (port grade width dist image : Nat) (master : List Byte) : List Byte :=
  padTo 16 id ++ bytesLE 1 port ++ bytesLE 1 grade ++ bytesLE 1 width ++ bytesLE 1 dist ++ bytesLE 4 image ++ padTo 16 master ++
  List.replicate 24 0#8

/-- The record of a DISCOVER. -/
def parseNeigh (b : List Byte) : Neigh :=
  { moduleId := b.take 16, port := byteField b 16 1, grade := byteField b 17 1, width := byteField b 18 1,
    dist := byteField b 19 1, image := byteField b 20 4, masterId := (b.drop 24).take 16 }

/-- Compare module ids as numbers, byte 0 most significant. -/
def idNat (b : List Byte) : Nat := ofBytesBE b

end Sys2Proof.Machine
end

