-- ==== Sys2Proof/Machine/Jobs.lean ====
section
/-!
DEFINITION. Sys2Proof/Machine/Jobs.lean: what the signal box keeps of a job: its package, placement, requests, selection,
stop, saves, checkpoint, recovery, tree and lock-step pair; and the pure rules over them (R280 to R286, R453 to R465, R514,
R530 to R547, R555 to R570).
-/

namespace Sys2Proof.Machine

/-- A request: an accepted SUBMIT that passed its checks (R460, R461). `acc` is its place in acceptance order, `rank` the
module that accepted it; `orphan` marks a selected request whose ticket is no longer outstanding here (R539). -/
structure Req where
  acc : Nat
  ticket : Nat
  queue : Nat
  port : Nat
  ring : Nat
  dims : List Nat
  outAddr : Nat
  outLen : Nat
  haddr : Nat
  len : Nat
  tag : Nat
  tick : Nat
  rank : Nat
  row0 : Nat
  inFailed : Bool
  inDigest : List Byte
  orphan : Bool
deriving DecidableEq, Repr

/-- A session-queue entry that has its ticket and is not yet checked, with its queue's port, ring and job (R447, R449). -/
structure SubEnt where
  acc : Nat
  ticket : Nat
  queue : Nat
  port : Nat
  ring : Nat
  job : Nat
  tick : Nat
  desc : List Byte
deriving DecidableEq, Repr

/-- An accepted control command (R451): its origin is 14 or 15 for a host port's control queue, 2 to 13 for a trunk
port, whose message data, ID and JKEY it carries with this module's rank. -/
structure CtlCmd where
  ticket : Nat
  origin : Nat
  cq : Nat
  ring : Nat
  desc : List Byte
  failed : Bool
  data : List Byte
  srcId : Nat
  jkey : Nat
  rank : Nat
deriving DecidableEq, Repr

/-- A command that waits for members of a job to answer (R516): the ranks still to come, the failures so far, the tick it
began, and the completion it owes. -/
structure MultiWait where
  op : Nat
  cmd : CtlCmd
  ranks : List Nat
  fails : List (Nat × Nat)
  since : Nat
  result : Nat
  backstamp : List Byte
deriving DecidableEq, Repr

/-- A SAVE that waits for its stop (R455). -/
structure SaveReq where
  cmd : CtlCmd
  stop : Nat
  halt : Bool
deriving DecidableEq, Repr

/-- What a save keeps of one core, as Table 18.4 lays it out: slab words as decoded, both banks, and the state block. -/
structure SavedCore where
  slab : SMap SlabWord
  imemA : SMap W64
  imemB : SMap W64
  bankB : Bool
  icount : Nat
  stopCount : Nat
  resume : Nat
  loops : List HwLoop
  aregs : SMap AReg
  slots : SMap Slot
  credits : List (Nat × Nat)
  steps : Nat
  off : BitVec 36
deriving DecidableEq, Repr

/-- A checkpoint (R535): the STOP, STEPS and TICK of the save, its stop's ordinal in the step, the command's buffer and port. -/
structure Ckpt where
  stop : Nat
  ordinal : Nat
  steps : Nat
  tick : Nat
  haddr : Nat
  len : Nat
  port : Nat
deriving DecidableEq, Repr

/-- A device save (R536): the checkpoint fields, the selection, the cores' records, and the pages that hold it. -/
structure DevSave where
  stop : Nat
  steps : Nat
  tick : Nat
  bucket : Option Nat
  ordinal : Nat
  sel : List (Nat × Nat × Nat)
  cores : List SavedCore
  pages : List Nat
  valid : Bool
deriving DecidableEq, Repr

/-- An exchange entry (Table 17.8). -/
structure ExEnt where
  op : Nat
  mode : Nat
  buckets : Nat
  stop : Nat
  src : Nat
  dst : Nat
  bytes : Nat
  from_ : Nat
  to_ : Nat
deriving DecidableEq, Repr

/-- The stop a job stands at (R190): its count, its ordinal in the step, whether it ends the step, the exchange entry that runs
next and whether the one before it is still incomplete here, whether outputs have been returned, and whether every member has
arrived and RELEASE has been sent or received (R520, R522). -/
structure AtStop where
  k : Nat
  ordinal : Nat
  final : Bool
  exNext : Nat
  exBusy : Bool
  outDone : Bool
  released : Bool
deriving DecidableEq, Repr

/-- A COLLECT in progress: the partial so far with its crazed words, and the children that have been added (R523). -/
structure Collect where
  entry : Nat
  acc : List W32
  craz : List Nat
  kids : List Nat
deriving DecidableEq, Repr

/-- A lock-step pair's state (R542 to R547): the partner's port, whether this module is the primary, the step digest, own digests
by (step, stop) still to compare, the partner's by step, the stop records of the last 8 stops, and the (step, stop) at which the
two digests differed. -/
structure Pair where
  port : Nat
  primary : Bool
  digest : List Byte
  mine : List (Nat × Nat × List Byte)
  theirs : List (Nat × List Byte)
  records : List (Nat × List Byte)
  bad : Option (Nat × Nat)
deriving DecidableEq, Repr

/-- What a recovery answers: fault code, vcid and instruction count, all 0 where no core fault brought it (R555, R558); for a core fault
that starts a recovery the faulting site, the dump slot and the SEQ of its log entry (R575); and whether the job's tree already
knows of it (R560). -/
structure Cause where
  code : Nat
  vcid : Nat
  icount : Nat
  site : Option Nat
  seq : Nat
  dump : Option Nat
  told : Bool
deriving DecidableEq, Repr

/-- A job. `st` follows SIGNAL.JOB_REC_j: 1 running, 2 recovering, 3 RESUME_WAIT, 4 reload wait, 5 replay, 6 quarantined, and 0 for
a job that has `ended`, which stays until its id is reused (R519). `bucket` and `sel` belong to the step in flight; `loading` says
that its inputs are still being brought in, `halted` that a SAVE with HALT has halted it, `haltOver` that 2^20 cc have passed since a
recovery halted it (R628), `awaitRows` the first rows of the requests whose input is not yet in the arena;
`early` the input rows that came before their step's DISPATCH, `arrived` the ranks that have reported a stop count (R520). -/
structure Job where
  id : Nat
  ended : Bool
  st : Nat
  auto : Bool
  suspect : Bool
  recoveries : Nat
  lastCode : Nat
  lastVcid : Nat
  lastIcount : Nat
  lastSame : Bool
  pkg : Package
  pkgDigest : List Byte
  wtDigest : List Byte
  stepWt : List Byte
  seed : W64
  gatherUs : Nat
  inRow : Nat
  outRow : Nat
  pages : Nat
  winPages : Nat
  winRect : Nat × Nat × Nat × Nat
  place : Option JobPlace
  oldPlace : Option JobPlace
  table : List PlaceEnt
  rank : Nat
  modules : Nat
  jkey : Nat
  members : List (List Byte)
  upPort : Option Nat
  downPorts : List (Nat × Nat)
  exch : List ExEnt
  steps : Nat
  stopCount : Nat
  bucket : Option Nat
  ordinal : Nat
  dispatched : Bool
  resumed : Bool
  loading : Bool
  awaitRows : List Nat
  early : List TMsg
  arrived : List (Nat × Nat)
  sel : List Req
  ready : List Req
  gatherDue : Bool
  atStop : Option AtStop
  saves : List SaveReq
  retire : List CtlCmd
  waits : List MultiWait
  ckpt : Option Ckpt
  devSave : Option DevSave
  shed : List Nat
  cause : Option Cause
  halted : Bool
  haltOver : Bool
  collect : Option Collect
  pair : Option Pair
  freqDiv : Nat
  freqDeferred : Bool
  limits : List (Nat × Nat)
  resetMark : Nat
  replayStop : Nat
  resuming : Option CtlCmd
  poisonSeen : Bool
deriving DecidableEq, Repr

/-! ### The yard -/

/-- A request's place in the ready list, by acceptance order (R461). -/
def insertReq (r : Req) : List Req → List Req
  | [] => [r]
  | x :: l => if r.acc < x.acc then r :: x :: l else x :: insertReq r l

/-- select_step: the selection, and whether the loop ended at a request that does not fit (R462, R463). `cached` says which
queues the yard sees. -/
def selectStep (p : Package) (cached : Req → Bool) : List Req → List Req → List Req × Bool
  | [], sel => (sel, false)
  | r :: l, sel =>
    if !cached r || sel.any (fun x => decide (x.queue = r.queue) && decide (x.rank = r.rank)) then selectStep p cached l sel
    else if (chooseBucket p (stepShape ((sel ++ [r]).map (·.dims)))).isNone then (sel, true)
    else selectStep p cached l (sel ++ [r])

/-- The selection with its first rows: D0 rows for each request in order (R285). -/
def layRows : Nat → List Req → List Req
  | _, [] => []
  | n, r :: l => { r with row0 := n } :: layRows (n + r.dims.getD 0 0) l

/-- The arena input of a step: the requests' rows in order, zeros for failed requests and padding rows (R285, R474); with
the byte offsets that failed. -/
def arenaInput (job : Job) (b : BucketEnt) (ins : List (Req × List Byte × List Nat)) : List Byte × List Nat :=
  let n := max b.inBytes (b.dims.getD 0 0 * job.inRow)
  let fill := fun (off : Nat) (l : List Byte) => l ++ List.replicate (off - l.length) 0#8
  let r := ins.foldl (fun (acc : List Byte × List Nat) x =>
    let off := x.1.row0 * job.inRow
    let want := x.1.dims.getD 0 0 * job.inRow
    if x.1.inFailed then (fill (off + want) acc.1, acc.2)
    else ((fill off acc.1) ++ (x.2.1 ++ List.replicate (want - x.2.1.length) 0#8).take want, acc.2 ++ x.2.2.map (off + ·))) ([], [])
  ((fill n r.1).take n, r.2)

/-- Bytes with each 4-byte word that holds a failed byte as all ones (R552). -/
def maskFailed (l : List Byte) (bad : List Nat) : List Byte :=
  l.zipIdx.map fun b => if bad.any fun i => decide (i / 4 = b.2 / 4) then 0xFF#8 else b.1

/-- The input digest of a request (Table 18.5). -/
def inputDigest (dims : List Nat) (l : List Byte) (bad : List Nat) : List Byte :=
  sha256 ((List.range 4).flatMap (fun i => bytesLE 4 (dims.getD i 0)) ++ maskFailed l bad)

/-- The backstamp of a DONE SUBMIT (Table 18.5). -/
def backstamp (job : Job) (inD out : List Byte) : List Byte :=
  sha256 (job.pkgDigest ++ job.stepWt ++ inD ++ sha256 out ++ bytesLE 8 job.seed.toNat ++ bytesLE 2 job.modules)

/-- The weight-set digest after a LOAD_WEIGHTS (R540). -/
def nextWtDigest (d : List Byte) (vaddr len flags : Nat) (bytes : List Byte) (bad : List Nat) : List Byte :=
  sha256 (d ++ bytesLE 8 vaddr ++ bytesLE 8 len ++ bytesLE 1 flags ++ sha256 (maskFailed bytes bad))

/-! ### Descriptors -/

/-- The n-byte field at offset off of a descriptor. -/
def dfield (d : List Byte) (off n : Nat) : Nat := fieldLE d off n

/-- Are bytes off to off + n - 1 zero? -/
def dzero (d : List Byte) (off n : Nat) : Bool := ((d.drop off).take n).all fun b => decide (b = 0#8)

/-- The common rules and the reserved fields of a control descriptor (R452, Table 15.3, Table 15.4). -/
def ctlDescOk (d : List Byte) : Bool :=
  let op := dfield d 0 1
  let fl := dfield d 1 1
  decide (d.length = 64) && dzero d 3 1 && dzero d 0x38 8 &&
  (if op = 1 then true else decide (dfield d 2 1 < 32)) &&
  match op with
  | 1 => decide (fl / 4 % 4 = 0) && decide (dfield d 0x20 4 ≤ 1000000) && decide (dfield d 0x24 4 % 16 = 0) &&
      decide (dfield d 0x28 4 % 16 = 0) && decide (dfield d 8 8 % 16 = 0) && decide (fl % 2 = 1 ∨ fl / 16 = 0) &&
      decide (dfield d 0x30 4 ≤ 131072)
  | 2 => decide (fl ≤ 1) && decide (dfield d 0x18 8 % 16 = 0) && dzero d 0x20 0x18 && decide (dfield d 4 4 % 16 = 0) &&
      decide (dfield d 8 8 % 16 = 0)
  | 3 => decide (fl ≤ 1) && dzero d 0x1C 0x1C && decide (dfield d 8 8 % 16 = 0)
  | 4 => decide (fl = 0) && dzero d 0x18 0x20 && decide (dfield d 8 8 % 16 = 0)
  | 5 => decide (fl = 0) && dzero d 0x18 0x20 && dzero d 4 4
  | 6 => decide (fl = 0) && decide (dfield d 0x18 1 ≤ 2) && dzero d 0x19 3 && dzero d 0x20 0x18 && decide (dfield d 8 8 % 16 = 0) &&
      (decide (dfield d 0x18 1 ≠ 1) || decide (dfield d 0x1C 4 < 32)) && (decide (dfield d 0x18 1 ≠ 2) || decide (dfield d 0x1C 4 < 2 ^ 20))
  | _ => false

/-- The common rules of a SUBMIT descriptor (R452). -/
def subDescOk (d : List Byte) : Bool :=
  decide (d.length = 64) && decide (dfield d 0 1 = 0x10) && decide (dfield d 1 1 = 0) && dzero d 3 1 && decide (dfield d 2 1 < 32) &&
  dzero d 0x34 4 && dzero d 0x38 8 && decide (dfield d 8 8 % 16 = 0) && decide (dfield d 0x28 8 % 16 = 0)

/-! ### Multi-module packages (R514) -/

/-- An exchange entry. -/
def parseEx (l : List Byte) (off : Nat) : ExEnt :=
  { op := fieldLE l off 1, mode := fieldLE l (off + 1) 1, buckets := fieldLE l (off + 2) 2, stop := fieldLE l (off + 4) 4,
    src := fieldLE l (off + 8) 8, dst := fieldLE l (off + 0x10) 8, bytes := fieldLE l (off + 0x18) 4,
    from_ := fieldLE l (off + 0x1C) 1, to_ := fieldLE l (off + 0x1D) 1 }

/-- Are two ranks tree neighbours (R515)? -/
def treeJoined (a b : Nat) : Bool := (decide (a ≥ 1) && decide ((a - 1) / 2 = b)) || (decide (b ≥ 1) && decide ((b - 1) / 2 = a))

/-- Does an exchange entry keep its limits (Table 17.8)? -/
def exOk (e : ExEnt) (m : Nat) (l : List Byte) (off : Nat) : Bool :=
  decide (1 ≤ e.op) && decide (e.op ≤ 3) && decide (e.bytes % 16 = 0) && decide (e.stop ≥ 1) && decide (e.from_ < m) &&
  decide (e.to_ < m) && decide (fieldLE l (off + 0x1E) 2 = 0) && (decide (e.op = 3) || decide (e.mode = 0)) && decide (e.mode ≤ 1) &&
  (decide (e.op ≠ 1) || treeJoined e.from_ e.to_)

/-- The buffer of a multi-module ADMIT_JOB: the package bytes, the members, the exchange table (R514). -/
structure MultiBuf where
  pkg : List Byte
  members : List (List Byte)
  exch : List ExEnt
  exBytes : List Byte
deriving DecidableEq, Repr

/-- Cut the buffer from its trailer backwards (R514). -/
def parseMulti (l : List Byte) : Option MultiBuf :=
  let n := l.length
  if n < 16 then none
  else
    let nex := fieldLE l (n - 16) 4
    let m := fieldLE l (n - 12) 2
    let tail := 16 + 32 * nex + 16 * m
    if !dzero l (n - 10) 10 ∨ tail > n then none
    else
      let o := n - tail
      let ex := o + 16 * m
      let es := (List.range nex).map fun i => parseEx l (ex + 32 * i)
      if (List.range nex).all (fun i => exOk (parseEx l (ex + 32 * i)) m l (ex + 32 * i)) then
        some { pkg := l.take o, members := (List.range m).map fun i => (l.drop (o + 16 * i)).take 16, exch := es,
               exBytes := l.drop ex }
      else none

/-- The package digest (R540). -/
def packageDigest (pkg ex : List Byte) : List Byte := sha256 (pkg ++ ex)

/-! ### Checks of an ADMIT_JOB (R148, R180, R453) -/

/-- ceil(a / b). -/
def ceilDiv (a b : Nat) : Nat := if b = 0 then 0 else (a + b - 1) / b

/-- The bucket with the largest DIM[0] keeps within the arena, and the arena within the pages (R453). -/
def admitSizes (p : Package) (inRow outRow pages : Nat) : Bool :=
  (p.buckets.all fun b => decide (b.dims.getD 0 0 * inRow ≤ p.inMax) && decide (b.dims.getD 0 0 * outRow ≤ p.outMax)) &&
  decide (p.arenaVa + p.inMax + p.outMax ≤ pages * 0x400000)

/-- The pooled window of a compatibility package fits the slabs and the grid (R146, R148). -/
def windowOk (p : Package) (winPages x y w h : Nat) : Bool :=
  !p.compat || (decide (w ≥ 1) && decide (h ≥ 1) && decide (x + w ≤ p.vw) && decide (y + h ≤ p.vh) &&
    decide (p.winBase + ceilDiv (winPages * 32) (w * h) ≤ 24576))

/-- The region and image of virtual core (x, y). -/
def regionOf (p : Package) (x y : Nat) : Option RegionEnt := p.regions.find? fun e => inRegion e x y

end Sys2Proof.Machine
end

