-- ==== Sys2Proof/Machine/SlabOps.lean ====
section
/-!
DEFINITION. Sys2Proof/Machine/SlabOps.lean: the slab's words, their check bits, the three access forms, bank power and
the counters of decoding (R113 to R145).
-/

namespace Sys2Proof.Machine

/-- Rows of a slab (R113). -/
def slabRows : Nat := 24576

/-- The codeword positions of data bits 0 to 31 (R128). -/
def secPos : List Nat :=
  [3, 5, 6, 7, 9, 10, 11, 12, 13, 14, 15, 17, 18, 19, 20, 21, 22, 23, 24, 25, 26, 27, 28, 29, 30, 31, 33, 34, 35, 36, 37, 38]

/-- C0 to C5 of a data word: the XOR of the positions of its set bits (R128). -/
def secCheck (d : W32) : BitVec 6 :=
  (secPos.zipIdx).foldl (fun s p => if d.getLsbD p.2 then s ^^^ BitVec.ofNat 6 p.1 else s) 0#6

/-- The parity of a word: true when the count of set bits is odd. -/
def oddParity {n : Nat} (x : BitVec n) : Bool := (List.range n).foldl (fun p i => xor p (x.getLsbD i)) false

/-- C0 to C6 of a data word (R128). -/
def secBits (d : W32) : BitVec 7 :=
  let c := secCheck d
  (if xor (oddParity d) (oddParity c) then 1#1 else 0#1) ++ c

/-- The stored form of a data word: fresh check bits and Z = 0, or the crazed form with inverted check bits (R131,
R132). -/
def secEncode (d : W32) (crazed : Bool) : SlabWord :=
  let k := secBits d
  if crazed then 1#1 ++ (~~~k ++ d) else 0#1 ++ (k ++ d)

/-- What decoding a stored word gives (Table 4.3). -/
structure Decoded where
  data : W32
  crazed : Bool
  ce : Bool
  ue : Bool
deriving DecidableEq, Repr

/-- Decode a stored word (R129, R130). -/
def secDecode (w : SlabWord) : Decoded :=
  let d := w.extractLsb' 0 32
  let chk := w.extractLsb' 32 7
  if w.getLsbD 39 then { data := d, crazed := true, ce := false, ue := false }
  else
    let s := (secCheck d ^^^ chk.extractLsb' 0 6).toNat
    let p := xor (oddParity d) (oddParity chk)
    if !p && s == 0 then { data := d, crazed := false, ce := false, ue := false }
    else if p && decide (s < 39) then
      let d' := match secPos.idxOf? s with
        | some i => d ^^^ (1#32 <<< i)
        | none => d
      { data := d', crazed := false, ce := true, ue := false }
    else { data := d, crazed := true, ce := false, ue := true }

/-- The key of segment c (side word c - 32) of row r. -/
def slabKey (r c : Nat) : Nat := r * 36 + c

/-- The bank of segment c of row r; side word k has bank 32 + k (R115, R116). -/
def slabBank (r c : Nat) : Nat := if c < 32 then (r + c) % 32 else c

/-- A stored word. -/
def getWord (c : Core) (r seg : Nat) : SlabWord := smGet 0#40 c.slab.words (slabKey r seg)

/-- The banks that segments `segs` of row r reach, any of them powered down (R143, R144)? -/
def banksOff (c : Core) (r : Nat) (segs : List Nat) : Bool := segs.any fun s => c.slab.off.getLsbD (slabBank r s)

/-- The segments of a row access with n side words enabled (R119). -/
def rowSegs (n : Nat) : List Nat := List.range (32 + n)

/-- One decoded read with its counting: CE, UE, LAST_ERR and a fault-history event for the bank (R133). The event type
is 1 (a bank of a slab). -/
def readWord (c : Core) (r seg : Nat) : Decoded × Core :=
  let w := secDecode (getWord c r seg)
  if w.ce then (w, { c with slab := { c.slab with ce := sat32 c.slab.ce 1 } })
  else if w.ue then
    let b := slabBank r seg
    let e := (setField (setField (setField (setField 0#32 31 1 1) 30 1 (if b < 32 then 0 else 1)) 25 5 (b % 32)) 0 15 r)
    (w, { c with slab := { c.slab with ue := sat32 c.slab.ue 1, lastErr := e }, events := c.events ++ [(1, b)] })
  else (w, c)

/-- Read the listed words into a row. -/
def readWords (r : Nat) : List Nat → Core → Row → Row × Core
  | [], c, acc => (acc, c)
  | s :: l, c, acc =>
    let p := readWord c r s
    readWords r l p.2 (rowSetAny acc s p.1.data p.1.crazed)

/-- Count an access of a port for the energy estimate (R420). -/
def countSlab (c : Core) (n : Nat) : Core := { c with activity := { c.activity with slab := c.activity.slab + n } }

/-- A row read with n side words (R117, R119). -/
def readRow (c : Core) (r n : Nat) : Row × Core := readWords r (rowSegs n) (countSlab c 1) Row.zero

/-- A column read of segment seg of rows r0 to r0 + 31 (R118). -/
def readCol (c : Core) (r0 seg : Nat) : Row × Core :=
  (List.range 32).foldl (fun p i =>
    let q := readWord p.2 (r0 + i) seg
    (rowSetAny p.1 i q.1.data q.1.crazed, q.2)) (Row.zero, countSlab c 1)

/-- The write-backs that wait after a write to row r was granted: those of that row are dropped at their grant (R140). -/
def staleRow (r : Nat) (l : List WriteBack) : List WriteBack :=
  l.map fun b => if b.row = r then { b with stale := true } else b

/-- The core with one word stored (R131, R132). A write to a row drops a fettling write-back of it (R140). -/
def writeWord (c : Core) (r seg : Nat) (d : W32) (z : Bool) : Core :=
  { c with slab := { c.slab with
      words := smSet 0#40 c.slab.words (slabKey r seg) (secEncode d z), wb := staleRow r c.slab.wb } }

/-- Write the listed words of a row. -/
def writeWords (r : Nat) (row : Row) : List Nat → Core → Core
  | [], c => c
  | s :: l, c => writeWords r row l (writeWord c r s (rowAny row s) (rowZ row s))

/-- A row write with n side words (R117, R119). -/
def writeRow (c : Core) (r : Nat) (row : Row) (n : Nat) : Core := writeWords r row (rowSegs n) (countSlab c 1)

/-- A column write: word i of the row to segment seg of row r0 + i (R118). -/
def writeCol (c : Core) (r0 seg : Nat) (row : Row) : Core :=
  (List.range 32).foldl (fun c i => writeWord c (r0 + i) seg (rowWord row i) (rowZ row i)) (countSlab c 1)

/-- Are rows r to r + n - 1 inside the slab (R120)? -/
def rowsOk (r n : Nat) : Bool := decide (r + n ≤ slabRows)

/-- Count one refused write (R143). -/
def lateWrite (c : Core) : Core := { c with slab := { c.slab with lateWrites := sat32 c.slab.lateWrites 1 } }

/-- Every word of the banks in set b zero and clean (R145). -/
def zeroBanks (c : Core) (b : BitVec 36) : Core :=
  { c with slab := { c.slab with
      words := smMap 0#40 (fun k w => if b.getLsbD (slabBank (k / 36) (k % 36)) then 0#40 else w) c.slab.words } }

/-! ### Accesses -/

/-- A slab access: its form with its rows (R117). -/
inductive MemAcc where
  /-- A row, with so many side words. -/
  | row (r n : Nat)
  /-- A column of rows r0 to r0 + 31, one segment. -/
  | col (r0 seg : Nat)
  /-- One segment of a row. -/
  | narrow (r seg : Nat)
deriving DecidableEq, Repr

/-- The first row of an access and how many it spans. -/
def accSpan : MemAcc → Nat × Nat
  | .row r _ => (r, 1)
  | .col r _ => (r, 32)
  | .narrow r _ => (r, 1)

/-- The fault of an access when it is requested: beyond the slab, or in a bank that is off (R120, R143, R144, R234). -/
def accFault (c : Core) (a : MemAcc) : Option FaultCode :=
  if (accSpan a).1 + (accSpan a).2 > slabRows then some .slabRange
  else
    let off := match a with
      | .row r n => banksOff c r (rowSegs n)
      | .col r _ => banksOff c r (rowSegs 0)
      | .narrow r s => banksOff c r [s]
    if off then some .bankOff else none

/-! ### Fettling -/

/-- The words a fettling read of row r finds in error, in the form the write-back stores, or every word of the row when
there is any (R139); banks that are powered down are skipped (R136). -/
def fettleWords (c : Core) (r : Nat) : List (Nat × SlabWord) × Core :=
  let segs := (rowSegs 4).filter fun s => !c.slab.off.getLsbD (slabBank r s)
  let bad := segs.any fun s => (secDecode (getWord c r s)).ce || (secDecode (getWord c r s)).ue
  let c' := segs.foldl (fun c s => (readWord c r s).2) c
  let ws := segs.map fun s =>
    let w := getWord c r s
    let d := secDecode w
    (s, if d.ce then secEncode d.data false else if d.ue then secEncode d.data true else w)
  (if bad then ws else [], c')

/-- A fettling read grant: one row is read, the pointer moves on, a pass that ends counts, and a row with errors waits
for its write-back (R136, R137, R139) (assumption 122). -/
def fettleRead (c : Core) (wasDue : Bool) : Core :=
  let r := c.slab.pointer
  let p := fettleWords c r
  let c1 := countSlab p.2 1
  let wrap := decide (r + 1 = slabRows)
  { c1 with slab := { c1.slab with
      pointer := if wrap then 0 else r + 1,
      passes := if wrap then satAdd 0x1FFFF c1.slab.passes 1 else c1.slab.passes,
      due := false,
      dueCount := if wasDue then sat32 c1.slab.dueCount 1 else c1.slab.dueCount,
      wb := if p.1.isEmpty then c1.slab.wb else c1.slab.wb ++ [{ row := r, words := p.1, stale := false }] } }

/-- Does a write-back reach bank b? -/
def wbReaches (w : WriteBack) (b : Nat) : Bool := w.words.any fun p => decide (slabBank w.row p.1 = b)

/-- Does a write-back reach a bank that is powered down? -/
def wbRefused (c : Core) (w : WriteBack) : Bool := banksOff c w.row (w.words.map (·.1))

/-- The words of a write-back stored. -/
def storeBack (c : Core) (w : WriteBack) : Core :=
  { c with slab := { c.slab with
      words := w.words.foldl (fun m p => smSet 0#40 m (slabKey w.row p.1) p.2) c.slab.words } }

/-- A fettling write-back grant: the oldest is stored, dropped when a newer write was granted, refused and counted when it
reaches a closed bank (R139, R140, R143). -/
def fettleWrite (c : Core) : Core :=
  match c.slab.wb with
  | [] => c
  | w :: rest =>
    let c1 := { c with slab := { c.slab with wb := rest } }
    if w.stale then c1 else if wbRefused c w then lateWrite c1 else storeBack (countSlab c1 1) w

end Sys2Proof.Machine
end

