-- ==== Sys2Proof/Machine/Flit.lean ====
section
/-!
DEFINITION. Sys2Proof/Machine/Flit.lean: packets and their flits: the header of Table 9.4, the packet types and virtual channels
of Table 9.5, the rows in data flits, and the sideband codes of a flit on a link (R304 to R306, R310, R311).
-/

namespace Sys2Proof.Machine

/-! ### Packet types (Table 9.5) -/

/-- The TYPE code. -/
def typeCode : PktType → Nat
  | .write => 0 | .read => 1 | .readData => 2 | .ack => 3 | .nack => 4 | .hbmWrite => 5 | .hbmRead => 6 | .hbmData => 7
  | .mcastWrite => 8 | .credit => 9 | .barrier => 10 | .control => 11 | .dropNotice => 12

/-- The type of a TYPE code; 0x0D to 0xFF are reserved. -/
def typeOfCode (n : Nat) : Option PktType :=
  [PktType.write, .read, .readData, .ack, .nack, .hbmWrite, .hbmRead, .hbmData, .mcastWrite, .credit, .barrier, .control,
    .dropNotice][n]?

/-- The virtual channel of a type, for a multicast or not. -/
def typeVc (t : PktType) (mcast : Bool) : Nat :=
  match t with
  | .write | .read | .hbmWrite | .hbmRead => 0
  | .readData | .ack | .nack => 1
  | .hbmData => if mcast then 2 else 1
  | .mcastWrite => 2
  | .credit | .barrier | .control | .dropNotice => 3

/-- The virtual channel of a packet: VC4 with ORDER YX or detour, whatever its type (R311). -/
def packetVc (p : Packet) : Nat := if p.order = .xy then typeVc p.typ p.mcast else 4

/-- ROUTE.ORDER (Table 9.4). -/
def orderCode : Order → Nat
  | .xy => 0 | .yx => 1 | .detour => 2

/-- The order of a ROUTE.ORDER value; 11b has none and reads as XY. -/
def orderOfCode (n : Nat) : Order := if n = 1 then .yx else if n = 2 then .detour else .xy

/-! ### The header (Table 9.4) -/

/-- Data flits of a packet: one for each row and four for the side lanes with SIDE; the words of a window part share one
(R149, R310). -/
def packetLen (p : Packet) : Nat :=
  if p.rows.isEmpty then 0
  else if p.segs then 1
  else p.rows.length + (if p.side then 4 else 0)

/-- The fields of the header as (lowest bit, width, value). -/
def headFields (p : Packet) : List (Nat × Nat × Nat) :=
  [(0, 12, p.dst), (16, 12, p.src), (32, 8, typeCode p.typ), (40, 8, packetLen p), (48, 2, orderCode p.order), (50, 6, p.yt),
   (56, 1, p.side.toNat), (57, 1, p.post.toNat), (58, 1, p.mcast.toNat), (64, 5, p.job), (72, 8, p.slot), (80, 4, p.tag),
   (88, 8, p.status), (96, 32, p.addr), (128, 48, p.haddr), (176, 8, p.count),
   (192, 8, p.prect.x0), (200, 8, p.prect.y0), (208, 8, p.prect.x1), (216, 8, p.prect.y1),
   (224, 8, p.vrect.x0), (232, 8, p.vrect.y0), (240, 8, p.vrect.x1), (248, 8, p.vrect.y1)]

/-- The data bytes of the HEAD flit: the header in bytes 0 to 31, the rest zero. -/
def headBits (p : Packet) : BitVec 1024 := (headFields p).foldl (fun d f => setField d f.1 f.2.1 f.2.2) 0#1024

/-- A rectangle from four header bytes. -/
def rectBits (d : BitVec 1024) (lo : Nat) : Rect :=
  { x0 := getField d lo 8, y0 := getField d (lo + 8) 8, x1 := getField d (lo + 16) 8, y1 := getField d (lo + 24) 8 }

/-- The packet without its rows that a HEAD flit brings, none for a reserved TYPE. -/
def parseHead (d : BitVec 1024) (m : Mark) : Option Packet :=
  (typeOfCode (getField d 32 8)).map fun t =>
    { m with
      typ := t, dst := getField d 0 12, src := getField d 16 12, order := orderOfCode (getField d 48 2), yt := getField d 50 6,
      side := d.getLsbD 56, post := d.getLsbD 57, mcast := d.getLsbD 58, job := getField d 64 5, slot := getField d 72 8,
      tag := getField d 80 4, status := getField d 88 8, addr := getField d 96 32, haddr := getField d 128 48,
      count := getField d 176 8, prect := rectBits d 192, vrect := rectBits d 224, rows := [], aborted := false }

/-! ### Flits -/

/-- One flit of a packet: HEAD, TAIL, ABORT, the data and its crazing bits, what travels beside a HEAD, and whether the place it
takes in an input buffer is owed back to the sender as a credit. -/
structure Flit where
  head : Bool
  tail : Bool
  abort : Bool
  data : BitVec 1024
  z : W32
  mark : Mark
  owed : Bool
deriving DecidableEq, Repr

/-- A data flit. -/
def dataFlit (data : BitVec 1024) (z : W32) : Flit :=
  { head := false, tail := false, abort := false, data := data, z := z, mark := Mark.none, owed := true }

/-- An ABORT tail that a router makes up: it took no place of the sender's credits (R309). -/
def abortTail : Flit :=
  { head := false, tail := true, abort := true, data := 0#1024, z := 0#32, mark := Mark.none, owed := false }

/-- Side flit k: the side lanes of rows 8k to 8k + 7 in order, each with the crazing bits of its four words (R310). -/
def sideFlit (rows : List Row) (k : Nat) : Flit :=
  let r := (List.range 8).map fun i => rows.getD (8 * k + i) Row.zero
  dataFlit (r.foldr (fun x (acc : BitVec 1024) => (acc <<< 128) ||| x.side.setWidth 1024) 0#1024)
    (r.foldr (fun x (acc : W32) => (acc <<< 4) ||| (x.z.extractLsb' 32 4).setWidth 32) 0#32)

/-- The flit that carries the words of a window part in order, one from each row. -/
def wordsFlit (rows : List Row) : Flit :=
  dataFlit (rowOfWords (rows.map fun r => rowWord r 0) 0#128 0#36).data
    (rows.foldr (fun r (acc : W32) => (acc <<< 1) ||| (if rowZ r 0 then 1#32 else 0#32)) 0#32)

/-- The data flits of a packet's rows (R310). -/
def rowFlits (p : Packet) : List Flit :=
  if p.rows.isEmpty then []
  else if p.segs then [wordsFlit p.rows]
  else p.rows.map (fun r => dataFlit r.data (r.z.setWidth 32)) ++ (if p.side then (List.range 4).map (sideFlit p.rows) else [])

/-- The last flit of a list made the TAIL. -/
def markTail : List Flit → List Flit
  | [] => []
  | [f] => [{ f with tail := true }]
  | f :: l => f :: markTail l

/-- The flits of a packet: HEAD and LEN data flits (R310). -/
def packetFlits (p : Packet) : List Flit :=
  markTail ({ head := true, tail := false, abort := false, data := headBits p, z := 0#32, mark := p.toMark, owed := true } :: rowFlits p)

/-- Row i of the data flits `ds`, with its side lane from side flit i / 8 (R310). -/
def flitRow (ds : List Flit) (sides : List Flit) (i : Nat) : Row :=
  let f := ds.getD i (dataFlit 0#1024 0#32)
  let s := sides.getD (i / 8) (dataFlit 0#1024 0#32)
  { data := f.data, side := s.data.extractLsb' (128 * (i % 8)) 128,
    z := (s.z.extractLsb' (4 * (i % 8)) 4).setWidth 36 <<< 32 ||| f.z.setWidth 36 }

/-- The rows that a packet's data flits bring: with SIDE only rows whose side lane came too. -/
def flitRows (p : Packet) (ds : List Flit) : List Row :=
  if p.segs then
    match ds with
    | [] => []
    | f :: _ => (List.range p.count).map fun i =>
        rowSetAny Row.zero 0 (f.data.extractLsb' (32 * i) 32) (f.z.getLsbD i)
  else
    let n := min p.count ds.length
    let sides := if p.side then ds.drop p.count else []
    ((List.range n).filter fun i => !p.side || decide (i / 8 < sides.length)).map (flitRow ds sides)

/-- The packet that the flits at a destination make, closed or not by an ABORT tail (R309, R310); none without a HEAD that can be
read. -/
def flitsPacket (fs : List Flit) : Option Packet :=
  match fs with
  | [] => none
  | h :: rest =>
    (parseHead h.data h.mark).map fun p =>
      let ds := rest.filter fun f => !f.abort
      { p with rows := flitRows p ds, aborted := fs.any (·.abort) }

/-! ### Check codes (R305, R306) -/

/-- The codeword positions of sideband bits 116 to 127 (assumption 15). -/
def cchkPos : List Nat := [3, 5, 6, 7, 9, 10, 11, 12, 13, 14, 15, 17]

/-- CCHK of the 12 control bits: five Hamming bits and their parity (R305, assumption 15). -/
def cchkOf (b : BitVec 12) : BitVec 6 :=
  let c : BitVec 5 := cchkPos.zipIdx.foldl (fun s p => if b.getLsbD p.2 then s ^^^ BitVec.ofNat 5 p.1 else s) 0#5
  (if xor (oddParity b) (oddParity c) then 1#1 else 0#1) ++ c

/-- The control bits after CCHK, whether one was corrected; none for a double error (R306). -/
def cchkCorrect (b : BitVec 12) (k : BitVec 6) : Option (BitVec 12 × Bool) :=
  let s := ((cchkOf b).extractLsb' 0 5 ^^^ k.extractLsb' 0 5).toNat
  let odd := xor (oddParity b) (oddParity k)
  if s = 0 ∧ !odd then some (b, false)
  else if odd ∧ s ≤ 17 then
    match cchkPos.idxOf? s with
    | some i => some (b ^^^ (1#12 <<< i), true)
    | none => some (b, true)
  else none

/-- CHECK quarter q of a flit (R305). -/
def flitCheck (d : BitVec 1024) (z : W32) (q : Nat) : BitVec 16 :=
  crc16 ((List.range 33).map fun i =>
    if i < 32 then d.extractLsb' (8 * (32 * q + i)) 8 else z.extractLsb' (8 * q) 8)

/-- The sideband of a flit with its codes (R304, R305). -/
def flitSideband (ctl : BitVec 12) (z : W32) (d : BitVec 1024) : BitVec 128 :=
  ctl ++ (cchkOf ctl ++ (0#14 ++ (z ++ (flitCheck d z 3 ++ (flitCheck d z 2 ++ (flitCheck d z 1 ++ flitCheck d z 0))))))

/-- The quarters of a flit whose CHECK fails. -/
def badQuarters (d : BitVec 1024) (sb : BitVec 128) : List Nat :=
  let z := sb.extractLsb' 64 32
  (List.range 4).filter fun q => !decide (flitCheck d z q = sb.extractLsb' (16 * q) 16)

/-- The crazing bits with those of the words of some quarters set (R306). -/
def crazeQuarters (z : W32) (qs : List Nat) : W32 := qs.foldl (fun z q => setField z (8 * q) 8 0xFF) z

/-- What a link carries in one cc: the credits returned for the opposite direction, and a packet's flit with its VC; none for an
idle flit. On a seam crossing `entry` is its place in the elastic FIFO (R320). -/
structure LinkFlit where
  entry : Int
  credit : BitVec 5
  body : Option (Nat × Flit)
deriving DecidableEq, Repr

/-- The control bits of a link's flit: VALID, VC, HEAD, TAIL, ABORT, CREDIT (Table 9.1). -/
def linkCtl (l : LinkFlit) : BitVec 12 :=
  match l.body with
  | none => l.credit.setWidth 12
  | some (vc, f) =>
    1#1 ++ (BitVec.ofNat 3 vc ++ (BitVec.ofBool f.head ++ (BitVec.ofBool f.tail ++ (BitVec.ofBool f.abort ++ l.credit))))

/-- The data and sideband of a link's flit as it is sent (R304). -/
def linkBits (l : LinkFlit) : BitVec 1024 × BitVec 128 :=
  match l.body with
  | none => (0#1024, flitSideband (linkCtl l) 0#32 0#1024)
  | some (_, f) => (f.data, flitSideband (linkCtl l) f.z f.data)

end Sys2Proof.Machine
end

