-- ==== Sys2Proof/Machine/Hbm.lean ====
section
/-!
DEFINITION. Sys2Proof/Machine/Hbm.lean: the memory partitions: the page map, where a physical byte lives, the check code,
reads and writes of 64-bit words, bursts, and the stacks (R352 to R372).
-/

namespace Sys2Proof.Machine

/-! ### State -/

/-- A stack (FIELDf.HBM_STACK_s): its state 0 to 4, temperatures, retrainings, the retraining attempts that have failed
in a row, the corrected decodings of the last 10 ms by tick (R369), the refresh setting its temperature gave (R368), and
the grant limit in eighths of its grants (R432). -/
structure Stack where
  state : Nat
  trainTemp : Nat
  temp : Nat
  retrains : Nat
  lastStall : Nat
  attempts : Nat
  ceTimes : List (Nat × Nat)
  slow : Nat
deriving DecidableEq, Repr

/-- A stack after reset: untrained. -/
def Stack.reset : Stack :=
  { state := 0, trainTemp := 0, temp := 0, retrains := 0, lastStall := 0, attempts := 0, ceTimes := [], slow := 0 }

/-- The counters of a channel (FIELDf.HBM_CH_n). -/
structure Chan where
  ce : Nat
  ue : Nat
  stackCe : Nat
  stackUe : Nat
  rmw : Nat
deriving DecidableEq, Repr

/-- A channel's counters after reset. -/
def Chan.reset : Chan := { ce := 0, ue := 0, stackCe := 0, stackUe := 0, rmw := 0 }

/-- A request at a channel controller: the channel that serves it, its requester, the packet it belongs to and the 64-bit words of
that packet it reads or writes, `n` from `first` on, all in one aligned block of 64 bytes (R354 to R356). -/
structure HbmReq where
  chan : Nat
  rq : Nat
  job : Nat
  first : Nat
  n : Nat
deriving DecidableEq, Repr

/-- A packet at the channel controllers: the entry router it came by, how many of its requests are not yet granted, and what those
granted have read, by word. -/
structure HbmJob where
  id : Nat
  pkt : Packet
  place : Nat
  left : Nat
  words : SMap (W64 × Bool)
deriving DecidableEq, Repr

/-- The partitions and the page map. Words are keyed by device physical address / 8, channels by partition x 64 + n,
stacks 0 to 15; `events` holds fault-history events (type 2, partition x 64 + n) not yet entered. `jobs` and `reqs` are the packets
and requests at the channel controllers, oldest first; `granted` the requester plus 1 that a channel granted last and has not served,
10 for fettling; `fettle` the burst of its channel that fettling reads next; `grants` the grants since the last die estimate, by job (R420). -/
structure Hbm where
  words : SMap HbmWord
  entries : SMap W64
  runs : SMap W64
  violations : Nat
  rate : Nat
  stks : SMap Stack
  chans : SMap Chan
  arbs : SMap ArbBank
  resetDue : List Nat
  events : List (Nat × Nat)
  jobs : List HbmJob
  nextJob : Nat
  reqs : List HbmReq
  granted : SMap Nat
  fettle : SMap Nat
  grants : SMap Nat
deriving DecidableEq, Repr

/-- The partitions after reset (R372). -/
def Hbm.reset : Hbm :=
  { words := [], entries := [], runs := [], violations := 0, rate := 0, stks := [], chans := [], arbs := [],
    resetDue := [], events := [], jobs := [], nextJob := 0, reqs := [], granted := [], fettle := [], grants := [] }

/-! ### Where a physical byte lives (R354) -/

/-- Bytes of a partition. -/
def partBytes : Nat := 0x1800000000

/-- The partition of device physical address a. -/
def addrPart (a : Nat) : Nat := a / partBytes

/-- The stack of device physical address a: 2p + o[12]. -/
def addrStack (a : Nat) : Nat := 2 * addrPart a + a % partBytes / 4096 % 2

/-- The pseudo-channel of a within its stack: o[11:6]. -/
def addrPc (a : Nat) : Nat := a % partBytes / 64 % 64

/-- The channel of a: partition x 64 + 32 s + pc div 2. -/
def addrChan (a : Nat) : Nat := addrPart a * 64 + 32 * (a % partBytes / 4096 % 2) + addrPc a / 2

/-- The pseudo-channel of a within its channel: pc mod 2. -/
def addrHalf (a : Nat) : Nat := addrPc a % 2

/-- The stack-local address of a: (o[47:13] << 12) or o[11:0]. -/
def addrLocal (a : Nat) : Nat := a % partBytes / 8192 * 4096 + a % 4096

/-- The device physical address of byte x of channel `chan`, counted over its blocks of 128 bytes: R354 read the other way. -/
def chanAddr (chan x : Nat) : Nat :=
  chan / 64 * partBytes + x / 128 * 8192 + chan / 32 % 2 * 4096 + chan % 32 * 128 + x % 128

/-- Bursts of 32 bytes of a channel. -/
def chanBursts : Nat := 0x3000000

/-! ### The check code (R357, R358, R359) -/

/-- The codeword positions of data bits 0 to 63: 1 to 71 without the powers of two. -/
def hbmPos : List Nat := ((List.range 72).drop 3).filter fun p => !([4, 8, 16, 32, 64].contains p)

/-- C0 to C6 of a 64-bit word. -/
def hbmHamming (d : W64) : BitVec 7 :=
  hbmPos.zipIdx.foldl (fun s p => if d.getLsbD p.2 then s ^^^ BitVec.ofNat 7 p.1 else s) 0#7

/-- A word with its check byte (R357). -/
def hbmEncode (d : W64) : HbmWord :=
  let c := hbmHamming d
  (if xor (oddParity d) (oddParity c) then 1#1 else 0#1) ++ (c ++ d)

/-- The crazed marker (R358). -/
def hbmMarker : HbmWord := 0xFF0000000000000000#72

/-- The number of set bits. -/
def popCount {n : Nat} (x : BitVec n) : Nat := (List.range n).foldl (fun k i => k + (x.getLsbD i).toNat) 0

/-- What decoding an HBM word gives (Table 11.2). -/
structure HbmDecoded where
  data : W64
  crazed : Bool
  ce : Bool
  ue : Bool
deriving DecidableEq, Repr

/-- Decode a stored HBM word (R359). -/
def hbmDecode (w : HbmWord) : HbmDecoded :=
  let d := w.extractLsb' 0 64
  if popCount (w ^^^ hbmMarker) ≤ 1 then { data := d, crazed := true, ce := false, ue := false }
  else
    let s := (hbmHamming d ^^^ w.extractLsb' 64 7).toNat
    let odd := oddParity w
    if s = 0 ∧ !odd then { data := d, crazed := false, ce := false, ue := false }
    else if odd ∧ s ≤ 71 then
      let d' := match hbmPos.idxOf? s with
        | some i => d ^^^ (1#64 <<< i)
        | none => d
      { data := d', crazed := false, ce := true, ue := false }
    else { data := d, crazed := true, ce := false, ue := true }

/-! ### The page map -/

/-- Page-map entry e. -/
def pageEntry (h : Hbm) (e : Nat) : W64 := smGet 0#64 h.entries e

/-- The run of job j: EN, FIRST, COUNT (PAGEMAP.JOB_RUN_j). -/
def jobRun (h : Hbm) (j : Nat) : Option (Nat × Nat) :=
  let r := smGet 0#64 h.runs j
  if r.getLsbD 63 then some (getField r 0 18, getField r 32 18) else none

/-- A JOB_RUN value with EN set. -/
def runWord (first count : Nat) : W64 := BitVec.ofNat 64 (2 ^ 63 + count * 2 ^ 32 + first)

/-- An entry's fields (PAGEMAP.ENTRY_e). -/
def entValid (e : W64) : Bool := e.getLsbD 63
def entCrazed (e : W64) : Bool := e.getLsbD 62
def entW (e : W64) : Bool := e.getLsbD 61
def entR (e : W64) : Bool := e.getLsbD 60
def entDev (e : W64) : Bool := e.getLsbD 59
def entJob (e : W64) : Nat := getField e 32 5
def entPage (e : W64) : Nat := getField e 0 18

/-- An entry that an admission writes: VALID, R and W set (R366). -/
def newEntry (job page : Nat) : W64 := BitVec.ofNat 64 (2 ^ 63 + 2 ^ 61 + 2 ^ 60 + job * 2 ^ 32 + page)

/-- The index of the entry of job j's address v, when the run holds it. -/
def entryIndex (h : Hbm) (j v : Nat) : Option Nat :=
  match jobRun h j with
  | some (first, count) => if v / 0x400000 < count then some (first + v / 0x400000) else none
  | none => none

/-- Is the page of v covered for job j (R363)? -/
def pageOk (h : Hbm) (j : Nat) (write : Bool) (v : Nat) : Bool :=
  match entryIndex h j v with
  | some i =>
    let e := pageEntry h i
    entValid e && !entDev e && decide (entJob e = j) && (if write then entW e else entR e)
  | none => false

/-- Is every byte of v to v + n - 1 covered (R363)? -/
def rangeOk (h : Hbm) (j : Nat) (write : Bool) (v n : Nat) : Bool :=
  (List.range ((v % 0x400000 + n + 0x3FFFFF) / 0x400000)).all fun i => pageOk h j write (v / 0x400000 * 0x400000 + i * 0x400000)

/-- The device physical address of job j's address v (R363). -/
def hbmTranslate (h : Hbm) (j v : Nat) : Option Nat :=
  (entryIndex h j v).map fun i => entPage (pageEntry h i) * 0x400000 + v % 0x400000

/-- Is the page of job j's address v marked crazed (R367)? -/
def pageCrazed (h : Hbm) (j v : Nat) : Bool :=
  match entryIndex h j v with
  | some i => entCrazed (pageEntry h i)
  | none => false

/-- The entry indexes of job j's run. -/
def runEntries (h : Hbm) (j : Nat) : List Nat :=
  match jobRun h j with
  | some (first, count) => (List.range count).map fun i => first + i
  | none => []

/-- The page map with f applied to the entries at `is`. -/
def modEntries (h : Hbm) (is : List Nat) (f : W64 → W64) : Hbm :=
  { h with entries := smModAll 0#64 h.entries is fun _ e => f e }

/-- One transfer refused by the page map (R363). -/
def countViolation (h : Hbm) : Hbm := { h with violations := sat32 h.violations 1 }

/-! ### Words and bursts -/

/-- Stack s. -/
def getStack (h : Hbm) (s : Nat) : Stack := smGet Stack.reset h.stks s

/-- The partitions with stack s replaced. -/
def setStack (h : Hbm) (s : Nat) (v : Stack) : Hbm := { h with stks := smSet Stack.reset h.stks s v }

/-- The partitions with f applied to a channel's counters. -/
def modChan (h : Hbm) (n : Nat) (f : Chan → Chan) : Hbm := { h with chans := smMod Chan.reset h.chans n f }

/-- A stack starts to retrain; a trigger while it does merges, and only a stack in service starts (R369, R370). -/
def startRetrain (h : Hbm) (s : Nat) : Hbm :=
  let k := getStack h s
  if k.state = 2 then setStack h s { k with state := 3, retrains := sat16 k.retrains 1, attempts := 0, ceTimes := [] } else h

/-- Count one corrected decoding of a stack at tick now: more than 1,024 within 10 ms start a retraining (R369). -/
def countStackCe (now : Nat) (h : Hbm) (s : Nat) : Hbm :=
  let k := getStack h s
  let old := k.ceTimes.filter fun t => decide (now < t.1 + 4000000)
  let times := match old with
    | (t, n) :: l => if t = now then (t, n + 1) :: l else (now, 1) :: (t, n) :: l
    | [] => [(now, 1)]
  let total : Nat := times.foldl (fun a t => a + t.2) 0
  let h1 := setStack h s { k with ceTimes := times }
  if total > 1024 then startRetrain h1 s else h1

/-- One decoded read of the 64-bit word at device address a, with its counting (R359). A word of a burst (device address / 32) in
`bad` was reported uncorrectable by the stack: it is crazed, and counts in neither CE nor UE (assumption 123). -/
def hbmReadWord (now : Nat) (bad : List Nat) (a : Nat) (h : Hbm) : HbmDecoded × Hbm :=
  let d := hbmDecode (smGet 0#72 h.words (a / 8))
  if bad.contains (a / 32) then ({ data := d.data, crazed := true, ce := false, ue := false }, h)
  else if d.ce then (d, countStackCe now (modChan h (addrChan a) fun c => { c with ce := sat32 c.ce 1 }) (addrStack a))
  else if d.ue then
    (d, { modChan h (addrChan a) (fun c => { c with ue := sat32 c.ue 1 }) with
          events := h.events ++ [(2, addrChan a)] })
  else (d, h)

/-- The stored form of a 64-bit word: the marker when either half is crazed (R358). -/
def hbmStored (d : W64) (crazed : Bool) : HbmWord := if crazed then hbmMarker else hbmEncode d

/-- The 64-bit word at device address a stored. -/
def hbmWriteWord (a : Nat) (d : W64) (crazed : Bool) (h : Hbm) : Hbm :=
  { h with words := smSet 0#72 h.words (a / 8) (hbmStored d crazed) }

/-- One burst of words: the words of the burst that `ws` does not hold are read and stored as decoded (R360) (assumption 123). -/
def mergeBurst (now : Nat) (bad : List Nat) (ws : List (Nat × W64 × Bool)) (h : Hbm) : Hbm :=
  match ws with
  | [] => h
  | w :: _ =>
    let b := w.1 / 32
    let missing := (List.range 4).filter fun i => !ws.any fun x => decide (x.1 / 8 = 4 * b + i)
    if missing.isEmpty then h
    else
      missing.foldl (fun h i =>
        let r := hbmReadWord now bad (32 * b + 8 * i) h
        hbmWriteWord (32 * b + 8 * i) r.1.data r.1.crazed r.2) (modChan h (addrChan (32 * b)) fun c => { c with rmw := sat16 c.rmw 1 })

/-- Write words at device addresses in rising order: a burst of 32 bytes that is written only in part is read, merged and
written, its other words stored as decoded (R360). -/
def hbmWriteWords (now : Nat) (bad : List Nat) (ws : List (Nat × W64 × Bool)) (h : Hbm) : Hbm :=
  ws.foldl (fun h w => hbmWriteWord w.1 w.2.1 w.2.2 h)
    ((ws.splitBy fun x y => decide (x.1 / 32 = y.1 / 32)).foldl (fun h b => mergeBurst now bad b h) h)

/-- One burst that fettling reads: a correctable word is written back under R360, crazed words stay crazed; the words of a burst that
the stack reports uncorrectable are all crazed (R359, R361) (assumption 122). -/
def hbmFettle (now : Nat) (bad : List Nat) (b : Nat) (h : Hbm) : Hbm :=
  let r := (List.range 4).foldl (fun (acc : List HbmDecoded × Hbm) i =>
    let q := hbmReadWord now bad (32 * b + 8 * i) acc.2
    (acc.1 ++ [q.1], q.2)) ([], h)
  if r.1.any (·.ce) then
    r.1.zipIdx.foldl (fun h d => hbmWriteWord (32 * b + 8 * d.2) d.1.data d.1.crazed h)
      (modChan r.2 (addrChan (32 * b)) fun c => { c with rmw := sat16 c.rmw 1 })
  else r.2

/-! ### Rows and bytes of a job -/

/-- 64-bit words of a row in HBM. -/
def rowHbmWords (side : Bool) : Nat := if side then 18 else 16

/-- The 64-bit word i of a row and whether either half is crazed. -/
def rowHbmWord (r : Row) (i : Nat) : W64 × Bool :=
  (rowAny r (2 * i + 1) ++ rowAny r (2 * i), rowZ r (2 * i) || rowZ r (2 * i + 1))

/-- n rows from the 64-bit words read for them. -/
def rowsOfWords (side : Bool) (n : Nat) (ws : SMap (W64 × Bool)) : List Row :=
  (List.range n).map fun r => (List.range (rowHbmWords side)).foldl (fun row i =>
    let w := smGet (0#64, false) ws (r * rowHbmWords side + i)
    rowSetAny (rowSetAny row (2 * i) (w.1.extractLsb' 0 32) w.2) (2 * i + 1) (w.1.extractLsb' 32 32) w.2) Row.zero

/-- 64-bit word i of the rows of a packet. -/
def packetWord (p : Packet) (i : Nat) : W64 × Bool :=
  rowHbmWord (p.rows.getD (i / rowHbmWords p.side) Row.zero) (i % rowHbmWords p.side)

/-- 64-bit words of a packet's range in HBM. -/
def packetWords (p : Packet) : Nat := p.count * rowHbmWords p.side

/-- The requests of words `first` to `first + n - 1` of a packet whose words lie at `addr`: one for each aligned block of 64 bytes
that they touch (assumption 121). -/
def wordReqs (addr : Nat → Option Nat) (rq job : Nat) : Nat → Nat → List HbmReq
  | _, 0 => []
  | first, n + 1 =>
    match addr first with
    | none => wordReqs addr rq job (first + 1) n
    | some a =>
      match wordReqs addr rq job (first + 1) n with
      | [] => [{ chan := addrChan a, rq := rq, job := job, first := first, n := 1 }]
      | r :: l =>
        if (a / 8 + 1) % 8 ≠ 0 ∧ r.first = first + 1 then { r with first := first, n := r.n + 1 } :: l
        else { chan := addrChan a, rq := rq, job := job, first := first, n := 1 } :: r :: l

/-- The device physical address of word i of a packet (R363). -/
def packetAddr (h : Hbm) (p : Packet) (i : Nat) : Option Nat := hbmTranslate h p.job (p.haddr + 8 * i)

/-- A packet joins its channel controllers with its requests, for requester rq; `place` is its entry router (R355, R356). A write cut
before its first row asks for nothing. -/
def queuePacket (place rq : Nat) (p : Packet) (h : Hbm) : Hbm :=
  let rs := wordReqs (packetAddr h p) rq h.nextJob 0 (packetWords p)
  if rs.isEmpty then h else { h with
    jobs := h.jobs ++ [{ id := h.nextJob, pkt := p, place := place, left := rs.length, words := [] }]
    nextJob := h.nextJob + 1
    reqs := h.reqs ++ rs }

/-- The requesters with a request at a channel (R336). -/
def chanWants (h : Hbm) (chan : Nat) : List Nat :=
  (List.range 9).filter fun q => h.reqs.any fun r => decide (r.chan = chan) && decide (r.rq = q)

/-- Does a channel grant nothing at slot p: its stack does not stand in service (R370), or its grant limit leaves the cycle out
(R432)? -/
def chanHeld (h : Hbm) (p chan : Nat) : Bool :=
  let k := getStack h (chan / 32)
  !decide (k.state = 2) || decide (p % max 1 k.slow ≠ 0)

/-- The job of the oldest request of requester q at a channel. -/
def chanJob (h : Hbm) (chan q : Nat) : Nat :=
  match h.reqs.find? fun r => decide (r.chan = chan) && decide (r.rq = q) with
  | some r => ((h.jobs.find? fun j => decide (j.id = r.job)).map fun j => j.pkt.job).getD 255
  | none => 255

/-- One grant cycle of a channel's arbiter at slot p: nothing while its stack holds them or its last grant is not yet served; fettling
when no requester is granted (R333, R356, R361, R370, R432). -/
def chanCycle (v : ArbVals) (p chan : Nat) (a : ArbInst) (h : Hbm) : Hbm × ArbInst :=
  let wants := chanWants h chan
  let busy := decide (0 < smGet 0 h.granted chan) && decide (smGet 0 h.granted chan < 10)
  if busy || chanHeld h p chan then (h, a)
  else
    let r := arbCycle v 9 p false (fun _ => true) (keepAsking wants a) wants
    ({ h with
       granted := smSet 0 h.granted chan (match r.2 with
         | some q => q + 1
         | none => 10)
       grants := if r.2.isSome then smMod 0 h.grants (chanJob h chan (r.2.getD 9)) (· + 1) else h.grants }, r.1)

/-- One grant cycle of the 64 channel controllers of field f (R333, R346). -/
def hbmCycle (f : Nat) (h : Hbm) : Hbm :=
  let b := takeBank false (smGet ArbBank.reset h.arbs f)
  let r := (List.range 64).foldl (fun (acc : Hbm × SMap ArbInst) n =>
    let c := chanCycle b.set_.eff b.ptr (64 * f + n) (smGet ArbInst.reset acc.2 n) acc.1
    (c.1, smSet ArbInst.reset acc.2 n c.2)) (h, b.insts)
  { r.1 with arbs := smSet ArbBank.reset r.1.arbs f { b with ptr := (b.ptr + 1) % 64, insts := r.2 } }

/-- The words of a packet that a request reads, decoded; each word of a page marked CRAZED is crazed (R359, R367). -/
def readReq (now : Nat) (bad : List Nat) (j : HbmJob) (r : HbmReq) (h : Hbm) : SMap (W64 × Bool) × Hbm :=
  (List.range r.n).foldl (fun (acc : SMap (W64 × Bool) × Hbm) i =>
    match packetAddr acc.2 j.pkt (r.first + i) with
    | none => acc
    | some a =>
      let q := hbmReadWord now bad a acc.2
      (smSet (0#64, false) acc.1 (r.first + i)
        (q.1.data, q.1.crazed || pageCrazed acc.2 j.pkt.job (j.pkt.haddr + 8 * (r.first + i))), q.2)) (j.words, h)

/-- The words of a packet that a request writes, with their device addresses. -/
def reqWrites (h : Hbm) (j : HbmJob) (r : HbmReq) : List (Nat × W64 × Bool) :=
  (List.range r.n).filterMap fun i =>
    (packetAddr h j.pkt (r.first + i)).map fun a => (a, packetWord j.pkt (r.first + i))

/-- A granted request of a packet is served: its words are written or read (R356 to R360). -/
def serveReq (now : Nat) (bad : List Nat) (j : HbmJob) (r : HbmReq) (h : Hbm) : HbmJob × Hbm :=
  match j.pkt.typ with
  | .hbmWrite => ({ j with left := j.left - 1 }, hbmWriteWords now bad (reqWrites h j r) h)
  | _ =>
    let q := readReq now bad j r h
    ({ j with left := j.left - 1, words := q.1 }, q.2)

/-- A channel serves what it granted: the packet, when all its requests are served, or nothing; for fettling the next burst of the
channel (R356, R361). `bad` says whether the stack reports each of the two bursts as uncorrectable (assumption 121). -/
def serveChan (now : Nat) (bad : Nat → List Nat) (chan : Nat) (h : Hbm) : Option HbmJob × Hbm :=
  let g := smGet 0 h.granted chan
  let h1 := { h with granted := smSet 0 h.granted chan 0 }
  if g = 0 then (none, h)
  else if g = 10 then
    let k := smGet 0 h.fettle chan
    let b := chanAddr chan (32 * k) / 32
    (none, { hbmFettle now (bad b) b h1 with fettle := smSet 0 h1.fettle chan ((k + 1) % chanBursts) })
  else
    match h1.reqs.find? fun r => decide (r.chan = chan) && decide (r.rq + 1 = g) with
    | none => (none, h1)
    | some r =>
      match h1.jobs.find? fun j => decide (j.id = r.job) with
      | none => (none, { h1 with reqs := h1.reqs.erase r })
      | some j =>
        let b := ((packetAddr h1 j.pkt r.first).getD 0) / 64 * 2
        let q := serveReq now (bad b) j r { h1 with reqs := h1.reqs.erase r }
        if q.1.left = 0 then (some q.1, { q.2 with jobs := q.2.jobs.filter fun x => !decide (x.id = j.id) })
        else (none, { q.2 with jobs := q.2.jobs.map fun x => if x.id = j.id then q.1 else x })

/-- The packets at the channel controllers of partition p, and the partitions without them and their requests: each is answered
FENCED (R565). -/
def dropJobs (p : Nat) (h : Hbm) : List HbmJob × Hbm :=
  let gone := h.jobs.filter fun j => h.reqs.any fun r => decide (r.job = j.id) && decide (r.chan / 64 = p)
  let ids := gone.map (·.id)
  (gone, { h with
    jobs := h.jobs.filter fun j => !ids.contains j.id
    reqs := h.reqs.filter fun r => !ids.contains r.job
    granted := smMap 0 (fun c g => if c / 64 = p then 0 else g) h.granted })

/-- A little-endian number. -/
def numLE : List Byte → Nat
  | [] => 0
  | b :: l => b.toNat + 256 * numLE l

/-- One 64-bit word of a byte write: word w0 of the range from v on, at device address a, from bytes `arr`; a word that the bytes do
not fill is read, decoded and counted (R359, R360). `crz` lists the byte offsets that arrived as failures, each of which crazes
its word (R358, R552). -/
def byteWrite (now : Nat) (v : Nat) (arr : Array Byte) (crz : List Nat) (w0 a : Nat) (h : Hbm) : (Nat × W64 × Bool) × Hbm :=
  let bad := crz.any fun o => decide (w0 ≤ v + o) && decide (v + o < w0 + 8)
  if v ≤ w0 ∧ w0 + 8 ≤ v + arr.size then
    ((a, BitVec.ofNat 64 (numLE ((List.range 8).map fun k => arr.getD (w0 + k - v) 0#8)), bad), h)
  else
    let q := hbmReadWord now [] a h
    let byteAt := fun (k : Nat) =>
      if w0 + k ≥ v then match arr[w0 + k - v]? with
        | some b => b
        | none => q.1.data.extractLsb' (8 * k) 8
      else q.1.data.extractLsb' (8 * k) 8
    ((a, BitVec.ofNat 64 (numLE ((List.range 8).map byteAt)), bad || q.1.crazed), q.2)

/-- The 64-bit words that hold bytes l from address v on, with the words read for it counted. -/
def byteWrites (now : Nat) (tr : Nat → Option Nat) (v : Nat) (l : List Byte) (crz : List Nat) (h : Hbm) :
    List (Nat × W64 × Bool) × Hbm :=
  let arr := l.toArray
  let r := (List.range ((v % 8 + l.length + 7) / 8)).foldl (fun (acc : List (Nat × W64 × Bool) × Hbm) i =>
    let w0 := v / 8 * 8 + 8 * i
    match tr w0 with
    | none => acc
    | some a =>
      let q := byteWrite now v arr crz w0 a acc.2
      (q.1 :: acc.1, q.2)) ([], h)
  (r.1.reverse, r.2)

/-- Write bytes into job j's pages. -/
def hbmWriteBytes (now j v : Nat) (l : List Byte) (crz : List Nat) (h : Hbm) : Hbm :=
  let r := byteWrites now (hbmTranslate h j) v l crz h
  hbmWriteWords now [] r.1 r.2

/-- Write bytes at a device physical address (the device-reserved area, R365). -/
def devWriteBytes (now a : Nat) (l : List Byte) (h : Hbm) : Hbm :=
  let r := byteWrites now some a l [] h
  hbmWriteWords now [] r.1 r.2

/-- The eight bytes of a decoded word, each with whether it reads crazed. -/
def wordBytes (d : W64) (crazed : Bool) : List (Byte × Bool) := (List.range 8).map fun k => (d.extractLsb' (8 * k) 8, crazed)

/-- Read n bytes of job j from v on, decoding and counting each 64-bit word once (R359); a word of no page reads crazed. -/
def hbmReadBytes (now j v n : Nat) (h : Hbm) : List (Byte × Bool) × Hbm :=
  let v0 := v / 8 * 8
  let r := (List.range ((v % 8 + n + 7) / 8)).foldl (fun (acc : List (List (Byte × Bool)) × Hbm) i =>
    match hbmTranslate acc.2 j (v0 + 8 * i) with
    | some a =>
      let q := hbmReadWord now [] a acc.2
      (wordBytes q.1.data (q.1.crazed || pageCrazed acc.2 j (v0 + 8 * i)) :: acc.1, q.2)
    | none => (List.replicate 8 (0#8, true) :: acc.1, acc.2)) ([], h)
  ((r.1.reverse.flatten.drop (v % 8)).take n, r.2)

/-- Read n bytes at a device physical address, decoding and counting each 64-bit word once (R359). -/
def devReadBytes (now a n : Nat) (h : Hbm) : List (Byte × Bool) × Hbm :=
  let r := (List.range ((a % 8 + n + 7) / 8)).foldl (fun (acc : List (List (Byte × Bool)) × Hbm) i =>
    let q := hbmReadWord now [] (a / 8 * 8 + 8 * i) acc.2
    (wordBytes q.1.data q.1.crazed :: acc.1, q.2)) ([], h)
  ((r.1.reverse.flatten.drop (a % 8)).take n, r.2)

/-! ### Mapping a job's pages (R366) -/

/-- Pages of a partition below the device-reserved area (R362, R365). -/
def partPages : Nat := 24576
/-- The first device-reserved page of a partition. -/
def partFree : Nat := 24320
/-- Entries a job run may lie in (R365). -/
def runLimit : Nat := 194560

/-- The runs held, as (first, count), by ascending job. -/
def heldRuns (h : Hbm) : List (Nat × Nat) := (List.range 32).filterMap (jobRun h)

/-- Does the run of n entries from f on overlap no held run? -/
def runFree (h : Hbm) (f n : Nat) : Bool := (heldRuns h).all fun r => decide (f + n ≤ r.1) || decide (r.1 + r.2 ≤ f)

/-- The lowest run of n entries that no job holds: it starts at 0 or where a held run ends. -/
def findRun (h : Hbm) (n : Nat) : Option Nat :=
  let starts := (0 :: (heldRuns h).map fun r => r.1 + r.2).filter fun f => decide (f + n ≤ runLimit) && runFree h f n
  match starts with
  | [] => none
  | s :: l => some (l.foldl min s)

/-- The pages that a VALID entry names. -/
def usedPages (h : Hbm) : List Nat := h.entries.filterMap fun e => if entValid e.2 then some (entPage e.2) else none

/-- The lowest free page of partition p from page q on, within `fuel` pages. -/
def freePage (used : List Nat) (p : Nat) : Nat → Nat → Option Nat
  | 0, _ => none
  | fuel + 1, q => if q ≥ p * partPages + partFree then none
      else if used.contains q then freePage used p fuel (q + 1) else some q

/-- The order with the elements before the first `p` moved behind. -/
def rotateTo (p : Nat) (l : List Nat) : List Nat := l.dropWhile (fun x => x ≠ p) ++ l.takeWhile (fun x => x ≠ p)

/-- The page for job page v: the lowest free page of its partition, else of the next candidate that has one; `nexts`
holds for each partition the page its search starts at, below which nothing is free. -/
def pickPage (used : List Nat) (nexts : SMap Nat) (order : List Nat) : Option (Nat × Nat) :=
  order.foldl (fun acc p =>
    match acc with
    | some r => some r
    | none => (freePage used p partPages (max (p * partPages) (smGet 0 nexts p))).map fun q => (p, q)) none

/-- Pages for job pages v, v + 1, ..., n of them (R366). -/
def pickPages (used : List Nat) (own order : List Nat) : Nat → Nat → SMap Nat → Option (List Nat)
  | 0, _, _ => some []
  | n + 1, v, nexts =>
    let p := own.getD (v % max 1 own.length) 0
    match pickPage used nexts (rotateTo p order) with
    | none => none
    | some (p', q) => (pickPages used own order n (v + 1) (smSet 0 nexts p' (q + 1))).map (q :: ·)

/-- The candidate order and the job's own candidates: the job's fields' partitions that are candidates in ascending
order, then the others (R366). -/
def pageOrder (cand fields : List Nat) : List Nat × List Nat :=
  let own := cand.filter fields.contains
  let rest := cand.filter fun p => !fields.contains p
  (if own.isEmpty then cand else own, own ++ rest)

/-- Map n pages for job j: its entries and its run, or none: NO_CAPACITY (R366). `held` are pages that device saves hold
(R536). -/
def mapPages (h : Hbm) (held : List Nat) (j n : Nat) (cand fields : List Nat) : Option Hbm :=
  let o := pageOrder cand fields
  match findRun h n, pickPages (usedPages h ++ held) o.1 o.2 n 0 [] with
  | some first, some qs =>
    some { h with
      runs := smSet 0#64 h.runs j (runWord first n)
      entries := qs.zipIdx.foldl (fun m q => smSet 0#64 m (first + q.2) (newEntry j q.1)) h.entries }
  | _, _ => none

/-- Every word of the pages of job j zero and clean (R527). -/
def zeroJobPages (h : Hbm) (j : Nat) : Hbm :=
  let pages := (runEntries h j).map fun i => entPage (pageEntry h i)
  { h with words := smMap 0#72 (fun k w => if pages.contains (k / 0x80000) then 0#72 else w) h.words }

/-- The entries and the run of job j removed (R364). -/
def unmapPages (h : Hbm) (j : Nat) : Hbm :=
  { modEntries h (runEntries h j) (fun _ => 0#64) with runs := smSet 0#64 h.runs j 0#64 }

/-- CRAZED set on every job page of partition p (R367). -/
def crazePartition (h : Hbm) (p : Nat) : Hbm :=
  { h with entries := smMap 0#64 (fun _ e =>
      if entValid e && !entDev e && decide (entPage e / partPages = p) then setField e 62 1 1 else e) h.entries }

/-- The device-reserved entries that glaze firing writes (R365). -/
def reservedEntries (h : Hbm) : Hbm :=
  { h with entries := (List.range 2048).foldl (fun m i =>
      smSet 0#64 m (runLimit + i) (BitVec.ofNat 64 (2 ^ 63 + 2 ^ 59 + (i / 256 * partPages + partFree + i % 256)))) h.entries }

/-! ### Stacks -/

/-- A temperature reading of stack s: a change of more than 10 degrees from TRAIN_TEMP starts a retraining (R368,
R369). -/
def stackReading (s t : Nat) (h : Hbm) : Hbm :=
  let k := getStack h s
  let h1 := setStack h s { k with temp := t % 256 }
  if t % 256 > k.trainTemp + 10 ∨ k.trainTemp > t % 256 + 10 then startRetrain h1 s else h1

/-- A retraining, or one of the three retries of a failed one, ends: converged, or failed; after the third failed
retry the partition is to be reset and its channels enter the fault history (R371). -/
def endRetrain (s : Nat) (ok : Bool) (stall : Nat) (failing : List Nat) (h : Hbm) : Hbm :=
  let k := getStack h s
  if k.state = 3 ∨ (k.state = 4 ∧ 1 ≤ k.attempts ∧ k.attempts ≤ 3) then
    let n := if k.state = 4 then sat16 k.retrains 1 else k.retrains
    if ok then setStack h s { k with state := 2, trainTemp := k.temp, lastStall := min stall 0xFFFF, attempts := 0, retrains := n }
    else
      let h1 := setStack h s { k with state := 4, attempts := k.attempts + 1, lastStall := min stall 0xFFFF, retrains := n }
      if k.attempts + 1 = 4 then
        { h1 with resetDue := h1.resetDue ++ [s / 2]
                  events := h1.events ++ failing.map fun c => (2, s / 2 * 64 + 32 * (s % 2) + c % 32) }
      else h1
  else h

end Sys2Proof.Machine
end

