-- ==== Sys2Proof/Machine/Issue.lean ====
section
/-!
DEFINITION. Sys2Proof/Machine/Issue.lean: the issue unit of one core: fetching, the checks at issue, control and
address instructions, hardware loops, post-increments, queueing, platform stops, release, and the slot update
(R151 to R193, R203 to R212).
-/

namespace Sys2Proof.Machine

/-! ### Operand forms -/

/-- A signed 32-bit stride extended to 48 bits (R160). -/
def strideExt (s : W32) : W48 := s.signExtend 48

/-- Is the loop iteration the last of the innermost open loop, or is no loop open (Table 5.2)? -/
def lastIteration (loops : List HwLoop) : Bool :=
  match loops with
  | [] => true
  | l :: _ => decide (l.remain = 0)

/-- The amount a post-increment selector adds to a register over n repeats (R162, Table 5.2). -/
def incAmount (a : AReg) (sel n : Nat) (last : Bool) : W48 :=
  (if sel % 2 = 1 then BitVec.ofNat 48 n * strideExt a.stride0 else 0#48) +
  (if sel ≥ 2 ∧ last then strideExt a.stride1 else 0#48)

/-- Apply the post-increments of an operation in operand order (R162, R163). -/
def applyIncs (c : Core) (op : CoreOp) : Core :=
  let last := lastIteration c.stream.loops
  let n := opRepeats op
  let step := fun (c : Core) (o : Option (Nat × Nat)) => match o with
    | none => c
    | some (r, sel) => setAVal c r ((getA c r).value + incAmount (getA c r) sel n last)
  step (step c (opAregs op).1) (opAregs op).2

/-- The result of an address function (R211). -/
def addrResult (f : AddrFn) (s t : W48) : W48 :=
  let n := t.toNat % 64
  match f with
  | .add => s + t
  | .sub => s - t
  | .and => s &&& t
  | .or => s ||| t
  | .shl => if n < 48 then s <<< n else 0#48
  | .shr => if n < 48 then s >>> n else 0#48

/-- The second operand of an address function (R211). -/
def addrOperand (c : Core) : AddrSrc → W48
  | .reg t => (getA c t.toNat).value
  | .imm v => v.signExtend 48

/-! ### Loops -/

/-- The loop end handling after the instruction at position pc: the open loops and the next position (R169). -/
def loopEnd (pc : Nat) : List HwLoop → List HwLoop × Nat
  | [] => ([], pc + 1)
  | l :: ls =>
    if l.stop = pc then
      if l.remain > 0 then ({ l with remain := l.remain - 1 } :: ls, l.start) else loopEnd pc ls
    else (l :: ls, pc + 1)

/-- Does LOOP with body end e at position pc fault LOOP_DEPTH (R165)? -/
def loopBad (loops : List HwLoop) (pc e : Nat) : Bool :=
  decide (loops.length ≥ 4) || decide (e ≤ pc) ||
  match loops with
  | [] => false
  | l :: _ => decide (e > l.stop)

/-- The count a loop instruction latches (R164, R206); none for other operations. -/
def loopCount (c : Core) : CoreOp → Option (Nat × Nat)
  | .loop e n => some (e.toNat, n.toNat)
  | .loopr e a => some (e.toNat, (getA c a.toNat).value.toNat % 2 ^ 32)
  | _ => none

/-! ### The next instruction -/

/-- What issue meets next: nothing (the core does not run), a fault at issue, or an instruction. -/
inductive NextInsn where
  | idle
  | bad (code : FaultCode)
  | insn (i : CoreInsn)
deriving DecidableEq, Repr

/-- The checks made at issue, whatever WAIT names and whether or not the queue has room (R152, R165, R203, R251). -/
def nextInsn (c : Core) : NextInsn :=
  match c.stream.state with
  | .running =>
    if c.stream.pc ≥ 8192 then .bad .badOpcode
    else match decodeInsn (fetchWord c.stream c.stream.pc) with
      | none => .bad .badOpcode
      | some i =>
        match i.op with
        | .xfer .xput _ _ ad _ _ _ po _ _ _ =>
          if po = 1#1 ∧ getField (getA c ad.toNat).value 40 8 = 255 then .bad .badOpcode else .insn i
        | .loop e _ => if loopBad c.stream.loops c.stream.pc e.toNat then .bad .loopDepth else .insn i
        | .loopr e _ => if loopBad c.stream.loops c.stream.pc e.toNat then .bad .loopDepth else .insn i
        | _ => .insn i
  | _ => .idle

/-- The conditions of R153 for an instruction that issues next: its wait slot admits it when it executes at issue, its
queue has room, and it lies within 1,024 of the oldest incomplete instruction. -/
def issueReady (c : Core) (i : CoreInsn) : Bool :=
  let e := opEngine i.op
  (match e with
    | .issue => waitAdmits c i.wait
    | _ => decide ((engineQueue c e).length < 256)) &&
  decide (c.stream.icount - oldestOpen c c.stream.icount < 1024)

/-- The effect of a control or address operation on everything but the position; `now` is the time counter (R205 to
R212). NOTICE's message to the regulator is sent by the caller. -/
def execAtIssue (now : Nat) (c : Core) (op : CoreOp) : Core :=
  match op with
  | .time ad => setAVal c ad.toNat (BitVec.ofNat 48 now)
  | .mark t => { c with stream := { c.stream with markTag := t, markIcount := c.stream.icount } }
  | .set ad imm => setAVal c ad.toNat (imm.setWidth 48)
  | .sethi ad imm => setAVal c ad.toNat (imm ++ (getA c ad.toNat).value.extractLsb' 0 32)
  | .sets ad sel imm =>
    let a := getA c ad.toNat
    setA c ad.toNat (if sel = 0#1 then { a with stride0 := imm } else { a with stride1 := imm })
  | .addr f ad a src => setAVal c ad.toNat (addrResult f (getA c a.toNat).value (addrOperand c src))
  | .stop id => { c with stream :=
      { c.stream with state := .stopping, stopKind := .stop id.toNat, stopPhase := .drain, stopPc := c.stream.pc,
                      stopIcount := c.stream.icount, stopId := id.toNat } }
  | .halt => { c with stream :=
      { c.stream with state := .stopping, stopKind := .halt, stopPhase := .drain, stopPc := c.stream.pc,
                      stopIcount := c.stream.icount } }
  | _ => c

/-- The position and loops after an instruction at pc issues: a loop instruction opens its body or skips it, any other
instruction goes through the loop end handling (R166, R167, R169). -/
def issueNext (c : Core) (op : CoreOp) : List HwLoop × Nat :=
  let pc := c.stream.pc
  match loopCount c op with
  | some (e, n) =>
    if n = 0 then (c.stream.loops, e + 1)
    else ({ start := pc + 1, stop := e, remain := n - 1 } :: c.stream.loops, pc + 1)
  | none => loopEnd pc c.stream.loops

/-- The instruction issues: it executes and completes at issue, or captures its address registers and joins its queue
(R153, R154, R204). -/
def issueInsn (now : Nat) (c : Core) (i : CoreInsn) : Core :=
  let nxt := issueNext c i.op
  let e := opEngine i.op
  let c1 := match e with
    | .issue =>
      let g := waitGen c i.wait
      postField (releaseWait (execAtIssue now (admitWait c i.wait) i.op) i.wait g) i.post
    | _ =>
      let ar := opAregs i.op
      let cap := fun (o : Option (Nat × Nat)) => match o with
        | none => AReg.zero
        | some (r, _) => getA c r
      let q : QEntry := { insn := i, pc := c.stream.pc, icount := c.stream.icount, ra := cap ar.1, rd := cap ar.2,
                          admitted := false, gen := 0 }
      setQueue (applyIncs c i.op) e (engineQueue c e ++ [q])
  { c1 with stream := { c1.stream with
      pc := nxt.2, loops := nxt.1, icount := (c1.stream.icount + 1) % 2 ^ 48 } }

/-- An issue-time fault: the instruction has no effect (R199) (assumption 116). -/
def issueFault (c : Core) (code : FaultCode) : Core := coreFault c code .issue c.stream.pc c.stream.icount

/-- Issue whatever is next when `sel` accepts it and its conditions hold; otherwise the core is unchanged. -/
def issueIf (sel : NextInsn → Bool) (now : Nat) (c : Core) : Core :=
  let n := nextInsn c
  if sel n then
    match n with
    | .idle => c
    | .bad code => issueFault c code
    | .insn i => if issueReady c i then issueInsn now c i else c
  else c

/-- Accept an instruction with opcode byte b. -/
def selOp (b : BitVec 8) (n : NextInsn) : Bool :=
  match n with
  | .insn i => decide (opByte i.op = b)
  | _ => false

/-- The opcode byte of the word at the next position, whatever its other fields hold. -/
def nextByte (c : Core) : BitVec 8 := (fetchWord c.stream c.stream.pc).extractLsb' 56 8

/-- Accept a loop instruction with opcode byte b, or the LOOP_DEPTH fault it raises. -/
def selLoop (b : BitVec 8) (c : Core) (n : NextInsn) : Bool :=
  match n with
  | .insn i => decide (opByte i.op = b)
  | .bad .loopDepth => decide (nextByte c = b)
  | _ => false

/-- The NOTICE that issues when the core issues under `sel`: its level and delay (R185, R208). -/
def noticeOf (sel : NextInsn → Bool) (c : Core) : Option (Nat × Nat) :=
  match nextInsn c with
  | .insn i =>
    if sel (nextInsn c) && issueReady c i then
      match i.op with
      | .notice l d => some (l.toNat, max 64 d.toNat)
      | _ => none
    else none
  | _ => none

/-! ### Stops and release -/

/-- Invalidate both activation buffers and set the mode to NONE (R81). -/
def clearMode (c : Core) : Core :=
  { c with matrix := { c.matrix with mode := none, front := { c.matrix.front with valid := false },
                                     back := { c.matrix.back with valid := false } } }

/-- Commit CORE.SLAB_PWR: the shadow takes effect, and banks whose requested state differs start their transition (R15, R141,
R142). -/
def commitPwr (c : Core) : Core :=
  { c with slab := { c.slab with
      pwrEff := c.slab.pwrReq, closing := c.slab.pwrReq &&& ~~~c.slab.off, rising := c.slab.off &&& ~~~c.slab.pwrReq,
      closeCc := c.cc } }

/-- Are bank transitions under way (CORE.SLAB_PWR_STATE.BUSY)? -/
def banksBusy (c : Core) : Bool := !(decide (c.slab.closing = 0#36) && decide (c.slab.rising = 0#36))

/-- Commit CORE.IMEM_CTL.SWITCH (R196). -/
def commitImem (c : Core) : Core :=
  if c.stream.switchReq then
    { c with stream := { c.stream with bankB := !c.stream.bankB, switchReq := false, switched := true } }
  else { c with stream := { c.stream with switched := false } }

/-- A new step segment starts with no barrier ordinals kept: they restart at each stop (R266). -/
def restartOrdinals (c : Core) : Core := { c with sync := { c.sync with ordinals := [] } }

/-- The end of a platform stop once the bank transitions have ended: the stop counts, the core arrives or halts and
tells the signal box (R188). -/
def stopArrive (c : Core) (id : Nat) : Core :=
  let n := (c.stream.stopCount + 1) % 2 ^ 32
  let st := if c.stream.haltEn && decide (n = c.stream.haltAt) then CoreSt.halted else CoreSt.arrived
  let c1 := restartOrdinals { c with stream := { c.stream with stopCount := n, state := st, stopKind := .none, atStop := true } }
  sendPkts c1 [{ mkPkt c .control boxSite with ctl := some (.arrival id n) }]

/-- The drained stop: the accumulator check, the commits, and the arrival when no bank is in transition (R188). -/
def stopDrained (c : Core) : Core :=
  match c.stream.state, c.stream.stopKind, c.stream.stopPhase with
  | .stopping, .stop id, .drain =>
    if coreDrained c then
      if c.matrix.live ≠ 0#1024 then coreFault c .accLive .stop c.stream.stopPc c.stream.stopIcount
      else
        let c1 := commitImem (commitPwr (clearMode c))
        if banksBusy c1 then { c1 with stream := { c1.stream with stopPhase := .banks } } else stopArrive c1 id
    else c
  | .stopping, .stop id, .banks => if banksBusy c then c else stopArrive c id
  | _, _, _ => c

/-- The drained HALT: HALTED without checks, commits or count (R193). -/
def haltDrained (c : Core) : Core :=
  match c.stream.state, c.stream.stopKind with
  | .stopping, .halt =>
    if coreDrained c then { c with stream := { c.stream with
      state := .halted, stopKind := .none, switched := false, atStop := false } }
    else c
  | _, _ => c

/-- Both slab arbiters go to slot 0, which counts as a wrap for an armed commit (R347, R344). -/
def restartArbiters (c : Core) : Core :=
  let r := takeSingle c.arbRd { c.rd with ptr := 0 }
  let w := takeSingle c.arbWr { c.wr with ptr := 0 }
  { c with rd := r.2, wr := w.2, arbRd := r.1, arbWr := w.1 }

/-- May CORE.STOP_CTL.RELEASE resume the core (R191, R192)? -/
def releasable (c : Core) : Bool :=
  match c.stream.state with
  | .arrived => true
  | .halted => !c.stream.haltEn
  | .idle => c.stream.entryEn
  | _ => false

/-- RELEASE resumes the core at its resume point and starts a step segment (R191, R192, R347, R543). -/
def releaseCore (c : Core) : Core :=
  if releasable c then
    let st := c.stream
    let pc := if st.entryEn then st.entry else if st.switched then 0 else st.pc
    let loops := if st.entryEn || st.switched then [] else st.loops
    restartArbiters
      { c with
          stream := { st with
            state := .running, pc := pc, loops := loops, entryEn := false, switched := false, atStop := false },
          lockDrain := BitVec.allOnes 64, lockStore := BitVec.allOnes 64, stepCc := 0 }
  else c

/-- Have a core's slab arbiters taken every armed commit (R348)? -/
def coreArbsTaken (c : Core) : Bool := !c.arbRd.armed && !c.arbWr.armed

/-! ### Slot update -/

/-- The members of a rectangle of virtual cores as (vx, vy), clipped to nothing. -/
def rectCores (x y w h : Nat) : List (Nat × Nat) :=
  (List.range h).flatMap fun j => (List.range w).map fun i => (x + i, y + j)

/-- The placement entry of a virtual core; none outside the virtual grid (R294). -/
def placeOf (p : Place) (vx vy : Nat) : Option PlaceEnt :=
  if vx < p.vw ∧ vy < p.vh then p.table[vy * p.vw + vx]? else none

/-- The sites of the unfenced members of a rectangle (R323). -/
def rectSites (p : Place) (x y w h : Nat) : List Nat :=
  (rectCores x y w h).filterMap fun v =>
    match placeOf p v.1 v.2 with
    | some e => if e.fenced then none else some e.site
    | none => none

/-- The smallest rectangle of sites that holds every site of l (R323). -/
def boundingRect (l : List Nat) : Rect :=
  match l with
  | [] => Rect.zero
  | s :: l => l.foldl (fun r t =>
      { x0 := min r.x0 (t % 64), y0 := min r.y0 (t / 64), x1 := max r.x1 (t % 64), y1 := max r.y1 (t / 64) })
      { x0 := s % 64, y0 := s / 64, x1 := s % 64, y1 := s / 64 }

/-- A multicast packet of this core to the rectangle (R323). -/
def mcastPkt (c : Core) (t : PktType) (x y w h : Nat) : Packet :=
  { mkPkt c t c.place.site with
    mcast := true
    prect := boundingRect (rectSites c.place x y w h)
    vrect := { x0 := x, y0 := y, x1 := x + w - 1, y1 := y + h - 1 } }

/-- Send one credit to every core of slot n's producer rectangle; SENT counts one per member (R178, CORE.SYNC_CREDITS). -/
def sendCredits (c : Core) (n : Nat) : Core :=
  let s := getSlot c n
  let p := { mcastPkt c .credit s.px0 s.py0 (s.pw + 1) (s.ph + 1) with slot := n }
  sendPkts { c with sync := { c.sync with
      creditsSent := (c.sync.creditsSent + (s.pw + 1) * (s.ph + 1)) % 2 ^ 32 } } [p]

/-- The slot procedure of R175 on one slot: the new slot, whether it became EMPTY, and the overposts. -/
def slotCycle (s : Slot) : Slot × Bool × Nat :=
  let nrel := s.released + s.releases
  let empties := s.full && decide (nrel ≥ s.ccount)
  let u : Slot := if empties then { s with full := false, released := 0, admitted := 0 } else { s with released := nrel }
  let extra := if u.full then s.posts else 0
  let posted := min (u.posted + s.posts) 255
  let fills := !u.full && decide (posted ≥ u.pcount)
  ({ u with full := if fills then true else u.full, posted := if fills then posted - u.pcount else posted,
             posts := 0, releases := 0 }, empties, extra)

/-- The slot procedure on slot n of a core (R175, R176, R178). -/
def updateSlot (c : Core) (n : Nat) : Core :=
  let r := slotCycle (getSlot c n)
  let c1 := setSlot c n r.1
  let c2 := { c1 with sync := { c1.sync with overposts := sat16 c1.sync.overposts r.2.2 } }
  if r.2.1 && r.1.remote then sendCredits c2 n else c2

/-- The slot procedure on every slot (R175); on a slot at its reset value it does nothing. -/
def updateSlots (c : Core) : Core :=
  ((List.range 256).filter fun n => !decide (getSlot c n = Slot.reset)).foldl updateSlot c

end Sys2Proof.Machine
end

