-- ==== Sys2Proof/Machine/Mesh.lean ====
section
/-!
DEFINITION. Sys2Proof/Machine/Mesh.lean: the mesh: its routers and links, the places and units at the die's edge, routes,
multicast trees and local ports (R302 to R332).
-/

namespace Sys2Proof.Machine

/-! ### State -/

/-- A router and its local port (FIELDf.MESH_PORT_n). -/
structure RouterPort where
  bypass : Bool
  closed : Bool
  reason : Nat
  linkErr : Nat
  drops : Nat
deriving DecidableEq, Repr

/-- A router after reset: bypassed, its port closed with reason 4 (R332). -/
def RouterPort.reset : RouterPort := { bypass := true, closed := true, reason := 4, linkErr := 0, drops := 0 }

/-- The mesh registers of one field (Table 9.8). -/
structure FieldMesh where
  route : W64
  linkErr : Nat
  headerDrop : Nat
  noroute : Nat
  mcastDrop : Nat
  mcastSplit : Nat
  fencedDrop : Nat
deriving DecidableEq, Repr

/-- A field's mesh registers after reset. -/
def FieldMesh.reset : FieldMesh :=
  { route := 0#64, linkErr := 0, headerDrop := 0, noroute := 0, mcastDrop := 0, mcastSplit := 0, fencedDrop := 0 }

/-- A router's ports. -/
inductive RPort where
  | north | east | south | west | loc
deriving DecidableEq, Repr

/-- An output that the packet at the front of an input buffer goes to: the lane it took, whether it has taken the flit at the
front, whether its HEAD was sent, and whether a fork dropped it (R324, R326). -/
structure Branch where
  port : RPort
  lane : Option Nat
  took : Bool
  sent : Bool
  dropped : Bool
deriving DecidableEq, Repr

/-- One VC of one input: its buffer, oldest first; whether a packet is open on it and whether that is being discarded (R306,
R309); the header of the packet at the front and the outputs it goes to. -/
structure VcIn where
  buf : List Flit
  isOpen : Bool
  discard : Bool
  hdr : Option Packet
  branches : List Branch
deriving DecidableEq, Repr

/-- An empty VC. -/
def VcIn.reset : VcIn := { buf := [], isOpen := false, discard := false, hdr := none, branches := [] }

/-- One VC of one output lane: the credits in use, the input VC whose packet holds it until its TAIL, and an ABORT tail that waits
for a credit (R307, R308, R326). -/
structure VcOut where
  used : Nat
  owner : Option Nat
  abortDue : Bool
deriving DecidableEq, Repr

/-- A VC with every credit free. -/
def VcOut.reset : VcOut := { used := 0, owner := none, abortDue := false }

/-- A seam crossing (R320, R381 to R383): its write pointer less the sender's cycles, its read pointer less the receiver's, and
the last entry that was no idle flit without credits. -/
structure Crossing where
  w : Int
  r : Int
  last : Int
deriving DecidableEq, Repr

/-- A calibrated crossing: a separation of 4 entries (R381). -/
def Crossing.reset : Crossing := { w := 4, r := 0, last := -16 }

/-- A packet that has reached a core's port, or an edge unit. -/
structure Arrived where
  place : Nat
  pkt : Packet
deriving DecidableEq, Repr

/-- The mesh. A place is a site, a site + 4,096 for the channel controllers at its north or south port, or a site + 8,192 for the
side-band unit at its west or east port. Lanes: 0 north A, 1 north B, 2 east, 3 south A, 4 south B, 5 west, 6 local injection, 7
local ejection. `ins` and `outs` are keyed (place x 8 + lane) x 8 + VC, `links` and `credits` place x 8 + lane by the receiver and
the sender. `feeds` holds the flits that wait to enter at lane 6 and `asm` those of a packet that is arriving, keyed as `ins`;
`arrived` the packets delivered and not yet taken, `edge` the packets that edge units have to inject. `ccs` counts the cycles of
each field since its clock started, `flits` the flits that routers sent on links since the last die estimate, by job, `crossings` stand under the
receiving link at the seam, `holdCc` and `recentres` under the receiving field (FIELDf.CLK_SEAM). `repairs` is keyed site x 4 +
direction; `events` holds unit keys of fault-history events not yet entered. -/
structure Mesh where
  ports : SMap RouterPort
  fields : SMap FieldMesh
  ins : SMap VcIn
  outs : SMap VcOut
  links : SMap (List LinkFlit)
  credits : SMap (BitVec 5)
  feeds : SMap (List Flit)
  asm : SMap (List Flit)
  arrived : List Arrived
  edge : List Packet
  ccs : SMap Nat
  flits : SMap Nat
  crossings : SMap Crossing
  holdCc : SMap Nat
  recentres : SMap Nat
  repairs : SMap W32
  arbs : SMap ArbBank
  events : List Nat
deriving DecidableEq, Repr

/-- The mesh after reset. -/
def Mesh.reset : Mesh :=
  { ports := [], fields := [], ins := [], outs := [], links := [], credits := [], feeds := [], asm := [], arrived := [], edge := [],
    ccs := [], flits := [], crossings := [], holdCc := [], recentres := [], repairs := [], arbs := [], events := [] }

/-- The router of a site. -/
def getPort (m : Mesh) (s : Nat) : RouterPort := smGet RouterPort.reset m.ports s

/-- The mesh with f applied to the router of a site. -/
def modPort (m : Mesh) (s : Nat) (f : RouterPort → RouterPort) : Mesh := { m with ports := smMod RouterPort.reset m.ports s f }

/-- The mesh registers of field f. -/
def getFieldMesh (m : Mesh) (f : Nat) : FieldMesh := smGet FieldMesh.reset m.fields f

/-- The mesh with g applied to the registers of field f. -/
def modFieldMesh (m : Mesh) (f : Nat) (g : FieldMesh → FieldMesh) : Mesh :=
  { m with fields := smMod FieldMesh.reset m.fields f g }

/-- An input VC. -/
def getIn (m : Mesh) (k : Nat) : VcIn := smGet VcIn.reset m.ins k

/-- The mesh with an input VC replaced. -/
def setIn (m : Mesh) (k : Nat) (v : VcIn) : Mesh := { m with ins := smSet VcIn.reset m.ins k v }

/-- An output VC. -/
def getOut (m : Mesh) (k : Nat) : VcOut := smGet VcOut.reset m.outs k

/-- The mesh with an output VC replaced. -/
def setOut (m : Mesh) (k : Nat) (v : VcOut) : Mesh := { m with outs := smSet VcOut.reset m.outs k v }

/-- The flits on a link to a place's lane. -/
def getLink (m : Mesh) (k : Nat) : List LinkFlit := smGet [] m.links k

/-- The mesh with the flits on a link replaced. -/
def setLink (m : Mesh) (k : Nat) (l : List LinkFlit) : Mesh := { m with links := smSet [] m.links k l }

/-- The flits that wait to enter on a VC of a place. -/
def getFeed (m : Mesh) (k : Nat) : List Flit := smGet [] m.feeds k

/-- The mesh with those flits replaced. -/
def setFeed (m : Mesh) (k : Nat) (l : List Flit) : Mesh := { m with feeds := smSet [] m.feeds k l }

/-! ### Places on the die -/

/-- The column of a place. -/
def siteX (s : Nat) : Nat := s % 64
/-- The row of a place. -/
def siteY (s : Nat) : Nat := s % 4096 / 64
/-- The field a place's router lies in (R7). -/
def routerField (s : Nat) : Nat := siteY s / 20 * 4 + siteX s / 16
/-- The local index of a site in its field (R332). -/
def localIndex (s : Nat) : Nat := siteY s % 20 * 16 + siteX s % 16
/-- The place of the channel controllers behind an outer router. -/
def hbmPlace (s : Nat) : Nat := s + 4096
/-- The place of the side-band unit behind a router. -/
def bandPlace (s : Nat) : Nat := s + 8192
/-- Is the place a router? -/
def isRouter (p : Nat) : Bool := decide (p < 2560)

/-- The units of the side bands. -/
inductive SideUnit where
  | trunk (port : Nat)
  | box (b : Bool)
  | host (port : Nat)
deriving DecidableEq, Repr

/-- The units of the west bands from row 0 on, four rows each; none where the ports are tied off (Table 1.2). -/
def westUnits : List (Option SideUnit) :=
  [some (.trunk 0), some (.trunk 1), some (.box false), some (.host 0), none, some (.trunk 2), some (.trunk 3), some (.box true),
    some (.host 1), none]

/-- The units of the east bands (Table 1.2). -/
def eastUnits : List (Option SideUnit) :=
  [some (.trunk 4), some (.trunk 5), some (.trunk 6), some (.trunk 7), none, some (.trunk 8), some (.trunk 9), some (.trunk 10),
    some (.trunk 11), none]

/-- The side-band unit at a router's west or east port (R23, R26). -/
def sideUnit (s : Nat) : Option SideUnit :=
  if siteX s = 0 then (westUnits[siteY s / 4]?).join
  else if siteX s = 63 then (eastUnits[siteY s / 4]?).join
  else none

/-- The routers through whose outward ports a unit attaches, by rising row (R26). -/
def unitRouters (u : SideUnit) : List Nat :=
  (List.range 40).flatMap fun y => [y * 64, y * 64 + 63].filter fun s => decide (sideUnit s = some u)

/-- Every side-band unit. -/
def sideUnits : List SideUnit := (westUnits ++ eastUnits).filterMap id

/-- Is the router an edge entry router when it is not bypassed (R316)? -/
def edgeEntry (s : Nat) : Bool := (sideUnit s).isSome || decide (siteY s = 0) || decide (siteY s = 39)

/-- Is the router at (x, y) bypassed? -/
def bypassed (m : Mesh) (x y : Nat) : Bool := (getPort m (y * 64 + x)).bypass

/-- The entry router of partition p for local column j: the outer row, the other column of the column group when
bypassed (R318, R319, R355). -/
def entryRouter (m : Mesh) (p j : Nat) : Nat :=
  let y := if p < 4 then 0 else 39
  let x := 16 * (p % 4) + j
  if bypassed m x y then y * 64 + (16 * (p % 4) + (if j % 2 = 0 then j + 1 else j - 1)) else y * 64 + x

/-- The entry router of a side-band unit: the first of its routers that is not bypassed (R318). DESIGN CHOICE (assumption 101). -/
def unitEntry (m : Mesh) (u : SideUnit) : Option Nat := (unitRouters u).find? fun s => !bypassed m (siteX s) (siteY s)

/-- The outer-row router of partition p to which a side-band unit sends its HBM packets: local column 0 from a west band, 15 from
an east band, with the other column of its group for a bypassed one (R319). -/
def unitHbmRouter (m : Mesh) (u : SideUnit) (p : Nat) : Nat :=
  entryRouter m p (match (unitRouters u).head? with
    | some s => if siteX s = 0 then 0 else 15
    | none => 0)

/-! ### Links -/

/-- The lane at the other end of a link's lane. -/
def backLane (lane : Nat) : Nat :=
  match lane with
  | 0 => 3 | 1 => 4 | 2 => 5 | 3 => 0 | 4 => 1 | 5 => 2 | _ => lane

/-- The first router from s on in steps of `step` that is not bypassed, at most n steps away. -/
def walkTo (m : Mesh) (step : Int) : Nat → Nat → Option Nat
  | 0, _ => none
  | n + 1, s =>
    let t := ((s : Int) + step).toNat
    if bypassed m (siteX t) (siteY t) then walkTo m step n t else some t

/-- What a router's outward port carries on a lane: the channel controllers, or a side-band unit; none where it is tied off
(R23). -/
def outward (s lane : Nat) : Option Nat :=
  match lane with
  | 0 | 1 => if siteY s = 0 then some (hbmPlace s) else none
  | 3 | 4 => if siteY s = 39 then some (hbmPlace s) else none
  | 2 => if siteX s = 63 ∧ (sideUnit s).isSome then some (bandPlace s) else none
  | 5 => if siteX s = 0 ∧ (sideUnit s).isSome then some (bandPlace s) else none
  | _ => none

/-- The place at the other end of a lane of a place: the next router that is not bypassed in that direction, or the unit at the
die's edge (R23, R312). -/
def farPlace (m : Mesh) (p lane : Nat) : Option Nat :=
  if isRouter p then
    match lane with
    | 0 | 1 => if siteY p = 0 then outward p lane else walkTo m (-64) (siteY p) p
    | 3 | 4 => if siteY p = 39 then outward p lane else walkTo m 64 (39 - siteY p) p
    | 2 => if siteX p = 63 then outward p lane else walkTo m 1 (63 - siteX p) p
    | 5 => if siteX p = 0 then outward p lane else walkTo m (-1) (siteX p) p
    | _ => none
  else if outward (p % 4096) (backLane lane) = some p then some (p % 4096) else none

/-- Does a lane of a place exist, with or without bypasses: its local lane, its links, and for an edge unit the link to its
router? -/
def laneExists (p lane : Nat) : Bool :=
  if isRouter p then
    match lane with
    | 6 => true
    | 0 | 1 => decide (siteY p > 0) || (outward p lane).isSome
    | 3 | 4 => decide (siteY p < 39) || (outward p lane).isSome
    | 2 => decide (siteX p < 63) || (outward p lane).isSome
    | 5 => decide (siteX p > 0) || (outward p lane).isSome
    | _ => false
  else decide (p % 4096 < 2560) && decide (outward (p % 4096) (backLane lane) = some p)

/-- The key of a VC of a lane. -/
def vcKey (place lane vc : Nat) : Nat := (place * 8 + lane) * 8 + vc

/-- The key of a lane. -/
def laneKey (place lane : Nat) : Nat := place * 8 + lane

/-- Is a link of a place's lane a seam crossing (R320)? -/
def isSeam (m : Mesh) (p lane : Nat) : Bool :=
  match farPlace m p lane with
  | some t => isRouter p && isRouter t && !decide (routerField p = routerField t)
  | none => false

/-- The crossing that a receiving lane takes its flits from: that of the first router of its field behind the seam. -/
def crossKey (p lane : Nat) : Nat :=
  let f := routerField p
  let s := match lane with
    | 0 | 1 => 20 * 64 + siteX p
    | 3 | 4 => 19 * 64 + siteX p
    | 2 => siteY p * 64 + 16 * (f % 4) + 15
    | _ => siteY p * 64 + 16 * (f % 4)
  laneKey s lane

/-- The crossings into field f, with the field each comes from. -/
def crossingsInto (f : Nat) : List (Nat × Nat) :=
  let x0 := 16 * (f % 4)
  let y0 := 20 * (f / 4)
  (if f % 4 > 0 then (List.range 20).map fun i => (laneKey ((y0 + i) * 64 + x0) 5, f - 1) else []) ++
  (if f % 4 < 3 then (List.range 20).map fun i => (laneKey ((y0 + i) * 64 + x0 + 15) 2, f + 1) else []) ++
  (List.range 16).flatMap fun i =>
    if f < 4 then [(laneKey (19 * 64 + x0 + i) 3, f + 4), (laneKey (19 * 64 + x0 + i) 4, f + 4)]
    else [(laneKey (20 * 64 + x0 + i) 0, f - 4), (laneKey (20 * 64 + x0 + i) 1, f - 4)]

/-- The cycles of field f (assumption 124). -/
def fieldCc (m : Mesh) (f : Nat) : Nat := smGet 0 m.ccs f

/-- A crossing. -/
def getCross (m : Mesh) (x : Nat) : Crossing := smGet Crossing.reset m.crossings x

/-- The field whose routers receive from crossing x. -/
def crossInto (x : Nat) : Nat := routerField (x / 8)

/-- The write pointer of crossing x from field g. -/
def crossW (m : Mesh) (x g : Nat) : Int := fieldCc m g + (getCross m x).w

/-- The read pointer of crossing x. -/
def crossR (m : Mesh) (x : Nat) : Int := fieldCc m (crossInto x) + (getCross m x).r

/-- The separation of crossing x from field g (R381). -/
def crossSep (m : Mesh) (x g : Nat) : Int := crossW m x g - crossR m x

/-! ### Routes -/

/-- What choose_route answers (R314). -/
inductive RouteAns where
  | go (order : Order) (yt : Nat)
  | refuse (status : Nat)
deriving DecidableEq, Repr

/-- choose_route (R313, R314): statuses 1 FENCED and 4 NOROUTE (Table 9.6). -/
def chooseRoute (m : Mesh) (src dst : Nat) : RouteAns :=
  let sx := siteX src; let sy := siteY src; let dx := siteX dst; let dy := siteY dst
  if bypassed m dx dy then .refuse 1
  else
    let ft := getField (getFieldMesh m (routerField src)).route (8 * routerField dst) 2
    let cross := decide (routerField src ≠ routerField dst)
    if cross && ft % 2 == 0 then .refuse 4
    else if sx = dx ∨ sy = dy then .go .xy 0
    else
      let xyOk := !bypassed m dx sy
      let yxOk := !bypassed m sx dy
      if !(cross && ft / 2 % 2 == 1) && xyOk then .go .xy 0
      else if yxOk then .go .yx 0
      else if xyOk then .go .xy 0
      else
        let ok := if dy > sy then decide (dy + 1 ≤ 39) else decide (1 ≤ dy)
        let yt := if dy > sy then dy + 1 else dy - 1
        if ok && !bypassed m sx yt && !bypassed m dx yt then .go .detour yt else .refuse 4

/-- Towards column x. -/
def towardX (s x : Nat) : RPort := if siteX s < x then .east else .west
/-- Towards row y. -/
def towardY (s y : Nat) : RPort := if siteY s < y then .south else .north

/-- next_port (R314). -/
def nextPort (here src dst : Nat) (o : Order) (yt : Nat) : RPort :=
  if here = dst then .loc
  else match o with
    | .xy => if siteX here ≠ siteX dst then towardX here (siteX dst) else towardY here (siteY dst)
    | .yx => if siteY here ≠ siteY dst then towardY here (siteY dst) else towardX here (siteX dst)
    | .detour =>
      if siteX here = siteX src ∧ siteY here ≠ yt then towardY here yt
      else if siteX here ≠ siteX dst then towardX here (siteX dst)
      else towardY here (siteY dst)

/-- fork_set at a router for a multicast from src over the physical rectangle r; `mem` says whether the router's core
is a member (R324). -/
def forkSet (here src : Nat) (r : Rect) (mem : Bool) : List RPort :=
  let x := siteX here; let y := siteY here; let sx := siteX src; let sy := siteY src
  (if y = sy ∧ x ≥ sx ∧ x < r.x1 then [RPort.east] else []) ++
  (if y = sy ∧ x ≤ sx ∧ x > r.x0 then [RPort.west] else []) ++
  (if r.x0 ≤ x ∧ x ≤ r.x1 then
    (if y ≥ sy ∧ y < r.y1 then [RPort.south] else []) ++ (if y ≤ sy ∧ y > r.y0 then [RPort.north] else []) ++
    (if r.y0 ≤ y ∧ y ≤ r.y1 ∧ mem then [RPort.loc] else [])
  else [])

/-- The rectangle that a branch serves (R326). -/
def branchRect (here : Nat) (r : Rect) : RPort → Rect
  | .east => { r with x0 := siteX here + 1 }
  | .west => { r with x1 := siteX here - 1 }
  | .south => { x0 := siteX here, x1 := siteX here, y0 := max (siteY here + 1) r.y0, y1 := r.y1 }
  | .north => { x0 := siteX here, x1 := siteX here, y0 := r.y0, y1 := min (siteY here - 1) r.y1 }
  | .loc => { x0 := siteX here, x1 := siteX here, y0 := siteY here, y1 := siteY here }

/-- Does a rectangle hold a site? -/
def rectHas (r : Rect) (s : Nat) : Bool :=
  decide (r.x0 ≤ siteX s) && decide (siteX s ≤ r.x1) && decide (r.y0 ≤ siteY s) && decide (siteY s ≤ r.y1)

/-- Does a rectangle of virtual cores hold (vx, vy)? -/
def vrectHas (r : Rect) (vx vy : Nat) : Bool :=
  decide (r.x0 ≤ vx) && decide (vx ≤ r.x1) && decide (r.y0 ≤ vy) && decide (vy ≤ r.y1)

/-- The sites of a rectangle. -/
def rectSitesOf (r : Rect) : List Nat :=
  (List.range (r.y1 + 1 - r.y0)).flatMap fun j => (List.range (r.x1 + 1 - r.x0)).map fun i => (r.y0 + j) * 64 + r.x0 + i

/-- The port on which a packet leaves a router: next_port, and at an entry router the outward port to the edge unit that it
addresses, the channel controllers for an HBM request and the side-band unit for every other (R314, R318). -/
def packetPort (here : Nat) (p : Packet) : RPort :=
  if here = p.dst && p.dstEdge then
    match p.typ with
    | .hbmWrite | .hbmRead => if siteY here = 0 then .north else .south
    | _ => if siteX here = 0 then .west else .east
  else nextPort here p.src p.dst p.order p.yt

/-- Is the site a member of a multicast: its core's placement gives the job and a position in VRECT, and it is not fenced (R323)? -/
def castMember (c : Core) (p : Packet) : Bool :=
  c.place.placed && decide (c.place.job = p.job) && vrectHas p.vrect c.place.vx c.place.vy && !c.fenced

/-- Does the multicast need a fork at a bypassed router (R325)? -/
def mustSplit (m : Mesh) (src : Nat) (r : Rect) : Bool :=
  !(decide (r.y0 = siteY src) && decide (r.y1 = siteY src)) &&
  (List.range (r.x1 + 1 - r.x0)).any fun i => bypassed m (r.x0 + i) (siteY src)

/-- The cost of a route that was chosen (R317): hops + turns + 4 x seams + bypasses. -/
def routeCost (m : Mesh) (src dst : Nat) (o : Order) (yt : Nat) : Nat :=
  let rec walk : Nat → Nat → Option RPort → Nat
    | 0, _, _ => 0
    | fuel + 1, here, came =>
      match nextPort here src dst o yt with
      | .loc => 0
      | p =>
        let nxt := match p with
          | .north => here - 64
          | .south => here + 64
          | .east => here + 1
          | _ => here - 1
        let turn := match came with
          | some q => if q = p then 0 else 1
          | none => 0
        let seam := if routerField here = routerField nxt then 0 else 4
        let byp := if nxt ≠ dst ∧ bypassed m (siteX nxt) (siteY nxt) then 1 else 0
        1 + turn + seam + byp + walk fuel nxt (some p)
  walk 256 src none

/-! ### Local ports -/

/-- A closed port consumed a packet at a site (R329). -/
def countDrop (m : Mesh) (site : Nat) : Mesh :=
  modFieldMesh (modPort m site fun p => { p with drops := sat16 p.drops 1 }) (routerField site) fun f =>
    { f with fencedDrop := sat32 f.fencedDrop 1 }

/-- Does a closed port answer this packet with a FENCED NACK (R329)? -/
def closedAnswers (p : Packet) : Bool :=
  match p.typ with
  | .write | .read | .mcastWrite => true
  | .hbmData => decide (p.slot ≠ 255)
  | _ => false

/-- The NACK with a status that a router at `site` returns for a packet, to the issuer of its transfer (R315, R329). -/
def nackPkt (site status : Nat) (p : Packet) : Packet :=
  { Packet.blank with
    typ := .nack, src := site, dst := p.cast.getD p.src, job := p.job, tag := p.tag, status := status, xid := p.xid,
    dstEdge := p.srcEdge && p.cast.isNone }

/-- Is the port closed for this packet: closed, or the job differs from the core's placement; CONTROL packets, which only the
signal box sends to a core, always pass (R328)? -/
def portClosedFor (m : Mesh) (site : Nat) (pl : Place) (p : Packet) : Bool :=
  match p.typ with
  | .control => false
  | _ => (getPort m site).closed || !(pl.placed && decide (pl.job = p.job))

end Sys2Proof.Machine
end

