-- ==== Sys2Proof/Machine/Clock.lean ====
section
/-!
DEFINITION. Sys2Proof/Machine/Clock.lean: the root clock, stretches, divider changes and the time counter (R373 to R391), as operations on the clock state alone.
-/

namespace Sys2Proof.Machine

/-- The stretch of one field: its depth in rc, the sensors that have tripped, the stretched periods counted (R378). A sensor is the
number of its cluster for a droop detector, 640 + its site for a margin monitor. -/
structure FieldClk where
  depth : Nat
  sensors : List Nat
  periods : Nat
deriving DecidableEq, Repr

/-- A field that does not stretch. -/
def FieldClk.reset : FieldClk := { depth := 0, sensors := [], periods := 0 }

/-- A divider change that is armed: its divider, its tick, and the job whose leader asked for it (R384, R387). -/
structure DivChange where
  target : Nat
  tick : Nat
  job : Option Nat
deriving DecidableEq, Repr

/-- The clock state (R391), with the thresholds that the margin monitors, by site, and the droop detectors, by cluster, hold (R377). -/
structure Clock where
  locked : Bool
  selB : Bool
  lost : Bool
  time : Nat
  fastest : Nat
  div : Nat
  target : Nat
  tick : Nat
  pending : Option DivChange
  deferred : Bool
  refused : Nat
  cancelled : Nat
  applied : Nat
  aligned : Bool
  master : Bool
  offsetPs : BitVec 32
  fields : SMap FieldClk
  slewTick : Nat
  appliedAt : Nat
  monTh : SMap Nat
  droopTh : SMap Nat
deriving DecidableEq, Repr

/-- The clock state after module reset (R388, R391). -/
def Clock.reset : Clock :=
  { locked := false, selB := false, lost := false, time := 0, fastest := 16, div := 16, target := 16, tick := 0,
    pending := none, deferred := false, refused := 0, cancelled := 0, applied := 0, aligned := false, master := false,
    offsetPs := 0#32, fields := [], slewTick := 0, appliedAt := 0, monTh := [], droopTh := [] }

/-- The dividers of Table 12.2. -/
def dividers : List Nat := [8, 9, 10, 11, 12, 14, 16]

/-- The stretch state of field f. -/
def getFieldClk (k : Clock) (f : Nat) : FieldClk := smGet FieldClk.reset k.fields f

/-- Is any field stretching? -/
def anyStretch (k : Clock) : Bool := (List.range 8).any fun f => decide ((getFieldClk k f).depth > 0)

/-- A sensor of field f trips and asks for d rc: the deepest stretch asked for applies (R377, R378). -/
def tripClock (k : Clock) (f sensor d periods : Nat) : Clock :=
  { k with fields := smMod FieldClk.reset k.fields f fun x =>
      { depth := max x.depth d, sensors := if x.sensors.contains sensor then x.sensors else x.sensors ++ [sensor],
        periods := satAdd (2 ^ 48 - 1) x.periods periods } }

/-- The stretch that a sensor asks for: 2 rc a droop detector, 1 rc a margin monitor (R377). -/
def sensorRc (sensor : Nat) : Nat := if sensor < 640 then 2 else 1

/-- The sensors that `gone` names take no part any more: the depth is that of those that are left; with none left the stretch goes on
until its 64 cc have passed (R377 to R379). -/
def dropSensors (gone : Nat → Bool) (k : Clock) : Clock :=
  { k with fields := smMap FieldClk.reset (fun _ x =>
      let left := x.sensors.filter fun q => !gone q
      if left.length = x.sensors.length then x
      else { x with sensors := left, depth := if left.isEmpty then x.depth else left.foldl (fun d q => max d (sensorRc q)) 0 }) k.fields }

/-- The pending change applies (R385). -/
def applyDivider (k : Clock) : Clock :=
  match k.pending with
  | some p =>
    { k with
      div := p.target, pending := none, deferred := false, applied := (k.applied + 1) % 256, appliedAt := k.time }
  | none => k

/-- Field f's stretch ends; a deferred change applies once no field stretches (R378, R386). -/
def endStretch (k : Clock) (f periods : Nat) : Clock :=
  let k1 := { k with fields := smMod FieldClk.reset k.fields f fun x =>
      { x with depth := 0, sensors := [], periods := satAdd (2 ^ 48 - 1) x.periods periods } }
  if k1.deferred && !anyStretch k1 then applyDivider k1 else k1

/-- Is an armed change acceptable (R384)? -/
def divOk (k : Clock) (target tick : Nat) : Bool :=
  dividers.contains target && decide (k.fastest ≤ target) && decide (k.time + 4000 ≤ tick)

/-- A change is armed, or refused and counted; it replaces a pending one (R384, R386). -/
def armDivider (k : Clock) (target tick : Nat) (job : Option Nat) : Clock :=
  if divOk k target tick then { k with pending := some { target := target, tick := tick, job := job }, deferred := false }
  else { k with refused := satAdd 255 k.refused 1 }

/-- The tick of the pending change is reached: every field switches, or every field defers (R385, R386). -/
def switchDivider (k : Clock) : Clock :=
  match k.pending with
  | some p =>
    if k.deferred then k
    else
      let k1 := { k with time := max k.time p.tick }
      if anyStretch k1 then { k1 with deferred := true } else applyDivider k1
  | none => k

/-- 40,000 tt after the tick of a change still deferred: a larger divider applies, a smaller one is cancelled (R386). -/
def deferTimeout (k : Clock) : Clock :=
  match k.pending with
  | some p =>
    if k.deferred then
      let k1 := { k with time := max k.time (p.tick + 40000) }
      if p.target ≥ k.div then applyDivider k1
      else { k1 with pending := none, deferred := false, cancelled := satAdd 255 k.cancelled 1 }
    else k
  | none => k

/-- One tt of the time counter (R388). -/
def tickClock (k : Clock) : Clock := if k.locked then { k with time := (k.time + 1) % 2 ^ 64 } else k

/-- A slewed tt adds n, 0 or 2, at most once in 1,024 tt (R389). -/
def slewClock (k : Clock) (n : Nat) : Clock :=
  if k.locked ∧ (n = 0 ∨ n = 2) ∧ k.time ≥ k.slewTick + 1024 then
    { k with time := (k.time + n) % 2 ^ 64, slewTick := k.time }
  else k

/-- A measured offset in ps: within 10 ns aligned, beyond 20 ns not, between them as it was (R390). -/
def setOffset (k : Clock) (ps : Int) : Clock :=
  { k with offsetPs := BitVec.ofInt 32 (max (-(2 ^ 31)) (min (2 ^ 31 - 1) ps)),
           aligned := if ps.natAbs ≤ 10000 then true else if ps.natAbs > 20000 then false else k.aligned }

/-- The module is its own time master: it stands at no offset from it (R390, R511, assumption 33). -/
def ownMaster (k : Clock) : Clock := { k with master := true, aligned := true, offsetPs := 0#32 }

end Sys2Proof.Machine
end

