-- ==== Sys2Proof/Machine/Image.lean ====
section
/-!
DEFINITION. Sys2Proof/Machine/Image.lean: the values that the module takes from its Holco image and its fuses. The
manual names the values (R4, R301, R353, R410, R420, R425, R584) and not the layout of the sections that hold them, so
an accepted image brings them as data (assumption 16).
-/

namespace Sys2Proof.Machine

/-- The grades (Table 0.1). -/
inductive Grade where
  | aqv816 | aqv814 | aqv812
deriving DecidableEq, Repr

/-- The code of a grade in the identity block (Table 17.7). -/
def Grade.code : Grade → Nat
  | .aqv816 => 0 | .aqv814 => 1 | .aqv812 => 2

/-- A grade's fastest divider (Table 0.1). -/
def Grade.fastest : Grade → Nat
  | .aqv816 => 8 | .aqv814 => 9 | .aqv812 => 10

/-- A grade's module power cap in W (Table 0.1). -/
def Grade.capW : Grade → Nat
  | .aqv816 => 8000 | .aqv814 => 6800 | .aqv812 => 5600

/-- The image's values. Voltage targets in mV are keyed cluster x 32 + divider; dynamic factors K_d in millionths by
divider; `badSites`, `badRouters` and `badBanks`
are the KILN section's bad core sites, bypassed routers and bad slab banks (site, data bank), `escs` the eight rows of ESC
bits. Estimate weights
are in fJ; `conv` are the gains, in millionths, and offsets of the feeds' converters (R477); `monTh` and `droopTh` are the thresholds of the margin monitors, by site, and of the droop detectors, by cluster
(R377). -/
structure ImageVals where
  version : Nat
  fastPct : Nat
  bLimit : Nat
  staticW : Nat
  kFactors : List (Nat × Nat)
  targets : SMap Nat
  clMax : Nat
  wCol : Nat
  wSlab : Nat
  wVec : Nat
  wXfer : Nat
  wHbm : Nat
  wFlit : Nat
  wLink : Nat
  wFixed : Nat
  hbmRate : Nat
  escs : List W64
  badSites : List Nat
  badRouters : List Nat
  badBanks : List (Nat × Nat)
  meterCfg : Nat
  cert : List Byte
  pcieId : Nat
  conv : List (Nat × Int)
  monTh : SMap Nat
  droopTh : SMap Nat
deriving DecidableEq, Repr

/-- No image read: every value zero. -/
def ImageVals.reset : ImageVals :=
  { version := 0, fastPct := 0x60, bLimit := 0, staticW := 0, kFactors := [], targets := [],
    clMax := 0, wCol := 0, wSlab := 0, wVec := 0, wXfer := 0, wHbm := 0, wFlit := 0, wLink := 0, wFixed := 0,
    hbmRate := 0, escs := [], badSites := [], badRouters := [], badBanks := [], meterCfg := 0, cert := [], pcieId := 0, conv := [], monTh := [],
    droopTh := [] }

/-- The fuses of the part: module id, key hash, least SEC_VERSION, the bad core sites found at test, the spare data bank of a site
where test assigned it (site, bank), the public key of the module identity, and its grade (R3, R134, R391, R487, R580, R589). -/
structure Fuses where
  moduleId : List Byte
  keyHash : List Byte
  secMin : Nat
  badSites : List Nat
  spares : List (Nat × Nat)
  idPub : List Byte
  grade : Grade
deriving DecidableEq, Repr

/-- The fuses as State.reset has them (assumption 17). -/
def Fuses.reset : Fuses :=
  { moduleId := List.replicate 16 0#8, keyHash := List.replicate 48 0#8, secMin := 0, badSites := [],
    spares := [], idPub := List.replicate 96 0#8, grade := .aqv816 }

end Sys2Proof.Machine
end

