-- ==== Sys2Proof/Machine/Power.lean ====
section
/-!
DEFINITION. Sys2Proof/Machine/Power.lean: feeds, rails, cluster regulators, load notices, power estimates, the cap, and
temperatures, as operations on their own state (R392 to R440).
-/

namespace Sys2Proof.Machine

/-! ### State -/

/-- The feeds (POWER.FEED_STATUS, FEED_CFG, FEED_EVENTS). `usedB` says that FEED_B has carried power in the metering period. -/
structure Feeds where
  onB : Bool
  usedB : Bool
  aGood : Bool
  bGood : Bool
  lastGasp : Bool
  aMv10 : Nat
  bMv10 : Nat
  bLimit : Nat
  toB : Nat
  toA : Nat
  blocked : Nat
  off : Nat
deriving DecidableEq, Repr

/-- The feeds after reset (R419). -/
def Feeds.reset : Feeds :=
  { onB := false, usedB := false, aGood := false, bGood := false, lastGasp := false, aMv10 := 0, bMv10 := 0, bLimit := 0, toB := 0, toA := 0,
    blocked := 0, off := 0 }

/-- The rails of one field (POWER.RAIL_f). -/
structure Rail where
  fieldOn : Bool
  meshOn : Bool
  fieldPh : BitVec 24
  meshPh : BitVec 8
  fails : Nat
deriving DecidableEq, Repr

/-- The rails after reset. -/
def Rail.reset : Rail := { fieldOn := false, meshOn := false, fieldPh := 0#24, meshPh := 0#8, fails := 0 }

/-- A load notice that a regulator holds: its boost in mV, and its start and end in cycles of the cluster's clock (R411). -/
structure BoostNote where
  boost : Nat
  start : Nat
  stop : Nat
deriving DecidableEq, Repr

/-- A cluster's regulator, estimate and temperature (POWER.CLUSTER_c, POWER.EST_CL_c, THERMAL.CLUSTER_c). `hot` says
that its latest reading was 105 °C or more (R433); `accs` is the (job, step) in flight at each of its sites when the current 2 µs interval
began (R479), `coolEnd` the tick at which its cool-down ends. -/
structure ClusterPwr where
  state : Nat
  sliceOk : BitVec 4
  crackEvents : Nat
  atMax : Bool
  sliceFails : Nat
  shorts : Nat
  sensorExcluded : Nat
  excluded : List Nat
  notes : List BoostNote
  vout : Nat
  vmin : Nat
  target : Nat
  level : Nat
  p10mw : Nat
  thermState : Nat
  coolEnd : Nat
  temp : Nat
  sheds : Nat
  hot : Bool
  accs : List (Option (Nat × Nat))
deriving DecidableEq, Repr

/-- A cluster after reset (R419, R440). -/
def ClusterPwr.reset : ClusterPwr :=
  { state := 0, sliceOk := 0#4, crackEvents := 0, atMax := false, sliceFails := 0, shorts := 0, sensorExcluded := 0,
    excluded := [], notes := [], vout := 0, vmin := 0, target := 550, level := 0, p10mw := 0, thermState := 0, coolEnd := 0,
    temp := 0, sheds := 0, hot := false, accs := [] }

/-- The power manager (POWER.PM_CFG, PM_STATUS, PM_EVENTS, RECON, EST_W). `samples` holds the measured power in W of
the last 100 µs periods, newest first, since the averages restarted; `changed` says that a divider change has been applied,
`sinceApplied` and `sinceRaise` count periods since the last one and since the last raise, 500 where there was none; `estMs` is the estimate in fJ since the last
reconciliation; `fallDue`
is the A1 and the divider at which the cap fell, while its raise has to wait; `outRange` and `inRange` count its milliseconds out of and in range; `accs` lists the steps in flight when the current die interval began. -/
structure PwrMgr where
  fastPct : Nat
  pin : Bool
  pinDiv : Nat
  hostCap : Nat
  capW : Nat
  capDiv : Nat
  thermDiv : Nat
  hold : Bool
  a10 : Nat
  a1 : Nat
  raises : Nat
  lowers : Nat
  capHolds : Nat
  over120 : Nat
  reconFault : Bool
  k : Nat
  reconCount : Nat
  wCol : Nat
  wSlab : Nat
  wVec : Nat
  wXfer : Nat
  samples : List Nat
  fallDue : Option (Nat × Nat)
  seenApplied : Nat
  changed : Bool
  sinceApplied : Nat
  sinceRaise : Nat
  clusterSum : Nat
  dieEst : Nat
  estMs : Nat
  outRange : Nat
  inRange : Nat
  accs : List (Nat × Nat)
deriving DecidableEq, Repr

/-- The power manager after reset (R440). -/
def PwrMgr.reset : PwrMgr :=
  { fastPct := 0x60, pin := false, pinDiv := 0, hostCap := 0, capW := 0, capDiv := 0, thermDiv := 0, hold := false, a10 := 0,
    a1 := 0, raises := 0, lowers := 0, capHolds := 0, over120 := 0, reconFault := false, k := 0x4000, reconCount := 0,
    wCol := 0, wSlab := 0, wVec := 0, wXfer := 0, samples := [], fallDue := none, seenApplied := 0, changed := false, sinceApplied := 0, sinceRaise := 500,
    clusterSum := 0, dieEst := 0, estMs := 0, outRange := 0, inRange := 0, accs := [] }

/-- Module-wide temperatures (THERMAL.STATUS, THERMAL.EVENTS). `hotRuns` and `coolRuns` count consecutive readings
(100 µs each) with some sensor at 100 °C or more, and with every sensor at 97 °C or less. -/
structure Therm where
  hotCluster : Nat
  maxC : Nat
  throttles : Nat
  sheds : Nat
  extensions : Nat
  stackLimits : Nat
  hotRuns : Nat
  coolRuns : Nat
deriving DecidableEq, Repr

/-- Temperatures after reset (R440). -/
def Therm.reset : Therm :=
  { hotCluster := 0, maxC := 0, throttles := 0, sheds := 0, extensions := 0, stackLimits := 0, hotRuns := 0,
    coolRuns := 0 }

/-- The power state of the module. -/
structure Power where
  feeds : Feeds
  rails : SMap Rail
  clusters : SMap ClusterPwr
  pm : PwrMgr
  therm : Therm
deriving DecidableEq, Repr

/-- The power state after reset. -/
def Power.reset : Power :=
  { feeds := Feeds.reset, rails := [], clusters := [], pm := PwrMgr.reset, therm := Therm.reset }

/-- Cluster k. -/
def getCl (p : Power) (k : Nat) : ClusterPwr := smGet ClusterPwr.reset p.clusters k

/-- The power state with f applied to cluster k. -/
def modCl (p : Power) (k : Nat) (f : ClusterPwr → ClusterPwr) : Power :=
  { p with clusters := smMod ClusterPwr.reset p.clusters k f }

/-- The rails of field f. -/
def getRail (p : Power) (f : Nat) : Rail := smGet Rail.reset p.rails f

/-- The power state with g applied to the rails of field f. -/
def modRail (p : Power) (f : Nat) (g : Rail → Rail) : Power := { p with rails := smMod Rail.reset p.rails f g }

/-! ### Feeds -/

/-- The feeds as the comparators read them, in mV (R392, POWER.FEED_STATUS). -/
def readFeeds (f : Feeds) (a b : Nat) : Feeds :=
  { f with aGood := decide (a ≥ 10800), bGood := decide (b ≥ 10800), aMv10 := min (a / 10) 0xFFF, bMv10 := min (b / 10) 0xFFF }

/-- FEED_A below 10.5 V for 2 µs: to FEED_B, or blocked (R393). -/
def feedALow (f0 : Feeds) (a b : Nat) : Feeds :=
  let f := readFeeds f0 a b
  if a < 10500 ∧ !f.onB then
    if b ≥ 10800 then { f with onB := true, usedB := true, toB := sat16 f.toB 1 } else { f with blocked := sat16 f.blocked 1 }
  else f

/-- FEED_A at or above 11.4 V for 100 ms: back to FEED_A (R395). -/
def feedARecovered (f0 : Feeds) (a b : Nat) : Feeds :=
  let f := readFeeds f0 a b
  if a ≥ 11400 ∧ f.onB then { f with onB := false, toA := sat16 f.toA 1 } else f

/-- FEED_B below 10.5 V for 2 µs with FEED_A good: back to FEED_A at once (R396). -/
def feedBLow (f0 : Feeds) (a b : Nat) : Feeds :=
  let f := readFeeds f0 a b
  if b < 10500 ∧ a ≥ 10800 ∧ f.onB then { f with onB := false, toA := sat16 f.toA 1 } else f

/-- Both feeds below 10.2 V (R397): is it so? -/
def bothLow (a b : Nat) : Bool := decide (a < 10200) && decide (b < 10200)

/-- A regulator's output is off: no notice holds, and nothing is sensed (R405, R408). -/
def outputOff (c : ClusterPwr) : ClusterPwr := { c with notes := [], vout := 0, vmin := 0, atMax := false }

/-! ### Rails and slices -/

/-- A phase of a rail fails: it is disconnected and counted once (R402). -/
def phaseFail (r : Rail) (mesh : Bool) (i : Nat) : Rail :=
  if mesh then
    if r.meshPh.getLsbD i then { r with meshPh := setField r.meshPh i 1 0, fails := sat16 r.fails 1 } else r
  else
    if r.fieldPh.getLsbD i then { r with fieldPh := setField r.fieldPh i 1 0, fails := sat16 r.fails 1 } else r

/-- Failed phases of a rail that is on. -/
def failedPhases (r : Rail) (mesh : Bool) : Nat :=
  if mesh then 8 - ((List.range 8).filter fun i => r.meshPh.getLsbD i).length
  else 24 - ((List.range 24).filter fun i => r.fieldPh.getLsbD i).length

/-- The field rail turns off: every cluster of the field goes dark with reason DARK_RAIL (R402). -/
def darkRail (p : Power) (f : Nat) : Power :=
  { modRail p f (fun r => { r with fieldOn := false }) with
    clusters := (List.range 640).foldl (fun m k =>
      if (clusterSites k).any (fun s => decide (siteField s = f)) then
        smMod ClusterPwr.reset m k fun c => { outputOff c with state := 5 }
      else m) p.clusters }

/-- Slices in service. -/
def goodSlices (c : ClusterPwr) : Nat := ((List.range 4).filter fun i => c.sliceOk.getLsbD i).length

/-- Slices of a cluster fail: each that was in service is disconnected and counted (R403); with fewer than three left
the cluster goes dark (R405). -/
def sliceFail (c : ClusterPwr) (slices : List Nat) : ClusterPwr × List Nat :=
  let new := (List.range 4).filter fun i => slices.contains i && c.sliceOk.getLsbD i
  let c1 := new.foldl (fun c i => { c with sliceOk := setField c.sliceOk i 1 0, sliceFails := sat16 c.sliceFails 1 }) c
  (if goodSlices c1 < 3 ∧ (c1.state = 1 ∨ c1.state = 2) then { outputOff c1 with state := 3 } else c1, new)

/-- The input switch of a cluster opens (R413). -/
def shortCluster (c : ClusterPwr) : ClusterPwr :=
  if c.state = 1 ∨ c.state = 2 then { outputOff c with state := 4, shorts := sat16 c.shorts 1 } else c

/-! ### Regulation and notices -/

/-- A target limited to the range of a regulator (R408). -/
def limitTarget (t : Nat) : Nat := max 550 (min 850 t)

/-- The target that takes effect. -/
def effTarget (c : ClusterPwr) : Nat := limitTarget c.target

/-- Power-up of a cluster: the slices that pass their test return, and with three of them its regulator starts and settles at the
target (R406, R408, R415, R416). State 1 stands while only its north row has had its wave. -/
def powerCluster (c : ClusterPwr) (good : BitVec 4) : ClusterPwr :=
  let c1 := { c with sliceOk := good }
  if goodSlices c1 ≥ 3 then { c1 with state := 1, vout := effTarget c1 } else { outputOff c1 with state := 3 }

/-- The wave of a cluster's south row completes its power-up (R415). -/
def clusterOn (c : ClusterPwr) : ClusterPwr := if c.state = 1 then { c with state := 2 } else c

/-- Millivolts that 1 mV/ns reaches in n root periods of 5/64 ns. -/
def rampMv (n : Nat) : Nat := n * 5 / 64

/-- The boost of one notice at cycle t of a clock with a period of `rc` root periods: up from its start and down from its end at
1 mV/ns (R411). -/
def noteBoost (t rc : Nat) (n : BoostNote) : Nat :=
  if t < n.start then 0
  else if t < n.stop then min n.boost (rampMv ((t - n.start) * rc))
  else n.boost - rampMv ((t - n.stop) * rc)

/-- The boost in effect at cycle t: the largest of the notices, the sum with the target limited to 850 mV (R412). -/
def boostNow (c : ClusterPwr) (t rc : Nat) : Nat :=
  min (c.notes.foldl (fun m n => max m (noteBoost t rc n)) 0) (850 - effTarget c)

/-- A NOTICE of level and delay d cc at cycle t of the cluster's clock (R411) (assumption 124). -/
def takeNotice (c : ClusterPwr) (t rc level d : Nat) : ClusterPwr :=
  if level > c.level then
    let live := c.notes.filter fun n => decide (noteBoost t rc n > 0) || decide (t < n.stop)
    { c with notes := live ++ [{ boost := (24 * (level - c.level) + 62) / 63, start := t + (d - 48), stop := t + d + 2048 }] }
  else c

/-- The value in the middle of a sorted list. -/
def medianOf (l : List Nat) : Nat := (l.mergeSort (fun a b => decide (a ≤ b))).getD (l.length / 2) 0

/-- Sensor readings in mV reach the regulator at cycle t of its clock (R408, R409). -/
def senseCluster (c : ClusterPwr) (t rc : Nat) (mv : List Nat) : ClusterPwr :=
  let med := medianOf mv
  let far := (List.range mv.length).filter fun i => decide (mv.getD i 0 > med + 100) || decide (med > mv.getD i 0 + 100)
  let valid := (mv.zipIdx.filter fun p => !far.contains p.2).map (·.1)
  let new := far.filter fun i => !c.excluded.contains i
  let c1 := { c with excluded := far, sensorExcluded := sat16 c.sensorExcluded new.length }
  match valid with
  | a :: b :: l =>
    let vmin := (b :: l).foldl min a
    let goal := effTarget c1 + boostNow c1 t rc
    let vout := max 550 (min 850 (c.vout + goal - vmin))
    { c1 with vmin := vmin, vout := vout, atMax := decide (vout = 850) && decide (vmin < goal) }
  | _ => { c1 with vout := min 850 (effTarget c1 + 25), vmin := valid.headD 0, atMax := false }

/-- The targets of every cluster for a divider (R410). -/
def loadTargets (p : Power) (v : ImageVals) (div : Nat) : Power :=
  { p with clusters := (List.range 640).foldl (fun m k =>
      smMod ClusterPwr.reset m k fun c => { c with target := smGet 550 v.targets (k * 32 + div) }) p.clusters }

/-- One CRACK_SUSPECT event (R417). -/
def crackCluster (c : ClusterPwr) : ClusterPwr := { c with crackEvents := min 3 (c.crackEvents + 1) }

/-! ### Estimates -/

/-- A core's activity in fJ (R420). -/
def activityFj (pm : PwrMgr) (a : Activity) : Nat := a.cols * pm.wCol + a.slab * pm.wSlab + a.vec * pm.wVec + a.xfer * pm.wXfer

/-- An estimate after the gain (R422). -/
def withGain (pm : PwrMgr) (e : Nat) : Nat := e * pm.k / 0x4000

/-- Cluster power in units of 10 mW from the fJ of 2 µs, to nearest (assumption 18). -/
def power10mw (e : Nat) : Nat := (e + 10000000) / 20000000

/-- The cluster level of e fJ in 2 µs, for a maximum of `pmax` units of 10 mW (R421). -/
def clusterLevel (e pmax : Nat) : Nat := if pmax = 0 then 0 else min 63 ((2 * 63 * e + pmax * 20000000) / (2 * (pmax * 20000000)))

/-- A cluster's estimate of e fJ before the gain (R420, R421, R422). -/
def setEstimate (p : Power) (clMax k e : Nat) : Power :=
  let g := withGain p.pm e
  let w := power10mw g
  let p1 := modCl p k fun c => { c with p10mw := min w 0xFFFF, level := clusterLevel g clMax }
  { p1 with pm := { p1.pm with clusterSum := p1.pm.clusterSum + e } }

/-- The die estimate of 4 µs: the clusters, the field terms and the fixed term (R420). -/
def dieEstimate (pm : PwrMgr) (v : ImageVals) (hbm flits links : Nat) : PwrMgr :=
  let e := pm.clusterSum + hbm * v.wHbm + flits * v.wFlit + links * v.wLink + v.wFixed
  { pm with clusterSum := 0, dieEst := withGain pm e, estMs := pm.estMs + e }

/-- The ratio k_raw of measured energy m to estimated energy e as a fraction: of a millisecond whose estimate is 0 a free value (R422)
(assumption 137). -/
def rawRatio (m e : Nat) : Nat × Nat := if e = 0 then ((Config.ratioOfNothing m).toNat, 0x4000) else (m, e)

/-- The gain after a millisecond of measured energy m fJ (R422); ratios in units of 1/0x4000, rounded down
(assumption 18). -/
def reconcile (pm : PwrMgr) (m : Nat) : PwrMgr :=
  let r := rawRatio m pm.estMs
  let raw := r.1 * 0x4000 / r.2
  let bad := decide (r.1 * 10 < r.2 * 7) || decide (r.1 * 10 > r.2 * 14)
  let out := if bad then min 10 (pm.outRange + 1) else 0
  let inn := if bad then 0 else min 10 (pm.inRange + 1)
  let fault := if pm.reconFault then !decide (inn = 10) else decide (out = 10)
  let k1 : Int := pm.k + ((raw : Int) - pm.k) / 8
  let k2 := max 0x3333 (min 0x5000 k1.toNat)
  { pm with estMs := 0, outRange := out, inRange := inn, reconFault := fault, k := if fault then pm.k else k2
            reconCount := (pm.reconCount + 1) % 2 ^ 32 }

/-! ### The cap -/

/-- The cap in effect (R423) (assumption 127). -/
def capInEffect (p : Power) (g : Grade) : Nat :=
  let c := if p.pm.hostCap = 0 then g.capW else min g.capW p.pm.hostCap
  if p.feeds.onB then min c p.feeds.bLimit else c

/-- The dynamic factor of a divider in millionths (R425). -/
def kFactor (v : ImageVals) (d : Nat) : Nat :=
  match v.kFactors.find? (fun x => decide (x.1 = d)) with
  | some x => x.2
  | none => 0

/-- Is the projected power at divider d', from average a at divider d, at most cap x num / den (R425)? -/
def projectOk (v : ImageVals) (a d d' cap num den : Nat) : Bool :=
  decide (((v.staticW * kFactor v d : Nat) + ((a : Int) - v.staticW) * kFactor v d') * den ≤ (cap * num * kFactor v d : Nat))

/-- The dividers the grade may use, smallest first (R4). -/
def allowedDividers (g : Grade) : List Nat := dividers.filter fun d => decide (d ≥ g.fastest)

/-- The smallest divider whose projection fits the cap; 16 when none does. -/
def fitDivider (v : ImageVals) (g : Grade) (a d cap : Nat) : Nat :=
  ((allowedDividers g).find? fun d' => projectOk v a d d' cap 1 1).getD 16

/-- One step larger, at most 16. -/
def stepUp (d : Nat) : Nat := (dividers.find? fun x => decide (x > d)).getD 16

/-- One step smaller, not below the grade's fastest. -/
def stepDown (g : Grade) (d : Nat) : Nat := ((allowedDividers g).filter fun x => decide (x < d)).getLastD d

/-- The average of the newest n samples. -/
def avgOf (l : List Nat) (n : Nat) : Nat :=
  let x := l.take n
  if x.isEmpty then 0 else x.foldl (· + ·) 0 / x.length

/-- A raise of the cap divider to d. -/
def raiseCap (pm : PwrMgr) (d : Nat) : PwrMgr :=
  if d > pm.capDiv then { pm with capDiv := d, raises := sat16 pm.raises 1, sinceRaise := 0 } else pm

/-- May a raise be decided: no change is scheduled, and 1 ms has passed since the last one was applied (R426)? -/
def mayRaise (pm : PwrMgr) (k : Clock) : Bool :=
  k.pending.isNone && decide (pm.seenApplied = k.applied) && (!pm.changed || decide (pm.sinceApplied > 10))

/-- The raise that a fall of the cap asks for, from the A1 and the divider at that time, once a raise may be decided (R426). -/
def fallRaise (v : ImageVals) (g : Grade) (k : Clock) (pm : PwrMgr) : PwrMgr :=
  match pm.fallDue with
  | some x => if mayRaise pm k then { raiseCap pm (fitDivider v g x.1 x.2 pm.capW) with fallDue := none } else pm
  | none => pm

/-- The cap in effect is formed again: when it falls the averages restart, and the cap divider is to be raised from the last A1
(R423, R424, R426). -/
def capChange (p : Power) (v : ImageVals) (g : Grade) (k : Clock) : Power :=
  let cap := min (capInEffect p g) 0xFFFF
  if cap < p.pm.capW then
    { p with pm := fallRaise v g k { p.pm with capW := cap, samples := [], fallDue := some (p.pm.a1, k.div) } }
  else { p with pm := { p.pm with capW := cap } }

/-- The averages with a new sample, and how long the divider in effect and the last raise stand (R424). -/
def addSample (pm : PwrMgr) (applied sample : Nat) : PwrMgr :=
  let samples := (sample :: pm.samples).take 100
  { pm with
    samples := samples, a1 := min (avgOf samples 10) 0xFFFF, a10 := min (avgOf samples 100) 0xFFFF
    seenApplied := applied, changed := pm.changed || !decide (applied = pm.seenApplied)
    sinceApplied := if applied = pm.seenApplied then pm.sinceApplied + 1 else 1, sinceRaise := pm.sinceRaise + 1 }

/-- The rules of R426 that the averages meet: A1 above 1.2 times the cap, A10 above the cap, or a step down of the cap divider. A
divider that stands since before the last 100 samples has stood for 10 ms. -/
def averageRules (v : ImageVals) (g : Grade) (k : Clock) (pm : PwrMgr) : PwrMgr :=
  let may := mayRaise pm k
  let down := stepDown g pm.capDiv
  if decide (pm.a1 * 10 > 12 * pm.capW) && may then raiseCap pm (max (stepUp k.div) (fitDivider v g pm.a1 k.div pm.capW))
  else if decide (pm.a10 > pm.capW) && may then raiseCap pm (max pm.capDiv (stepUp k.div))
  else if pm.sinceApplied > 100 ∧ pm.sinceRaise ≥ 500 ∧ down < pm.capDiv ∧ projectOk v pm.a10 k.div down pm.capW pm.fastPct 100 then
    { pm with capDiv := down, lowers := sat16 pm.lowers 1 }
  else pm

/-- Every 100 µs: a new sample, both averages, and the rules of R426 and R427. -/
def powerAverages (p : Power) (v : ImageVals) (g : Grade) (k : Clock) (sample : Nat) : Power :=
  let pm := addSample p.pm k.applied sample
  let pm1 := if pm.a1 * 10 > 12 * pm.capW then { pm with over120 := sat16 pm.over120 1 } else pm
  let pm2 := averageRules v g k (fallRaise v g k pm1)
  let hold := decide (pm2.a10 > pm2.capW) && (decide (k.div = 16) || pm2.hold)
  { p with pm := { pm2 with hold := hold, capHolds := if hold && !pm2.hold then sat16 pm2.capHolds 1 else pm2.capHolds } }

/-- The divider the module asks for, from the largest FREQ_SET divider of its jobs (R429). -/
def wantedDivider (pm : PwrMgr) (g : Grade) (jobDiv : Nat) : Nat :=
  let base := if pm.pin then pm.pinDiv else max pm.capDiv jobDiv
  max g.fastest (max base pm.thermDiv)

/-! ### Temperatures -/

/-- A cluster's sensor reads t: two readings of 105 °C or more in a row shed it (R430, R433). -/
def readTemp (c : ClusterPwr) (t : Nat) : ClusterPwr × Bool :=
  let hot := decide (t ≥ 105)
  let shed := hot && c.hot && decide (c.thermState = 0) && decide (c.state = 2)
  ({ c with temp := min t 255, hot := hot, thermState := if shed then 1 else c.thermState
            sheds := if shed then sat16 c.sheds 1 else c.sheds }, shed)

/-- A reading of every sensor in the list: the clusters that start to shed, and the thermal divider when throttling
begins (R430, R431, R433). -/
def readTemps (p : Power) (div : Nat) (ts : List (Nat × Nat)) : Power × List Nat :=
  let r := ts.foldl (fun (acc : Power × List Nat) kt =>
    let q := readTemp (getCl acc.1 kt.1) kt.2
    (modCl acc.1 kt.1 fun _ => q.1, if q.2 then acc.2 ++ [kt.1] else acc.2)) (p, [])
  let best := r.1.clusters.foldl (fun (b : Nat × Nat) kc => if kc.2.temp > b.2 then (kc.1, kc.2.temp) else b) (0, 0)
  let hot := decide (best.2 ≥ 100)
  let cool := decide (best.2 ≤ 97)
  let th := r.1.therm
  let starts := hot && decide (th.hotRuns = 0)
  let next := max r.1.pm.thermDiv (stepUp div)
  let steps := starts && !decide (next = r.1.pm.thermDiv)
  let th1 := { th with maxC := best.2, hotCluster := best.1, hotRuns := if hot then th.hotRuns + 1 else 0
                       coolRuns := if cool then th.coolRuns + 1 else 0, sheds := sat16 th.sheds r.2.length
                       throttles := if steps then sat16 th.throttles 1 else th.throttles }
  let pm := r.1.pm
  ({ r.1 with therm := th1, pm := if starts then { pm with thermDiv := next } else pm }, r.2)

/-- A step of the thermal divider: up after each 1 ms hot, down after each 10 ms cool (R431). A step that leaves the divider at 16 is
none. -/
def thermalStep (p : Power) (g : Grade) : Power :=
  let th := p.therm
  if th.hotRuns ≥ 11 ∧ p.pm.thermDiv ≠ 0 then
    { p with pm := { p.pm with thermDiv := stepUp p.pm.thermDiv }
             therm := { th with
               hotRuns := 1, throttles := if stepUp p.pm.thermDiv = p.pm.thermDiv then th.throttles else sat16 th.throttles 1 } }
  else if th.coolRuns ≥ 101 ∧ p.pm.thermDiv ≠ 0 then
    let d := stepDown g p.pm.thermDiv
    { p with pm := { p.pm with thermDiv := if d ≤ g.fastest then 0 else d }
             therm := { th with coolRuns := 1, throttles := sat16 th.throttles 1 } }
  else p

/-- Ticks of a cool-down, 30 s (R436). -/
def coolTicks : Nat := 12000000000

/-- The cool-down of a cluster begins at a tick (R434, R436). -/
def startCool (now : Nat) (c : ClusterPwr) : ClusterPwr := { c with thermState := 2, coolEnd := now + coolTicks }

/-- The end of a cool-down: the fence ends below 95 °C, otherwise it is extended (R436). -/
def endCool (c : ClusterPwr) : ClusterPwr × Bool :=
  if c.temp < 95 then ({ c with thermState := 0, coolEnd := 0, hot := false }, true)
  else ({ c with thermState := 3, coolEnd := c.coolEnd + coolTicks }, false)

/-- What is left of a cool-down at a tick, in ms (THERMAL.CLUSTER_c.COOL_MS). -/
def coolMs (now : Nat) (c : ClusterPwr) : Nat := (c.coolEnd - now + 399999) / 400000

/-- The grant limit of a stack at temperature t: 2 for one cycle of two, 4 for one of four, 0 for full rate, which
returns at 90 °C (R432). -/
def stackLimit (old t : Nat) : Nat := if t ≥ 100 then 4 else if t ≥ 95 then 2 else if t ≤ 90 then 0 else min old 2

end Sys2Proof.Machine
end

