-- ==== Sys2Proof/Machine/Box.lean ====
section
/-!
DEFINITION. Sys2Proof/Machine/Box.lean: what the signal box keeps beside its jobs: the error log, the fault history,
bring-up and the standby plane, the boot flash, the SMBus mailbox, JTAG, and its counters (R549 to R617).
-/

namespace Sys2Proof.Machine

/-! ### The error log (R574, R575) -/

/-- The error log: its configuration, counters, the entries that ERRLOG.WIN shows (keyed by SEQ mod 1,024), the entries
not yet in flash, and the dumps: their number, the next of the 16 slots, and those not
yet copied to flash. -/
structure ErrLog where
  watchdogMs : Nat
  en1 : Bool
  vec1 : Nat
  en0 : Bool
  vec0 : Nat
  nextSeq : Nat
  dumps : Nat
  dumpSlot : Nat
  recoveries : Nat
  partResets : Nat
  quarantines : Nat
  poisonedIn : Nat
  win : SMap (List Byte)
  unsaved : List (Nat × List Byte)
  dumpsUnsaved : List (List Byte)
  flashDumps : Nat
  flashSeq : Nat
deriving DecidableEq, Repr

/-- The log after module reset (R576); the entries and numbers that flash holds are empty (assumption 17). -/
def ErrLog.reset : ErrLog :=
  { watchdogMs := 0x3E8, en1 := false, vec1 := 0, en0 := false, vec0 := 0, nextSeq := 0, dumps := 0, dumpSlot := 0, recoveries := 0,
    partResets := 0, quarantines := 0, poisonedIn := 0, win := [], unsaved := [], dumpsUnsaved := [], flashDumps := 0,
    flashSeq := 0 }

/-- What an error log entry says (Table 19.8). -/
structure LogEvent where
  event : Nat
  job : Nat
  code : Nat
  unit : Nat
  vcid : Nat
  stop : Nat
  icount : Nat
  dump : Nat
  data : List Byte
deriving DecidableEq, Repr

/-- An event with no job, unit, core and dump. -/
def LogEvent.of (event : Nat) : LogEvent :=
  { event := event, job := 0xFF, code := 0, unit := 0, vcid := 0xFFFFFFFF, stop := 0, icount := 0, dump := 0xFFFFFFFF, data := [] }

/-- The 64 bytes of an entry (Table 19.8). -/
def logBytes (e : LogEvent) (tick seq ptime : Nat) : List Byte :=
  bytesLE 8 tick ++ bytesLE 4 seq ++ bytesLE 4 ptime ++ bytesLE 2 e.event ++ bytesLE 1 e.job ++ bytesLE 1 e.code ++
  bytesLE 4 e.unit ++ bytesLE 4 e.vcid ++ bytesLE 4 e.stop ++ bytesLE 8 (e.icount % 2 ^ 48) ++ bytesLE 4 e.dump ++ padTo 20 e.data

/-- One entry joins the log (R574). -/
def addLog (l : ErrLog) (e : LogEvent) (tick ptime : Nat) : ErrLog :=
  let b := logBytes e tick l.nextSeq ptime
  { l with
    win := smSet [] l.win (l.nextSeq % 1024) b, unsaved := l.unsaved ++ [(l.nextSeq, b)], nextSeq := (l.nextSeq + 1) % 2 ^ 32 }

/-! ### The fault history (R571 to R573) -/

/-- The fault history. `time` is HISTORY.TIME; `records` holds (unit, time) in order, `permanent` the permanent units;
both lie in flash, as does `savedTime`. -/
structure History where
  time : Nat
  savedTime : Nat
  overflow : Bool
  records : List (Nat × Nat)
  permanent : List Nat
  query : Nat
deriving DecidableEq, Repr

/-- An empty history (assumption 17). -/
def History.reset : History := { time := 0, savedTime := 0, overflow := false, records := [], permanent := [], query := 0 }

/-- Seconds of 30 days. -/
def window30 : Nat := 2592000

/-- Does a record of unit u at time t still count at time now? CRACK_SUSPECT events, of type 8, never expire (R572). -/
def inWindow (now : Nat) (r : Nat × Nat) : Bool := decide (r.1 / 2 ^ 28 = 8) || decide (now < r.2 + window30)

/-- Room for one more record: the oldest outside every window goes first, else the oldest, with OVERFLOW; records of
permanent units stay (R573). -/
def makeRoom (h : History) : History :=
  if h.records.length < 32768 then h
  else
    let loose := fun (r : Nat × Nat) => !h.permanent.contains r.1
    match h.records.findIdx? fun r => loose r && !inWindow h.time r with
    | some i => { h with records := listDel h.records i }
    | none =>
      match h.records.findIdx? loose with
      | some i => { h with records := listDel h.records i, overflow := true }
      | none => { h with overflow := true }

/-- One event against a unit: the history, and whether the unit becomes permanent with it, at its third event in the
window (R572). -/
def addHistory (h0 : History) (u : Nat) : History × Bool :=
  let h1 := makeRoom h0
  let h := if h1.records.length < 32768 then { h1 with records := h1.records ++ [(u, h1.time)] } else h1
  let n := (h.records.filter fun r => decide (r.1 = u) && inWindow h.time r).length
  if n ≥ 3 ∧ ¬h.permanent.contains u then ({ h with permanent := h.permanent ++ [u] }, true) else (h, false)

/-- HISTORY.RESULT for the queried unit. -/
def historyResult (h : History) : Nat :=
  let rs := h.records.filter fun r => decide (r.1 = h.query)
  let w := min 255 (rs.filter fun r => decide (h.time < r.2 + window30)).length
  let last := match rs.getLast? with
    | some r => r.2
    | none => 0
  (if h.permanent.contains h.query then 2 ^ 63 else 0) + w * 2 ^ 48 + min 65535 rs.length * 2 ^ 32 + last

/-- The unit keys of Table 19.6. -/
def unitCore (site : Nat) : Nat := 1 * 2 ^ 28 + site
def unitBank (site bank : Nat) : Nat :=
  2 * 2 ^ 28 + site + (if bank < 32 then bank * 2 ^ 12 else (bank - 32) * 2 ^ 12 + 2 ^ 17)
def unitSlice (cl slice : Nat) : Nat := 3 * 2 ^ 28 + cl + slice * 2 ^ 10
def unitChan (n : Nat) : Nat := 5 * 2 ^ 28 + (n / 32) + n % 32 * 2 ^ 4
def unitLane (port lane : Nat) : Nat := 6 * 2 ^ 28 + port + lane * 2 ^ 4
def unitPhase (f : Nat) (mesh : Bool) (i : Nat) : Nat := 7 * 2 ^ 28 + f + (if mesh then 8 else 0) + i * 2 ^ 4
def unitCluster (cl : Nat) : Nat := 8 * 2 ^ 28 + cl

/-! ### Bring-up (R577 to R600) -/

/-- A boot record in the flash's persistent area (R586): the phase, the cause, and for cause WIRE the links with more than one failed
wire group, as (site x 4 + direction) x 2 + lane (R36). -/
structure BootRec where
  phase : Nat
  cause : Nat
  links : List Nat
deriving DecidableEq, Repr

/-- Bring-up and the standby plane. `standby` says the plane is up, `feedGood` that step 1 has run, `box2` that step 2 has
chosen a signal box, `inReset` that MOD_RESET_N has not been high for 1 ms; `checkB` that copy A has been rejected, `wavesDone` and `testsDone` count
the core waves of step 5 and their self-tests, `glazed` says that glaze firing has run, `records` holds the boot records in flash. The standby-held registers: image results and version, RESET_IN, NO_BOX. -/
structure Boot where
  standby : Bool
  feedGood : Bool
  box2 : Bool
  noBox : Bool
  inReset : Bool
  phase : Nat
  lastPhase : Nat
  cause : Nat
  boxB : Bool
  copyB : Bool
  pllB : Bool
  fenced : Nat
  readyMs : Nat
  aResult : Nat
  bResult : Nat
  version : Nat
  ignored : Nat
  coalesced : Nat
  held : Bool
  resets : Nat
  smbAddr : Nat
  flashClosed : Bool
  image : Option ImageVals
  records : List BootRec
  checkB : Bool
  wavesDone : Nat
  testsDone : Nat
  glazed : Bool
deriving DecidableEq, Repr

/-- Bring-up at standby power-up (R600): the plane is up, nothing has run, and MOD_RESET_N has not yet been high for
1 ms. -/
def Boot.reset : Boot :=
  { standby := true, feedGood := false, box2 := false, noBox := false, inReset := true, phase := 0, lastPhase := 0, cause := 0,
    boxB := false, copyB := false, pllB := false, fenced := 0, readyMs := 0, aResult := 0, bResult := 0, version := 0,
    ignored := 0, coalesced := 0, held := false, resets := 0, smbAddr := 0, flashClosed := false, image := none, records := [],
    checkB := false, wavesDone := 0, testsDone := 0, glazed := false }

/-- Is the module READY? -/
def isReady (b : Boot) : Bool := decide (b.phase = 8)

/-- Has the fault history been loaded from flash since the last reset (R571, R580)? -/
def historyLoaded (b : Boot) : Bool :=
  (decide (5 ≤ b.phase) && decide (b.phase ≤ 8)) || (decide (b.phase = 9) && decide (5 ≤ b.lastPhase))

/-- GLOBAL.BOOT. -/
def bootReg (b : Boot) : Nat :=
  b.phase * 2 ^ 60 + b.lastPhase * 2 ^ 56 + b.cause * 2 ^ 48 + b.boxB.toNat * 2 ^ 47 + b.copyB.toNat * 2 ^ 46 +
  b.pllB.toNat * 2 ^ 45 + min 0xFFF b.fenced * 2 ^ 32 + min 0xFFFFFFFF b.readyMs

/-- A section of a Holco image: type, offset, length (Table 20.4). -/
structure Section where
  typ : Nat
  off : Nat
  len : Nat
deriving DecidableEq, Repr

/-- The sections that the header lists; an accepted one lists at most 32 (Table 20.5). -/
def imageSections (h : List Byte) : List Section :=
  (List.range (min 32 (fieldLE h 0x14 4))).map fun i =>
    { typ := fieldLE h (0x100 + 16 * i) 4, off := fieldLE h (0x104 + 16 * i) 4, len := fieldLE h (0x108 + 16 * i) 4 }

/-- Do two sections share a byte? -/
def sectionsMeet (a b : Section) : Bool := decide (a.off < b.off + b.len) && decide (b.off < a.off + a.len)

/-- The sections lie in the signed bytes, apart, each type 1 to 7 exactly once and no other twice (R589, Table 20.5). -/
def sectionsOk (ss : List Section) (len : Nat) : Bool :=
  ss.all (fun s => decide (s.off + s.len ≤ len - 96)) &&
  (ss.zipIdx.all fun p => ss.zipIdx.all fun q => decide (p.2 = q.2) || (!sectionsMeet p.1 q.1 && !decide (p.1.typ = q.1.typ))) &&
  ((List.range 7).all fun t => ss.any fun s => decide (s.typ = t + 1))

/-- The result code of a copy: the checks of Table 20.5 in their order. `readOk` says that the flash returned the header and
every byte up to LENGTH, `sigOk` that the signature is that of SIGN_KEY over the signed bytes. -/
def imageResult (h : List Byte) (readOk sigOk : Bool) (fu : Fuses) : Nat :=
  let len := fieldLE h 8 4
  let n := fieldLE h 0x14 4
  if !readOk then 2
  else if !(decide (fieldLE h 0 4 = 0x484F4C43) && decide (fieldLE h 4 4 = 0x00010000) && decide (len % 16 = 0) &&
      decide (len ≤ 0x10000000) && decide (0x100 + 16 * n + 96 ≤ len) && decide (7 ≤ n) && decide (n ≤ 32) &&
      sectionsOk (imageSections h) len) then 3
  else if (h.drop 0x20).take 16 ≠ fu.moduleId then 4
  else if sha384 ((h.drop 0x30).take 97) ≠ fu.keyHash then 5
  else if fieldLE h 0xC 4 < fu.secMin then 6
  else if !sigOk then 7
  else 1

/-- The bytes of the flash from offset a on (R588). -/
def flashBytes (m : SMap Byte) (a n : Nat) : List Byte := (List.range n).map fun i => smGet 0xFF#8 m (a + i)

/-- Bytes written to the flash. -/
def flashPut (m : SMap Byte) (a : Nat) (l : List Byte) : SMap Byte :=
  l.zipIdx.foldl (fun m b => smSet 0xFF#8 m (a + b.2) b.1) m

/-- The flash with n bytes from offset a on erased. -/
def flashErase (m : SMap Byte) (a n : Nat) : SMap Byte := m.filter fun b => !(decide (a ≤ b.1) && decide (b.1 < a + n))

/-! ### The mailbox and JTAG (R613 to R617) -/

/-- The SMBus management mailbox. -/
structure Mailbox where
  addr : Nat
  len : Nat
  busy : Bool
  error : Bool
  refused : Bool
deriving DecidableEq, Repr

/-- The mailbox at power-up. -/
def Mailbox.reset : Mailbox := { addr := 0, len := 4, busy := false, error := false, refused := false }

/-- The instructions of the JTAG port: the four that a locked port keeps, and any other by number (R617). -/
inductive JtagOp where
  | bypass | idcode | sample | extest
  | other (n : Nat)
deriving DecidableEq, Repr

/-- The JTAG port: its lock fuse and the instruction in effect. -/
structure Jtag where
  locked : Bool
  ir : JtagOp
deriving DecidableEq, Repr

/-- The port at power-up, with IDCODE selected, as IEEE 1149.1 has it for a part with that register (assumption 22). -/
def Jtag.reset : Jtag := { locked := false, ir := .idcode }

/-- The IDCODE (R617). -/
def idcodeBits : List Bool := (List.range 32).map fun i => (0x0A816C4B : Nat).testBit i

/-! ### The rest of the signal box -/

/-- A partition reset that is due or under way (R565): its partition, whether it has begun, whether a hang caused it, the one job
that may be a suspect in it when a failed replay caused it (R570), and the jobs its event halted. -/
structure PartRst where
  part : Nat
  begun : Bool
  hang : Bool
  only : Option Nat
  jobs : List Nat
deriving DecidableEq, Repr

/-- This module's place in a job's tree: JKEY, rank, and the ports toward the parent and the children. -/
structure Relay where
  jkey : Nat
  rank : Nat
  up : Nat
  downs : List (Nat × Nat)
deriving DecidableEq, Repr

/-- The signal box: accepted commands in order, accepted session entries, completions not yet posted; counters of ch. 8, 18
and 19; partitions in reset or out of service; suspects and the one that replays; the kiln map. `acc` counts acceptances;
`beats` holds missed heartbeats of channel controllers, `relays` this module's place in the trees of
admissions that it has seen as a member (R516), `nextKey` the next JKEY (R518). -/
structure Box where
  acc : Nat
  accepted : List CtlCmd
  subs : List SubEnt
  finished : List Comp
  empties : Nat
  shapeOver : Nat
  spares : SMap W64
  saves : Nat
  resumes : Nat
  rejected : Nat
  orphans : Nat
  matched : Nat
  lockValid : Bool
  lockStep : Nat
  lockStop : Nat
  lockVcid : Nat
  heartbeat : Nat
  beats : SMap Nat
  resets : List PartRst
  partsOut : List Nat
  suspects : List Nat
  replaying : Option Nat
  replayBad : Bool
  kiln : List Nat
  timeParent : Option Nat
  timeReq : Option Nat
  relays : List Relay
  nextKey : Nat
deriving DecidableEq, Repr

/-- The signal box after module reset. -/
def Box.reset : Box :=
  { acc := 0, accepted := [], subs := [], finished := [], empties := 0, shapeOver := 0, spares := [], saves := 0, resumes := 0,
    rejected := 0, orphans := 0, matched := 0, lockValid := false, lockStep := 0, lockStop := 0, lockVcid := 0, heartbeat := 0,
    beats := [], resets := [], partsOut := [], suspects := [], replaying := none, replayBad := false, kiln := [],
    timeParent := none, timeReq := none, relays := [], nextKey := 1 }

end Sys2Proof.Machine
end

