-- ==== Sys2Proof/Machine/Operands.lean ====
section
/-!
DEFINITION. Sys2Proof/Machine/Operands.lean: the operands of the commands: which arbiter, which packet or burst, bytes
that a host delivers, and the results that tests report.
-/

namespace Sys2Proof.Machine

/-- Bytes that the module has read from a host, in order, and the offsets of those whose read failed (R552). -/
structure HostBuf where
  bytes : List Byte
  failed : List Nat
deriving DecidableEq, Repr

/-- An arbiter: the slab read or write port of a site, the router outputs of a field, the channel controllers of a
partition, or a trunk transmitter (R333, Table 10.1). -/
inductive ArbId where
  | rd (site : Nat)
  | wr (site : Nat)
  | router (field : Nat)
  | hbm (field : Nat)
  | trunk (port : Nat)
deriving DecidableEq, Repr

/-- The kinds of arbiter (Table 10.1). -/
inductive ArbKind where
  | rd
  | wr
  | router
  | hbm
  | trunk
deriving DecidableEq, Repr

/-- A PERST_N asserted on a host port for so many ns (R606). -/
structure PerstPulse where
  port : Nat
  ns : Nat
deriving DecidableEq, Repr

/-- A configuration request: whether 100 ms have passed since PERST_N deassertion, and whether it writes the function's power state:
D3hot, or D0 (R441, R596). -/
structure ConfigReq where
  waited : Bool
  hot : Option Bool
deriving DecidableEq, Repr

/-- What a trunk port finds in training: the lanes on which frames are received in DETECT, or that pass ADAPT, and the transmit preset
of each lane that its partner's receivers chose in PRESET (R499). -/
structure LaneReport where
  lanes : BitVec 9
  presets : List Nat
deriving DecidableEq, Repr

/-- The start of a frame that a swap names: the trunk port, and the logical lane where the partner's markers named it (R501). -/
structure SwapStart where
  port : Nat
  peer : Option Nat
deriving DecidableEq, Repr

/-- Who writes a register: a host through its port's BAR0, or the signal box (R625). -/
inductive WriteSrc where
  | bar0 (port : Nat)
  | box
deriving DecidableEq, Repr

/-- The slices of a cluster that passed the test of R406. -/
structure SliceTest where
  cluster : Nat
  good : BitVec 4
deriving DecidableEq, Repr

/-- A core that failed its self-test: the banks that slab BIST failed, and whether the witness self-test failed (R581,
R582). -/
structure CoreTest where
  site : Nat
  banks : List Nat
  witness : Bool
deriving DecidableEq, Repr

/-- What bisque firing finds (R580): the mesh rails in regulation, the root PLLs that lock, the failed wire groups as (link,
physical group 0 to 32), a link being (site x 4 + direction of the outgoing link) x 2 + lane (R303, R321), and routers that failed
their test. -/
structure BisqueIn where
  meshOk : Bool
  pllA : Bool
  pllB : Bool
  groups : List (Nat × Nat)
  routers : List Nat
deriving DecidableEq, Repr

/-- Does a core site exist (R6)? -/
def siteOk (site : Nat) : Bool := decide (site < Config.numSites)

/-- Does a cluster exist? -/
def clusterOk (c : Nat) : Bool := decide (c < Config.numClusters)

/-- Does a field, and so a partition, exist? -/
def fieldOk (f : Nat) : Bool := decide (f < Config.numFields)

/-- Does an HBM stack exist? -/
def stackOk (k : Nat) : Bool := decide (k < 2 * Config.numFields)

/-- Does a trunk port exist? -/
def trunkOk (n : Nat) : Bool := decide (n < Config.numTrunks)

/-- Does a host port exist? -/
def hostOk (n : Nat) : Bool := decide (n < Config.numHosts)

/-- Does a job id exist (R299)? -/
def jobOk (j : Nat) : Bool := decide (j < 32)

/-- Does a VC of an input lane of a place exist (R304)? -/
def vcOk (place lane vc : Nat) : Bool := laneExists place lane && decide (vc < 5)

/-- Does a channel exist: partition x 64 + n (R372)? -/
def chanOk (n : Nat) : Bool := decide (n < 512)

/-- The arbiter of a kind and number. -/
def arbOf (k : ArbKind) (n : Nat) : ArbId :=
  match k with
  | .rd => .rd n
  | .wr => .wr n
  | .router => .router n
  | .hbm => .hbm n
  | .trunk => .trunk n

/-- The place at mesh coordinates (x, y) (R7, R8). -/
def placeAt (x y : Nat) : Nat := 64 * y + x

/-- Does the arbiter exist? -/
def arbOk : ArbId → Bool
  | .rd s => siteOk s
  | .wr s => siteOk s
  | .router f => fieldOk f
  | .hbm f => fieldOk f
  | .trunk n => trunkOk n

end Sys2Proof.Machine
end

