-- ==== Sys2Proof/Syntax.lean ====
section
/-!
DEFINITION. Sys2Proof/Syntax.lean: the commands of the Velem, one constructor for each row of spec/opcode_table.json. A
command of a core names its site: the instruction itself lies in the core's instruction memory or engine queue. A command
that a packet or a trunk message brings names the packet by its index among those that have arrived, or the trunk port whose
inbox holds the message. Operand types stand in Sys2Proof/Machine/Operands.lean.
-/

namespace Sys2Proof

/-- The commands. -/
inductive Instr where
  /-- NOP (R205). -/
  | nop (site : Nat)
  /-- LOOP (R206). -/
  | loop (site : Nat)
  /-- LOOPR (R206). -/
  | loopr (site : Nat)
  /-- STOP (R188). -/
  | stop (site : Nat)
  /-- STOP_DRAINED (R188). -/
  | stopDrained (site : Nat)
  /-- HALT (R193). -/
  | halt (site : Nat)
  /-- HALT_DRAINED (R193). -/
  | haltDrained (site : Nat)
  /-- NOTICE (R411). -/
  | notice (site : Nat)
  /-- TIME (R209). -/
  | time (site : Nat)
  /-- MARK (R210). -/
  | mark (site : Nat)
  /-- SET (R212). -/
  | set (site : Nat)
  /-- SETHI (R212). -/
  | sethi (site : Nat)
  /-- SETS (R212). -/
  | sets (site : Nat)
  /-- ADD (R211). -/
  | add (site : Nat)
  /-- SUB (R211). -/
  | sub (site : Nat)
  /-- AND (R211). -/
  | and (site : Nat)
  /-- OR (R211). -/
  | or (site : Nat)
  /-- SHL (R211). -/
  | shl (site : Nat)
  /-- SHR (R211). -/
  | shr (site : Nat)
  /-- INSTRUCTION_ISSUE (R153). -/
  | instructionIssue (site : Nat)
  /-- INSTRUCTION_COMPLETE (R156). -/
  | instructionComplete (site : Nat) (icount : Nat)
  /-- SLOT_UPDATE (R175). -/
  | slotUpdate (site : Nat)
  /-- SLOT_STALL (R183). -/
  | slotStall (site : Nat) (engine : Machine.Engine)
  /-- ISSUE_STALL (R184). -/
  | issueStall (site : Nat)
  /-- VADD (R223). -/
  | vadd (site : Nat)
  /-- VSUB (R223). -/
  | vsub (site : Nat)
  /-- VMUL (R223). -/
  | vmul (site : Nat)
  /-- VFMA (R224). -/
  | vfma (site : Nat)
  /-- VMAX (R224). -/
  | vmax (site : Nat)
  /-- VMIN (R224). -/
  | vmin (site : Nat)
  /-- VCMP (R224). -/
  | vcmp (site : Nat)
  /-- VSEL (R223). -/
  | vsel (site : Nat)
  /-- VAND (R223). -/
  | vand (site : Nat)
  /-- VOR (R223). -/
  | vor (site : Nat)
  /-- VXOR (R223). -/
  | vxor (site : Nat)
  /-- VTRANS (R225). -/
  | vtrans (site : Nat)
  /-- VRED (R226). -/
  | vred (site : Nat)
  /-- VMOV (R230). -/
  | vmov (site : Nat)
  /-- VSPLAT (R223). -/
  | vsplat (site : Nat)
  /-- VBCAST (R231). -/
  | vbcast (site : Nat)
  /-- VPERM (R227). -/
  | vperm (site : Nat)
  /-- VQUANT (R228). -/
  | vquant (site : Nat)
  /-- VDEQ (R229). -/
  | vdeq (site : Nat)
  /-- VLDR (R233). -/
  | vldr (site : Nat)
  /-- VLDC (R233). -/
  | vldc (site : Nat)
  /-- VLDN (R233). -/
  | vldn (site : Nat)
  /-- VSTR (R233). -/
  | vstr (site : Nat)
  /-- VSTC (R233). -/
  | vstc (site : Nat)
  /-- VSTN (R233). -/
  | vstn (site : Nat)
  /-- MMODE (R79). -/
  | mmode (site : Nat)
  /-- MLOAD (R83). -/
  | mload (site : Nat)
  /-- MLOAD_COMPLETE (R83). -/
  | mloadComplete (site : Nat)
  /-- MSTREAM (R91). -/
  | mstream (site : Nat)
  /-- MSTREAM_COLUMN (R105). -/
  | mstreamColumn (site : Nat) (defects : List Machine.Defect)
  /-- MDRAIN (R100). -/
  | mdrain (site : Nat) (icount : Nat)
  /-- MCLEAR (R103). -/
  | mclear (site : Nat)
  /-- XGET (R252). -/
  | xget (site : Nat)
  /-- XPUT (R251). -/
  | xput (site : Nat)
  /-- XHALO (R253). -/
  | xhalo (site : Nat)
  /-- XCAST (R254). -/
  | xcast (site : Nat)
  /-- SSET (R261). -/
  | sset (site : Nat)
  /-- SWAIT (R264). -/
  | swait (site : Nat)
  /-- SPOST (R265). -/
  | spost (site : Nat)
  /-- SFREE (R265). -/
  | sfree (site : Nat)
  /-- BARRIER (R267). -/
  | barrier (site : Nat)
  /-- RELEASE (R191). -/
  | release (site : Nat)
  /-- FMT_MON_CLEAR (R69). -/
  | fmtMonClear (site : Nat)
  /-- WTEST_RES (R111). -/
  | wtestRes (site : Nat)
  /-- WTEST_DUP (R111). -/
  | wtestDup (site : Nat)
  /-- IMEM_LOAD (R195). -/
  | imemLoad (site : Nat) (bankB : Bool) (pos : Nat) (word : W64)
  /-- IMEM_SWITCH_WRITE (R196). -/
  | imemSwitchWrite (site : Nat) (value : Bool)
  /-- CORE_WINDOW_READ (R623). -/
  | coreWindowRead (site : Nat) (offset : Nat) (width : Nat)
  /-- REGISTER_WRITE (R622). -/
  | registerWrite (src : Machine.WriteSrc) (addr : Nat) (width : Nat) (value : Nat)
  /-- ARBITER_GRANT (R338). -/
  | arbiterGrant (kind : Machine.ArbKind) (n : Nat)
  /-- FETTLE_DUE (R137). -/
  | fettleDue (site : Nat)
  /-- ARB_COMMIT (R344). -/
  | arbCommit (arb : Machine.ArbId)
  /-- ARB_COMMIT_TAKE (R344). -/
  | arbCommitTake (arb : Machine.ArbId)
  /-- BANK_CLOSE (R142). -/
  | bankClose (site : Nat) (bank : Nat)
  /-- BANK_POWER_UP_DONE (R145). -/
  | bankPowerUpDone (site : Nat) (bank : Nat)
  /-- PACKET_INJECT (R313). -/
  | packetInject (site : Nat) (index : Nat)
  /-- LINK_FLIT_RECEIVE (R306). -/
  | linkFlitReceive (place : Nat) (lane : Nat) (dataErr : BitVec 1024) (ctlErr : BitVec 12) (cchkErr : BitVec 6) (restErr : BitVec 110)
  /-- SEAM_RECENTRE (R383). -/
  | seamRecentre (x : Nat) (y : Nat) (lane : Nat)
  /-- VC_CREDIT_RESET (R307). -/
  | vcCreditReset (place : Nat) (lane : Nat) (vc : Nat)
  /-- PACKET_ABORT_TIMEOUT (R309). -/
  | packetAbortTimeout (x : Nat) (y : Nat) (lane : Nat) (vc : Nat)
  /-- FORK_BRANCH_DROP (R326). -/
  | forkBranchDrop (site : Nat) (lane : Nat) (vc : Nat) (port : Machine.RPort)
  /-- DROP_NOTICE (R327). -/
  | dropNotice (index : Nat)
  /-- PORT_CLOSE (R330). -/
  | portClose (field : Nat) (x : Nat) (y : Nat) (reason : Nat)
  /-- PORT_REOPEN (R328). -/
  | portReopen (site : Nat)
  /-- PACKET_TO_CLOSED_PORT (R329). -/
  | packetToClosedPort (index : Nat) (site : Nat)
  /-- WRITE_PACKET (R257). -/
  | writePacket (index : Nat)
  /-- READ_PACKET (R252). -/
  | readPacket (index : Nat)
  /-- READ_DATA_PACKET (R252). -/
  | readDataPacket (index : Nat)
  /-- ACK_PACKET (R258). -/
  | ackPacket (index : Nat)
  /-- NACK_PACKET (R630). -/
  | nackPacket (index : Nat)
  /-- MCAST_WRITE_PACKET (R323). -/
  | mcastWritePacket (index : Nat)
  /-- HBM_DATA_PACKET (R359). -/
  | hbmDataPacket (index : Nat)
  /-- CREDIT_PACKET (R180). -/
  | creditPacket (index : Nat)
  /-- BARRIER_ARRIVAL (R268). -/
  | barrierArrival (index : Nat)
  /-- BARRIER_RELEASE (R267). -/
  | barrierRelease (index : Nat)
  /-- CONTROL_PACKET (R311). -/
  | controlPacket (index : Nat)
  /-- HBM_REQUEST_GRANT (R356). -/
  | hbmRequestGrant (channel : Nat) (onDie : List (Nat × Bool))
  /-- HBM_REFRESH (R368). -/
  | hbmRefresh (stack : Nat) (channel : Nat)
  /-- STACK_TEMP_READ (R368). -/
  | stackTempRead (stack : Nat) (temp : Nat)
  /-- HBM_CFG_RETRAIN (R369). -/
  | hbmCfgRetrain (field : Nat) (stack : Nat)
  /-- STACK_RETRAIN_END (R371). -/
  | stackRetrainEnd (stack : Nat) (ok : Bool) (stall : Nat) (failing : List Nat)
  /-- MARGIN_TRIP (R378). -/
  | marginTrip (droop : Bool) (unit : Nat) (periods : Nat)
  /-- STRETCH_END (R378). -/
  | stretchEnd (field : Nat) (periods : Nat)
  /-- DIVIDER_ARM (R384). -/
  | dividerArm (target : Nat)
  /-- DIVIDER_SWITCH (R385). -/
  | dividerSwitch
  /-- DIVIDER_DEFER_TIMEOUT (R386). -/
  | dividerDeferTimeout
  /-- ROOT_CLOCK_LOST (R375). -/
  | rootClockLost
  /-- TIME_SLEW (R389). -/
  | timeSlew (ticks : Nat)
  /-- FEED_A_LOW (R393). -/
  | feedALow (aMv : Nat) (bMv : Nat)
  /-- FEED_A_RECOVERED (R395). -/
  | feedARecovered (aMv : Nat) (bMv : Nat)
  /-- FEED_B_LOW (R396). -/
  | feedBLow (aMv : Nat) (bMv : Nat)
  /-- BOTH_FEEDS_LOW (R397). -/
  | bothFeedsLow (aMv : Nat) (bMv : Nat)
  /-- CAP_CHANGE (R423). -/
  | capChange
  /-- HOST_CAP_WRITE (R423). -/
  | hostCapWrite (watts : Nat)
  /-- RAIL_PHASE_FAIL (R402). -/
  | railPhaseFail (field : Nat) (meshRail : Bool) (phase : Nat)
  /-- SLICE_FAIL (R403). -/
  | sliceFail (cluster : Nat) (slices : List Nat)
  /-- CLUSTER_SHORT (R413). -/
  | clusterShort (cluster : Nat)
  /-- CORE_WAVE (R415). -/
  | coreWave (row : Nat) (fields : List Nat) (tests : List Machine.SliceTest)
  /-- CRACK_SUSPECT (R417). -/
  | crackSuspect (cluster : Nat)
  /-- CLUSTER_ESTIMATE (R420). -/
  | clusterEstimate (cluster : Nat) (sensors : List Nat)
  /-- DIE_ESTIMATE (R420). -/
  | dieEstimate (trunkFlits : List (Nat × Nat)) (hostFlits : List (Nat × Nat)) (boxFlits : Nat)
  /-- RECONCILE_GAIN (R422). -/
  | reconcileGain (measured : Nat)
  /-- POWER_AVERAGES (R426). -/
  | powerAverages (watts : Nat)
  /-- THERMAL_READING (R430). -/
  | thermalReading (temps : List (Nat × Nat))
  /-- THERMAL_DIVIDER_STEP (R431). -/
  | thermalDividerStep
  /-- COOL_DOWN_END (R436). -/
  | coolDownEnd (cluster : Nat)
  /-- CRITICAL_TRIP (R438). -/
  | criticalTrip
  /-- METER_PERIOD_END (R481). -/
  | meterPeriodEnd (samples : List (Machine.FeedSample × Machine.FeedSample))
  /-- WAYBILL_WRITE (R489). -/
  | waybillWrite
  /-- LEDGER_FLASH_UPDATE (R491). -/
  | ledgerFlashUpdate
  /-- LEDGER_READ_WRITE (R493). -/
  | ledgerReadWrite (index : Nat)
  /-- DOORBELL (R447). -/
  | doorbell (port : Nat) (value : W64)
  /-- QUEUE_ENTRY_WRITE (R445). -/
  | queueEntryWrite (port : Nat) (offset : Nat) (bytes : List Byte)
  /-- QDESC_WRITE (R446). -/
  | qdescWrite (port : Nat) (value : W64)
  /-- CQ_DOORBELL (R451). -/
  | cqDoorbell (port : Nat) (value : W32) (entries : List Machine.HostBuf)
  /-- CQ_ENABLE_WRITE (R451). -/
  | cqEnableWrite (port : Nat) (queue : Nat) (value : W64)
  /-- CRING_ENABLE_WRITE (R469). -/
  | cringEnableWrite (port : Nat) (ring : Nat) (value : W64)
  /-- CRING_HEAD_WRITE (R466). -/
  | cringHeadWrite (port : Nat) (ring : Nat) (value : W64)
  /-- ADMIT_JOB (R453). -/
  | admitJob (ticket : Nat) (buffer : Machine.HostBuf)
  /-- LOAD_WEIGHTS (R454). -/
  | loadWeights (ticket : Nat) (buffer : Machine.HostBuf)
  /-- SAVE (R455). -/
  | save (ticket : Nat)
  /-- SAVE_AT_STOP (R530). -/
  | saveAtStop (job : Nat)
  /-- RESUME (R537). -/
  | resume (ticket : Nat) (buffer : Machine.HostBuf)
  /-- RESUME_RESTORE (R538). -/
  | resumeRestore (job : Nat) (buffer : Machine.HostBuf)
  /-- RETIRE_JOB (R456). -/
  | retireJob (ticket : Nat)
  /-- QUERY (R457). -/
  | query (ticket : Nat)
  /-- SUBMIT (R460). -/
  | submit (ticket : Nat)
  /-- YARD_GATHER_TIMEOUT (R463). -/
  | yardGatherTimeout (job : Nat)
  /-- YARD_INPUT_READ (R464). -/
  | yardInputRead (job : Nat) (inputs : List Machine.HostBuf)
  /-- JOB_AT_STOP (R190). -/
  | jobAtStop (job : Nat) (final : Bool)
  /-- COMPLETION_POST (R467). -/
  | completionPost (port : Nat) (ring : Nat)
  /-- COALESCE_TIMER (R468). -/
  | coalesceTimer (port : Nat) (ring : Nat)
  /-- PERST_ASSERT (R598). -/
  | perstAssert (pulse : Machine.PerstPulse)
  /-- PERST_DEASSERT (R596). -/
  | perstDeassert (port : Nat)
  /-- CONFIG_REQUEST (R596). -/
  | configRequest (port : Nat) (req : Machine.ConfigReq)
  /-- TRUNK_TRAIN_ADVANCE (R499). -/
  | trunkTrainAdvance (port : Nat) (lanes : Machine.LaneReport) (rttNs : Nat) (peerSeq : Nat)
  /-- TRUNK_TRAIN_TIMEOUT (R499). -/
  | trunkTrainTimeout (port : Nat)
  /-- LANE_FAIL (R501). -/
  | laneFail (port : Nat) (whole : Bool) (lane : Nat)
  /-- SPARE_SWAP (R501). -/
  | spareSwap (swap : Machine.SwapStart)
  /-- TRUNK_CTRL_RETRAIN (R502). -/
  | trunkCtrlRetrain (port : Nat)
  /-- TRUNK_FLIT_RECEIVE (R505). -/
  | trunkFlitReceive (port : Nat) (bytes : List Byte) (crc : BitVec 64) (errors : List Nat)
  /-- TRUNK_REPLAY_TIMEOUT (R505). -/
  | trunkReplayTimeout (port : Nat)
  /-- TRUNK_ACK_TIMER (R505). -/
  | trunkAckTimer (port : Nat)
  /-- TRCLK_LOST (R610). -/
  | trclkLost (east : Bool)
  /-- DISCOVER (R510). -/
  | discover (port : Nat)
  /-- DISCOVER_TIMER (R510). -/
  | discoverTimer (port : Nat)
  /-- HEARTBEAT (R513). -/
  | heartbeat (port : Nat)
  /-- TRUNK_HEARTBEAT_TIMER (R513). -/
  | trunkHeartbeatTimer (port : Nat)
  /-- HEARTBEAT_TIMEOUT (R513). -/
  | heartbeatTimeout (port : Nat)
  /-- TIME_SYNC_TIMER (R512). -/
  | timeSyncTimer
  /-- TIME_REQ (R512). -/
  | timeReq (port : Nat)
  /-- TIME_RESP (R512). -/
  | timeResp (port : Nat)
  /-- FREQ_SET_SET (R387). -/
  | freqSetSet (port : Nat)
  /-- FREQ_SET_LIMIT (R521). -/
  | freqSetLimit (port : Nat)
  /-- FREQ_SET_APPLIED (R387). -/
  | freqSetApplied (port : Nat)
  /-- FREQ_SET_CANCELLED (R387). -/
  | freqSetCancelled (port : Nat)
  /-- SUBMIT_COMMAND (R516). -/
  | submitCommand (port : Nat)
  /-- SUBMIT_ANNOUNCE (R520). -/
  | submitAnnounce (port : Nat)
  /-- SUBMIT_DISPATCH (R520). -/
  | submitDispatch (port : Nat)
  /-- COMPLETE_COMMAND (R516). -/
  | completeCommand (port : Nat)
  /-- COMPLETE_ARRIVED (R520). -/
  | completeArrived (port : Nat)
  /-- COMPLETE_RELEASE (R520). -/
  | completeRelease (port : Nat)
  /-- COMPLETE_JOB_END (R519). -/
  | completeJobEnd (port : Nat)
  /-- MULTI_ADMIT_TIMEOUT (R516). -/
  | multiAdmitTimeout (job : Nat)
  /-- PUSH_TO (R509). -/
  | pushTo (port : Nat)
  /-- PUSH_BROADCAST (R515). -/
  | pushBroadcast (port : Nat)
  /-- PULL_REQ (R509). -/
  | pullReq (port : Nat)
  /-- PULL_DATA (R508). -/
  | pullData (port : Nat)
  /-- COLLECT_UP (R523). -/
  | collectUp (port : Nat)
  /-- COLLECT_DOWN (R523). -/
  | collectDown (port : Nat)
  /-- EXCHANGE_ENTRY (R522). -/
  | exchangeEntry (job : Nat)
  /-- DIGEST (R545). -/
  | digest (port : Nat)
  /-- DIGEST_TIMEOUT (R547). -/
  | digestTimeout (job : Nat)
  /-- RECOVERY (R555). -/
  | recovery (job : Nat) (buffer : Machine.HostBuf)
  /-- RECOVERY_HALT_TIMEOUT (R628). -/
  | recoveryHaltTimeout (job : Nat)
  /-- DUMP_FLASH_COPY (R575). -/
  | dumpFlashCopy
  /-- ERRLOG_FLASH_WRITE (R574). -/
  | errlogFlashWrite
  /-- HEARTBEAT_TIMER (R563). -/
  | heartbeatTimer (silent : List Nat) (silentChannels : List Nat)
  /-- PARTITION_RESET (R565). -/
  | partitionReset (partition : Nat) (tests : List Machine.SliceTest) (failed : List Machine.CoreTest) (unstable : List (Nat × List Nat))
  /-- PARTITION_RESET_TIMEOUT (R565). -/
  | partitionResetTimeout (partition : Nat)
  /-- SUSPECT_REPLAY (R569). -/
  | suspectReplay (buffer : Machine.HostBuf)
  /-- REPLAY_WATCHDOG (R570). -/
  | replayWatchdog (job : Nat)
  /-- HISTORY_TIME_TICK (R572). -/
  | historyTimeTick
  /-- FEED_GOOD (R578). -/
  | feedGood (aMv : Nat) (bMv : Nat) (strap : Nat)
  /-- SIGNAL_BOX_SELF_TEST (R579). -/
  | signalBoxSelfTest (aOk : Bool) (bOk : Bool)
  /-- IMAGE_CHECK (R589). -/
  | imageCheck (copyB : Bool) (readOk : Bool) (sigOk : Bool) (values : Machine.ImageVals)
  /-- BISQUE_FIRING (R580). -/
  | bisqueFiring (found : Machine.BisqueIn)
  /-- CORE_SELF_TEST (R581). -/
  | coreSelfTest (failed : List Machine.CoreTest)
  /-- HBM_TRAINING (R583). -/
  | hbmTraining (temps : List Nat) (failed : List (Nat × List Nat))
  /-- GLAZE_FIRING (R584). -/
  | glazeFiring
  /-- READY (R585). -/
  | ready (ms : Nat)
  /-- BOOT_STEP_TIMEOUT (R586). -/
  | bootStepTimeout
  /-- MOD_RESET_LOW (R592). -/
  | modResetLow (us : Nat)
  /-- MOD_RESET_RELEASE (R592). -/
  | modResetRelease
  /-- PORT_PRESENT_CHANGE (R594). -/
  | portPresentChange (port : Nat) (present : Bool)
  /-- TRUNK_RETRY_BACKOFF (R595). -/
  | trunkRetryBackoff (port : Nat)
  /-- TRUNK_QUARANTINE_END (R595). -/
  | trunkQuarantineEnd (port : Nat)
  /-- FLASH_SWITCH (R612). -/
  | flashSwitch (vccMv : Nat)
  /-- MAILBOX_STATUS (R614). -/
  | mailboxStatus
  /-- MAILBOX_ADDR (R614). -/
  | mailboxAddr (bytes : List Byte) (pecOk : Bool)
  /-- MAILBOX_WRITE (R615). -/
  | mailboxWrite (bytes : List Byte) (pecOk : Bool)
  /-- MAILBOX_LEN (R614). -/
  | mailboxLen (len : Nat) (pecOk : Bool)
  /-- MAILBOX_READ (R615). -/
  | mailboxRead
  /-- FLASH_ERASE (R616). -/
  | flashErase (bytes : List Byte) (pecOk : Bool)
  /-- FLASH_WRITE (R616). -/
  | flashWrite (bytes : List Byte) (pecOk : Bool)
  /-- FLASH_READ (R614). -/
  | flashRead (bytes : List Byte) (pecOk : Bool)
  /-- ALERT_RESPONSE (R613). -/
  | alertResponse
  /-- HOST_LINK_DOWN (R471). -/
  | hostLinkDown (port : Nat)
  /-- HOST_LINK_UP (R471). -/
  | hostLinkUp (port : Nat) (rate : Nat) (width : Nat) (flit : Bool)
  /-- JTAG_INSTRUCTION (R617). -/
  | jtagInstruction (op : Machine.JtagOp) (bits : List Bool)
  /-- MAILBOX_BUSY_END (R616). -/
  | mailboxBusyEnd
  /-- STANDBY_PLANE_LOSS (R626). -/
  | standbyPlaneLoss
  /-- RETRAINING_LIMIT (R503). -/
  | retrainingLimit (port : Nat)
deriving DecidableEq, Repr

end Sys2Proof
end

