-- ==== Sys2Proof/Decode.lean ====
section
/-!
DEFINITION. Sys2Proof/Decode.lean: the command that a word spells. No row of the table gives its command any bits: a command
is an event at the block's boundary and has no encoding. The instructions of the cores have one, and
Sys2Proof/Machine/Isa.lean decodes them.
-/

namespace Sys2Proof

/-- The command that the word w of nbits bits spells: none, for no row of the table has bits. -/
def decodeTableWord (nbits w : Nat) : Option Instr :=
  match nbits, w with
  | _, _ => none

end Sys2Proof
end

