-- ==== Sys2Proof/Machine/Lanes.lean ====
section
/-!
DEFINITION. Sys2Proof/Machine/Lanes.lean: the lanes of a trunk port: how the bits of flits are dealt over the logical lanes, the lane
frames with their markers, the RS(544,514) code, and the PAM4 levels (R497, R498, R500, R501).
-/

namespace Sys2Proof.Machine

/-! ### RS(544,514) over 10-bit symbols (R497) -/

/-- A field element times alpha, a root of x^10 + x^3 + 1 (IEEE 802.3 clause 91). PRESUMED (assumption 78). -/
def gfShift (a : BitVec 10) : BitVec 10 := if a.msb then (a <<< 1) ^^^ 9#10 else a <<< 1

/-- The product of two field elements. -/
def gfMul (a b : BitVec 10) : BitVec 10 :=
  (List.range 10).foldl (fun c i => if b.getLsbD (9 - i) then gfShift c ^^^ a else gfShift c) 0#10

/-- The powers of alpha. -/
def gfPow : Nat → BitVec 10
  | 0 => 1#10
  | n + 1 => gfShift (gfPow n)

/-- The generator polynomial, the product of x - alpha^j for j below 30, from its leading coefficient down. -/
def rsGenerator : List (BitVec 10) :=
  (List.range 30).foldl (fun g j => (g ++ [0#10]).zipWith (· ^^^ ·) (0#10 :: g.map (gfMul (gfPow j)))) [1#10]

/-- One symbol of the message into the register of the remainder. -/
def rsStep (g r : List (BitVec 10)) (m : BitVec 10) : List (BitVec 10) :=
  (r.drop 1 ++ [0#10]).zipWith (· ^^^ ·) (g.map (gfMul (m ^^^ r.headD 0#10)))

/-- The 30 parity symbols of a message. -/
def rsParity (ms : List (BitVec 10)) : List (BitVec 10) := ms.foldl (rsStep (rsGenerator.drop 1)) (List.replicate 30 0#10)

/-- The codeword of a payload: its symbols and their parity. -/
def rsCodeword (ms : List (BitVec 10)) : List (BitVec 10) := ms ++ rsParity ms

/-- What a lane's decoder does with a codeword of which n symbols are wrong: it passes, is corrected, or stays as it is
(R498). -/
inductive RsResult where
  | clean | corrected | uncorrectable
deriving DecidableEq, Repr

/-- The result for n wrong symbols. -/
def rsResult (n : Nat) : RsResult := if n = 0 then .clean else if n ≤ 15 then .corrected else .uncorrectable

/-! ### Bits, symbols and levels -/

/-- The n low bits of a number, most significant first. -/
def bitsOf (n v : Nat) : List Bool := (List.range n).map fun i => v.testBit (n - 1 - i)

/-- The bits of bytes, each from its most significant bit down. -/
def byteBits (l : List Byte) : List Bool := l.flatMap fun b => bitsOf 8 b.toNat

/-- The 514 symbols of a payload of 5,140 bits, most significant bit first. -/
def payloadSymbols (b : List Bool) : List (BitVec 10) :=
  (List.range 514).map fun i => BitVec.ofNat 10 (((b.drop (10 * i)).take 10).foldl (fun n x => 2 * n + x.toNat) 0)

/-- The Gray-coded PAM4 level of two bits: 00, 01, 11 and 10 are levels 0 to 3. -/
def grayLevel (hi lo : Bool) : Nat := if hi then (if lo then 2 else 3) else lo.toNat

/-- The five levels of a symbol, its most significant bits first. -/
def symbolLevels (m : BitVec 10) : List Nat := (List.range 5).map fun i => grayLevel (m.getLsbD (9 - 2 * i)) (m.getLsbD (8 - 2 * i))

/-- The levels of the codeword of a payload. -/
def codewordLevels (b : List Bool) : List Nat := (rsCodeword (payloadSymbols b)).flatMap symbolLevels

/-! ### Lane frames -/

/-- CRC-64 of R504 over bits. -/
def crc64Bits (b : List Bool) : BitVec 64 := ~~~ (b.foldl (crcBit 0x42F0E1EBA9EA3693#64) (BitVec.allOnes 64))

/-- LOGICAL of physical lane p: the logical lane it carries, or 0xF. -/
def laneLogical (t : TPort) (p : Nat) : Nat := (t.map.idxOf? p).getD 15

/-- The lane marker of physical lane p (Table 17.1). -/
def markerBits (t : TPort) (p : Nat) : List Bool :=
  let b := bitsOf 64 0xA3E15C7D19B462F0 ++ bitsOf 4 (laneLogical t p) ++ bitsOf 4 p ++ bitsOf 32 t.tx.frame ++ bitsOf 4 t.width ++
    bitsOf 4 ((t.swap.map (·.1)).getD 15) ++ bitsOf 32 ((t.swap.map (·.2)).getD 0) ++ List.replicate 4932 false
  b ++ bitsOf 64 (crc64Bits b).toNat

/-- The bits of a flit that logical lane l of w carries: units l, l + w, and so on (R498). -/
def laneBits (w l : Nat) (flit : List Byte) : List Bool :=
  ((List.range 64).filter fun u => decide (u % w = l)).flatMap fun u => byteBits ((flit.drop (4 * u)).take 4)

/-- The bits of a flit join those that wait on the logical lanes. -/
def addFlit (t : TPort) (flit : List Byte) : List (List Bool) :=
  (List.range t.width).map fun l => t.tx.bits.getD l [] ++ laneBits t.width l flit

/-- The next codewords of the lanes: at the start of a frame the markers of all nine, then the payload of each logical lane on its
physical lane; 256 payloads end the frame. -/
def nextCodewords (t : TPort) (bits : List (List Bool)) : TPort × List (Nat × List Nat) :=
  let marks := if t.tx.cw = 0 then (List.range 9).map fun p => (p, codewordLevels (markerBits t p)) else []
  let data := bits.zipIdx.map fun b => (t.map.getD b.2 0, codewordLevels (b.1.take 5140))
  let last := decide (t.tx.cw = 255)
  ({ t with tx := { frame := if last then (t.tx.frame + 1) % 2 ^ 32 else t.tx.frame, cw := if last then 0 else t.tx.cw + 1
                    bits := bits.map (·.drop 5140) } }, marks ++ data)

/-- A flit goes over the lanes: its bits wait until each lane has a payload, whose codewords then go out as levels on the physical
lanes. Outside the states in which flits travel nothing does. -/
def laneFlit (t : TPort) (flit : List Byte) : TPort × List (Nat × List Nat) :=
  let bits := addFlit t flit
  if t.width = 0 then (t, [])
  else if 5140 ≤ (bits.headD []).length then nextCodewords t bits
  else ({ t with tx := { t.tx with bits := bits } }, [])

end Sys2Proof.Machine
end

