-- ==== Sys2Proof/Machine/Router.lean ====
section
/-!
DEFINITION. Sys2Proof/Machine/Router.lean: what routers and links do with flits: receiving and checking, the grant cycle of a field's
routers, forks, seam crossings, timeouts, and local ports that close (R304 to R309, R320, R324, R326, R330, R333 to R336, R382).
-/

namespace Sys2Proof.Machine

/-! ### Counters and credits -/

/-- Count check failures of a link into a place, in its router and its field (R306). -/
def countLinkErr (n place : Nat) (m : Mesh) : Mesh :=
  let m1 := if isRouter place then modPort m place fun p => { p with linkErr := sat16 p.linkErr n } else m
  modFieldMesh m1 (routerField place) fun f => { f with linkErr := sat32 f.linkErr n }

/-- Count a discarded packet, or a flit without one (R306, R309, R311). -/
def countHeader (place : Nat) (m : Mesh) : Mesh :=
  modFieldMesh m (routerField place) fun f => { f with headerDrop := sat32 f.headerDrop 1 }

/-- The key of a fault-history event against quarter q of a link into a place's lane: the sending router, its direction and lane
(R322, Table 19.6). -/
def linkUnit (m : Mesh) (place lane q : Nat) : Nat :=
  let dir := match backLane lane with
    | 0 | 1 => 0
    | 2 => 1
    | 3 | 4 => 2
    | _ => 3
  4 * 2 ^ 28 + q * 2 ^ 15 + (if lane = 1 ∨ lane = 4 then 2 ^ 14 else 0) + dir * 2 ^ 12 +
    ((farPlace m place lane).getD place) % 4096

/-- Events against quarters of a link. -/
def linkEvents (place lane : Nat) (qs : List Nat) (m : Mesh) : Mesh :=
  { m with events := m.events ++ qs.map (linkUnit m place lane) }

/-- A place of VC vc in the input buffer of a lane is free again: its credit goes back with the lane's next flit (R304). The
local lane has none (assumption 117). -/
def owe (place lane vc : Nat) (m : Mesh) : Mesh :=
  if lane < 6 then { m with credits := smMod 0#5 m.credits (laneKey place lane) fun c => c ||| (1#5 <<< vc) } else m

/-- Credits that arrived at a place's lane (R304, R307). -/
def linkCredits (place lane : Nat) (credit : BitVec 5) (m : Mesh) : Mesh :=
  (List.range 5).foldl (fun m v =>
    if credit.getLsbD v then
      { m with outs := smMod VcOut.reset m.outs (vcKey place lane v) fun x => { x with used := x.used - 1 } }
    else m) m

/-- The depth of the input buffer behind an output lane (Table 9.3). -/
def laneDepth (m : Mesh) (place lane : Nat) : Nat := if isSeam m place lane then 16 else 8

/-! ### Receiving -/

/-- Flits gathered at a destination make a packet when its TAIL has come (R310). -/
def gather (k place : Nat) (f : Flit) (m : Mesh) : Mesh :=
  let l := smGet [] m.asm k ++ [f]
  if f.tail then
    { m with asm := smSet [] m.asm k [], arrived := m.arrived ++ ((flitsPacket l).map fun p => { place := place, pkt := p : Arrived }).toList }
  else { m with asm := smSet [] m.asm k l }

/-- A flit of a packet in order goes into the buffer of a router's input, or to the edge unit, which takes it at once. -/
def joinFlit (place lane vc : Nat) (f : Flit) (m : Mesh) : Mesh :=
  let k := vcKey place lane vc
  if isRouter place then setIn m k { getIn m k with buf := (getIn m k).buf ++ [f] }
  else
    let m1 := gather k place f m
    if f.owed then owe place lane vc m1 else m1

/-- Does the open packet of a VC need an ABORT tail: it is not one that is being discarded? -/
def openPacket (v : VcIn) : Bool := v.isOpen && !v.discard

/-- The open packet of a VC is closed as if by an ABORT tail (R309). -/
def closeOpen (place lane vc : Nat) (m : Mesh) : Mesh :=
  let k := vcKey place lane vc
  let v := getIn m k
  let m1 := if openPacket v then joinFlit place lane vc abortTail m else m
  setIn m1 k { getIn m1 k with isOpen := false, discard := false }

/-- The VC's record of its packet after a flit. -/
def noteFlit (place lane vc : Nat) (tail discard : Bool) (m : Mesh) : Mesh :=
  let k := vcKey place lane vc
  setIn m k { getIn m k with isOpen := !tail, discard := discard && !tail }

/-- A packet flit with good control bits joins its VC; `bad` lists the quarters whose CHECK fails. A flit that is discarded gives its
place back (R306, R309, R311) (assumption 117). -/
def acceptFlit (place lane vc : Nat) (f : Flit) (bad : List Nat) (m : Mesh) : Mesh :=
  let v := getIn m (vcKey place lane vc)
  let failures := fun (qs : List Nat) (m : Mesh) => linkEvents place lane qs (countLinkErr qs.length place m)
  if f.head then
    let m1 := closeOpen place lane vc m
    if bad.contains 0 then
      owe place lane vc (countHeader place (linkEvents place lane [0] (noteFlit place lane vc f.tail true
        (failures (bad.filter fun q => !decide (q = 0)) m1))))
    else if (typeOfCode (getField f.data 32 8)).isNone then
      owe place lane vc (countHeader place (noteFlit place lane vc f.tail true (failures bad m1)))
    else joinFlit place lane vc { f with z := crazeQuarters f.z bad } (noteFlit place lane vc f.tail false (failures bad m1))
  else if !v.isOpen then owe place lane vc (countHeader place (failures bad m))
  else if v.discard then owe place lane vc (noteFlit place lane vc f.tail true (failures bad m))
  else joinFlit place lane vc { f with z := crazeQuarters f.z bad } (noteFlit place lane vc f.tail false (failures bad m))

/-- The flit that the control bits, data and sideband of a link describe; what travels beside a HEAD is the sender's. -/
def flitOf (ctl : BitVec 12) (d : BitVec 1024) (sb : BitVec 128) (sent : LinkFlit) : Flit :=
  { head := ctl.getLsbD 7, tail := ctl.getLsbD 6, abort := ctl.getLsbD 5 && ctl.getLsbD 6, data := d, z := sb.extractLsb' 64 32,
    mark := (sent.body.map fun b => b.2.mark).getD Mark.none, owed := true }

/-- A flit's data and sideband arrive on a lane of a place (R304 to R306). A double error of CCHK loses the flit with its credits, and
counts against quarter 3, whose wires carry those bits. DESIGN CHOICE (assumption 102): a flit whose VC field is 5 to 7 is ignored
after its credits. -/
def receiveBits (place lane : Nat) (d : BitVec 1024) (sb : BitVec 128) (sent : LinkFlit) (m : Mesh) : Mesh :=
  match cchkCorrect (sb.extractLsb' 116 12) (sb.extractLsb' 110 6) with
  | none => linkEvents place lane [3] (countLinkErr 1 place m)
  | some (c, fixed) =>
    let m1 := if fixed then linkEvents place lane [3] (countLinkErr 1 place m) else m
    let m2 := linkCredits place lane (c.extractLsb' 0 5) m1
    let bad := badQuarters d sb
    let vc := getField c 8 3
    if !c.getLsbD 11 ∨ vc > 4 then linkEvents place lane bad (countLinkErr bad.length place m2)
    else acceptFlit place lane vc (flitOf c d sb sent) bad m2

/-- An idle flit. -/
def LinkFlit.idle : LinkFlit := { entry := 0, credit := 0#5, body := none }

/-- The flit that a lane of a place receives next, and the link without it: the oldest on the link, on a seam crossing only when the
read pointer has come to it (R320, R381, R382); an idle flit otherwise. -/
def nextFlit (place lane : Nat) (m : Mesh) : LinkFlit × Mesh :=
  match getLink m (laneKey place lane) with
  | [] => (LinkFlit.idle, m)
  | l :: rest =>
    if isSeam m place lane && decide (crossR m (crossKey place lane) < l.entry) then (LinkFlit.idle, m)
    else (l, setLink m (laneKey place lane) rest)

/-- A place receives a link's next flit, with the bits that the link inverted (R304 to R306). -/
def receiveLink (place lane : Nat) (dataErr : BitVec 1024) (sideErr : BitVec 128) (m : Mesh) : Mesh :=
  let n := nextFlit place lane m
  let b := linkBits n.1
  receiveBits place lane (b.1 ^^^ dataErr) (b.2 ^^^ sideErr) n.1 n.2

/-- The open packet of a VC is closed after 64 cc without a flit (R309). -/
def abortVc (place lane vc : Nat) (m : Mesh) : Mesh :=
  if (getIn m (vcKey place lane vc)).isOpen then closeOpen place lane vc m else m

/-- A VC whose input buffer stayed empty, with no flit of it on the link, for 64 cc has its credits at full depth again (R307). -/
def resetCredits (place lane vc : Nat) (m : Mesh) : Mesh :=
  let onLink := (getLink m (laneKey place lane)).any fun l => l.body.any fun b => decide (b.1 = vc)
  match farPlace m place lane with
  | none => m
  | some t =>
    if (getIn m (vcKey place lane vc)).buf.isEmpty && !onLink then
      let clear := fun (c : BitVec 5) => setField c vc 1 0
      { m with
        outs := smMod VcOut.reset m.outs (vcKey t (backLane lane) vc) fun x => { x with used := 0 }
        credits := smMod 0#5 m.credits (laneKey place lane) clear
        links := smMod [] m.links (laneKey t (backLane lane)) fun l => l.map fun x => { x with credit := clear x.credit } }
    else m

/-! ### Where the flits at a router go -/

/-- The input port, and output port, of a number (Table 10.1). -/
def portOf (n : Nat) : RPort :=
  match n with
  | 0 => .north | 1 => .east | 2 => .south | 3 => .west | _ => .loc

/-- The lanes of an input port. -/
def inLanes (n : Nat) : List Nat :=
  match n with
  | 0 => [0, 1] | 1 => [2] | 2 => [3, 4] | 3 => [5] | _ => [6]

/-- The lanes of an output port. -/
def outLanes (n : Nat) : List Nat :=
  match n with
  | 0 => [0, 1] | 1 => [2] | 2 => [3, 4] | 3 => [5] | _ => [7]

/-- The order in which an input port offers its VCs (R308). -/
def vcOrder : List Nat := [3, 4, 1, 2, 0]

/-- The order in which local ejection is drained: VC4 first (Table 9.3). -/
def drainOrder : List Nat := [4, 3, 1, 2, 0]

/-- The outputs of the packet whose header stands at a router: its fork set as a multicast, one port otherwise (R314, R323,
R324). -/
def branchesOf (mem : Nat → Packet → Bool) (here : Nat) (p : Packet) : List Branch :=
  (if p.mcast then forkSet here p.src p.prect (mem here p) else [packetPort here p]).map fun x =>
    { port := x, lane := none, took := false, sent := false, dropped := false }

/-- An input VC with a HEAD at its front knows its packet's outputs. -/
def routeVc (mem : Nat → Packet → Bool) (here : Nat) (v : VcIn) : VcIn :=
  match v.hdr, v.buf with
  | none, f :: _ =>
    match parseHead f.data f.mark with
    | some p => { v with hdr := some p, branches := branchesOf mem here p }
    | none => v
  | _, _ => v

/-- The keys of the VCs of a site's inputs. -/
def inKeys (site : Nat) : List Nat := (List.range 7).flatMap fun l => (List.range 5).map fun v => vcKey site l v

/-- Every input VC of a site routed. -/
def routeSite (mem : Nat → Packet → Bool) (site : Nat) (m : Mesh) : Mesh :=
  (inKeys site).foldl (fun m k => if (getIn m k).buf.isEmpty then m else setIn m k (routeVc mem site (getIn m k))) m

/-- Does an output lane of a place have a credit of VC vc: its receiver has room and the crossing does not hold its sender (R307,
R382)? -/
def hasCredit (m : Mesh) (place lane vc : Nat) : Bool :=
  decide ((getOut m (vcKey place lane vc)).used < laneDepth m place lane) &&
  (decide (lane = 7) || match farPlace m place lane with
    | some t => !(isSeam m place lane && decide (crossSep m (crossKey t (backLane lane)) (routerField place) ≥ 8))
    | none => false)

/-- Does branch b of an input VC still need the flit at the front, on output port o and lane l? -/
def branchWants (o : Nat) (b : Branch) : Bool := decide (b.port = portOf o) && !b.took && !b.dropped

/-- Can input VC k send the flit at its front to output o on lane l: a branch needs it there, the VC of the lane is free for a HEAD or
held by this packet, and it has a credit (R307, R308)? -/
def offers (m : Mesh) (site o l k : Nat) : Bool :=
  let v := getIn m k
  let x := getOut m (vcKey site l (k % 8))
  match v.buf with
  | [] => false
  | f :: _ =>
    v.branches.any (fun b => branchWants o b && (decide (b.lane = some l) || (b.lane.isNone && f.head))) &&
    (decide (x.owner = some k) || (x.owner.isNone && f.head)) && !x.abortDue && hasCredit m site l (k % 8)

/-- The input VC that input port i offers to output o on lane l: the first in the order of R308. -/
def candidate (m : Mesh) (site i o l : Nat) : Option Nat :=
  (vcOrder.flatMap fun v => (inLanes i).map fun x => vcKey site x v).find? (offers m site o l)

/-- Does input port i have a flit for output o, with or without a credit? -/
def portWants (m : Mesh) (site o i : Nat) : Bool :=
  ((inLanes i).flatMap fun x => (List.range 5).map fun v => vcKey site x v).any fun k =>
    !(getIn m k).buf.isEmpty && (getIn m k).branches.any (branchWants o)

/-! ### Sending -/

/-- A place sends a flit on a lane, with the credits that wait there (R304); on a seam crossing it takes the next entry (R320). -/
def putLink (place lane : Nat) (body : Option (Nat × Flit)) (m : Mesh) : Mesh :=
  match farPlace m place lane with
  | none => m
  | some t =>
    let back := laneKey t (backLane lane)
    let x := crossKey t (backLane lane)
    let seam := isSeam m place lane
    let e := if seam then crossW m x (routerField place) else 0
    let l : LinkFlit := { entry := e, credit := smGet 0#5 m.credits (laneKey place lane), body := body }
    let m1 := setLink { m with credits := smSet 0#5 m.credits (laneKey place lane) 0#5 } back (getLink m back ++ [l])
    if seam then { m1 with crossings := smMod Crossing.reset m1.crossings x fun c => { c with last := e } } else m1

/-- An output lane of a site sends a flit of VC vc: on its link, or into the ejection buffer of the local port. -/
def sendOn (site lane vc : Nat) (f : Flit) (m : Mesh) : Mesh :=
  let k := vcKey site lane vc
  let m1 := { m with outs := smMod VcOut.reset m.outs k fun x => { x with used := x.used + 1 } }
  if lane = 7 then setIn m1 k { getIn m1 k with buf := (getIn m1 k).buf ++ [{ f with owed := true }] }
  else putLink site lane (some (vc, { f with owed := true })) m1

/-- The account of a packet's flits: its job, or 255 for the signal box's CONTROL packets (R420, R479). -/
def flitAccount (h : Option Packet) : Nat :=
  match h with
  | some p => match p.typ with
    | .control => 255
    | _ => p.job
  | none => 255

/-- Input VC k sends the flit at its front to output o on lane l: the lane's VC is the packet's until its TAIL (R308). -/
def moveFlit (site o l k : Nat) (m : Mesh) : Mesh :=
  let v := getIn m k
  match v.buf with
  | [] => m
  | f :: _ =>
    let took := v.branches.map fun b => if branchWants o b then { b with took := true, sent := true, lane := some l } else b
    let m1 := setIn m k { v with branches := took }
    let out := vcKey site l (k % 8)
    let m2 := sendOn site l (k % 8) f (setOut m1 out { getOut m1 out with owner := if f.tail then none else some k })
    if l = 7 then m2 else { m2 with flits := smMod 0 m2.flits (flitAccount v.hdr) (· + 1) }

/-- One grant cycle of an output on one of its lanes, at slot p: who raises, the arbiter's choice, and the flit that moves (R308,
R333 to R336). -/
def laneCycle (v : ArbVals) (site o l p : Nat) (laneB : Bool) (a : ArbInst) (m : Mesh) : Mesh × ArbInst :=
  let able := fun (i : Nat) => (candidate m site i o l).isSome
  let asks := (List.range 5).filter fun i => routerMayAsk o i && portWants m site o i
  let r := arbCycle v 5 p laneB able (keepAsking asks a) (asks.filter able)
  (match r.2 with
    | some i => match candidate m site i o l with
      | some k => moveFlit site o l k m
      | none => m
    | none => m, r.1)

/-- One cc of an output: one grant cycle, or lanes A and B of a vertical output (R333, R346). -/
def outputCycle (b : ArbBank) (site o : Nat) (a : ArbInst) (m : Mesh) : Mesh × ArbInst :=
  match outLanes o with
  | [x, y] =>
    let p := 2 * b.ptr % 64
    let r := laneCycle b.effV site o x p false a m
    laneCycle b.effV site o y (p + 1) true r.2 r.1
  | l => laneCycle b.set_.eff site o (l.headD 7) b.ptr false a m

/-- One cc of the outputs of a site. -/
def siteCycle (b : ArbBank) (site : Nat) (acc : Mesh × SMap ArbInst) : Mesh × SMap ArbInst :=
  (List.range 5).foldl (fun acc o =>
    let i := routerInst (localIndex site) o
    let r := outputCycle b site o (smGet ArbInst.reset acc.2 i) acc.1
    (r.1, smSet ArbInst.reset acc.2 i r.2)) acc

/-! ### The cycle of a field -/

/-- The input VC after the flit at its front has gone to every output. -/
def popVc (v : VcIn) : VcIn :=
  match v.buf with
  | [] => v
  | f :: rest =>
    if f.tail then { v with buf := rest, hdr := none, branches := [] }
    else { v with buf := rest, branches := v.branches.map fun b => { b with took := false } }

/-- Has every output of the packet taken the flit at the front, or been dropped (R326)? -/
def allTook (v : VcIn) : Bool := v.hdr.isSome && !v.buf.isEmpty && v.branches.all fun b => b.took || b.dropped

/-- Input VC k lets a flit go that every output has taken, and owes its place (R304, R326). -/
def settleVc (site k : Nat) (m : Mesh) : Mesh :=
  let v := getIn m k
  if allTook v then
    let m1 := setIn m k (popVc v)
    if (v.buf.head?).any (·.owed) then owe site (k / 8 % 8) (k % 8) m1 else m1
  else m

/-- An ABORT tail that a dropped branch is owed goes out at its next credit, and the VC is free (R326). -/
def sendAborts (site : Nat) (m : Mesh) : Mesh :=
  ((List.range 8).flatMap fun l => (List.range 5).map fun v => (l, v)).foldl (fun m x =>
    let k := vcKey site x.1 x.2
    if (getOut m k).abortDue && hasCredit m site x.1 x.2 then
      sendOn site x.1 x.2 { abortTail with owed := true } (setOut m k { getOut m k with abortDue := false, owner := none })
    else m) m

/-- One flit of the local port moves into its input buffer, in the order of R308 (Table 9.3). -/
def feedSite (site : Nat) (m : Mesh) : Mesh :=
  match vcOrder.find? fun v => !(getFeed m (vcKey site 6 v)).isEmpty && decide ((getIn m (vcKey site 6 v)).buf.length < 8) with
  | none => m
  | some v =>
    let k := vcKey site 6 v
    match getFeed m k with
    | [] => m
    | f :: rest => setIn (setFeed m k rest) k { getIn m k with buf := (getIn m k).buf ++ [{ f with owed := false }] }

/-- One flit of the local ejection buffer is taken, VC4 ahead of every other (Table 9.3). -/
def drainSite (site : Nat) (m : Mesh) : Mesh :=
  match drainOrder.find? fun v => !(getIn m (vcKey site 7 v)).buf.isEmpty with
  | none => m
  | some v =>
    let k := vcKey site 7 v
    match (getIn m k).buf with
    | [] => m
    | f :: rest =>
      gather k site f (setOut (setIn m k { getIn m k with buf := rest }) k { getOut m k with used := (getOut m k).used - 1 })

/-- The lane on which an edge unit sends to its router. DESIGN CHOICE (assumption 101): channel controllers use lane A. -/
def edgeLane (place : Nat) : Nat :=
  if place < 8192 then (if siteY place = 0 then 3 else 0) else if siteX place = 0 then 2 else 5

/-- One flit of an edge unit goes to its router. -/
def feedEdge (place : Nat) (m : Mesh) : Mesh :=
  let l := edgeLane place
  match vcOrder.find? fun v => !(getFeed m (vcKey place 6 v)).isEmpty && hasCredit m place l v with
  | none => m
  | some v =>
    match getFeed m (vcKey place 6 v) with
    | [] => m
    | f :: rest =>
      putLink place l (some (v, { f with owed := true }))
        { setFeed m (vcKey place 6 v) rest with
          outs := smMod VcOut.reset m.outs (vcKey place l v) fun x => { x with used := x.used + 1 } }

/-- Credits that found no flit to go with leave in an idle flit: `ks` are the lanes of the places at which they waited. -/
def flushCredits (ks : List Nat) (m : Mesh) : Mesh :=
  ks.foldl (fun m k => if smGet 0#5 m.credits k = 0#5 then m else putLink (k / 8) (k % 8) none m) m

/-- The places of a list of keys that lie in field f. -/
def placesOf (f : Nat) (ks : List Nat) : List Nat := ((ks.map (· / 64)).filter fun p => decide (routerField p = f)).eraseDups

/-- The places of field f with flits to move. -/
def busyPlaces (f : Nat) (m : Mesh) : List Nat :=
  placesOf f ((m.ins.filter fun v => !v.2.buf.isEmpty).map (·.1) ++ m.feeds.map (·.1) ++
    (m.outs.filter fun v => v.2.abortDue).map (·.1))

/-- The pointers of the crossings of field f after a cycle of its clock: a write pointer that would run more than 8 entries ahead
is held and counted, a read pointer that would come nearer than 2 is held (R382). -/
def tickSeams (f : Nat) (m : Mesh) : Mesh :=
  let into := (crossingsInto f).filter fun x => decide (crossSep m x.1 x.2 ≤ 2)
  let from_ := (List.range 8).flatMap fun g => (crossingsInto g).filter fun x => decide (x.2 = f) && decide (crossSep m x.1 f ≥ 8)
  let m1 := into.foldl (fun m x => { m with crossings := smMod Crossing.reset m.crossings x.1 fun c => { c with r := c.r - 1 } }) m
  let m2 := from_.foldl (fun m x =>
    { m with
      crossings := smMod Crossing.reset m.crossings x.1 fun c => { c with w := c.w - 1 }
      holdCc := smMod 0 m.holdCc (crossInto x.1) fun n => sat32 n 1 }) m1
  { m2 with ccs := smMod 0 m2.ccs f (· + 1) }

/-- One cc of the routers of field f and of the edge units attached to it: flits at the inputs are routed, each output grants, edge
units send, credits return, flits taken by every output leave, local ports eject and inject (R302 to R308, R324, R333 to R336). `mem`
says which sites are members of a multicast. -/
def fieldCycle (mem : Nat → Packet → Bool) (f : Nat) (m0 : Mesh) : Mesh :=
  let b := takeBank true (smGet ArbBank.reset m0.arbs f)
  let places := busyPlaces f m0
  let sites := places.filter isRouter
  let owed := (m0.credits.map (·.1)).filter fun k => decide (routerField (k / 8) = f)
  let m1 := sites.foldl (fun m s => routeSite mem s m) m0
  let m2 := sites.foldl (fun m s => sendAborts s m) m1
  let busy := sites.flatMap fun s => (List.range 5).map (routerInst (localIndex s))
  let r := sites.foldl (fun acc s => siteCycle b s acc) (m2, idleInsts busy b.insts)
  let m3 := (places.filter fun p => !isRouter p).foldl (fun m p => feedEdge p m) r.1
  let m4 := flushCredits owed m3
  let m5 := sites.foldl (fun m s => (inKeys s).foldl (fun m k => settleVc s k m) m) m4
  let m6 := sites.foldl (fun m s => feedSite s (drainSite s m)) m5
  tickSeams f { m6 with arbs := smSet ArbBank.reset m6.arbs f { b with ptr := (b.ptr + 1) % 64, insts := r.2 } }

/-! ### Forks and seams -/

/-- The DROP_NOTICE of a fork at a router for the branch on a port: to the source of the multicast, for the data of an XCAST from HBM
its issuer (R326, R327). -/
def dropPkt (here : Nat) (port : RPort) (p : Packet) : Packet :=
  { Packet.blank with
    typ := .dropNotice, src := here, dst := p.cast.getD p.src, job := p.job, tag := p.tag, xid := p.xid,
    prect := branchRect here p.prect port }

/-- A fork at a router drops the branch on a port that has not taken the flit at the front of an input VC; with the HEAD sent the
branch gets an ABORT tail (R326). The notice, when a branch is dropped. -/
def dropBranch (site lane vc : Nat) (port : RPort) (m : Mesh) : Mesh × Option Packet :=
  let k := vcKey site lane vc
  let v := getIn m k
  match v.hdr, v.branches.find? fun b => decide (b.port = port) && !b.took && !b.dropped with
  | some p, some b =>
    if p.mcast && !v.buf.isEmpty then
      let m1 := setIn m k { v with branches := v.branches.map fun x => if x.port = port then { x with dropped := true } else x }
      let m2 := match b.sent, b.lane with
        | true, some l => { m1 with outs := smMod VcOut.reset m1.outs (vcKey site l vc) fun x => { x with abortDue := true } }
        | _, _ => m1
      (modFieldMesh m2 (routerField site) fun f => { f with mcastDrop := sat32 f.mcastDrop 1 }, some (dropPkt site port p))
    else (m, none)
  | _, _ => (m, none)

/-- A crossing whose separation is not 4 and whose last 16 entries are idle without credits recentres (R383). -/
def recentreSeam (place lane : Nat) (m : Mesh) : Mesh :=
  if isSeam m place lane then
    let x := crossKey place lane
    let g := routerField ((farPlace m place lane).getD place)
    let sep := crossSep m x g
    if (sep ≠ 4) ∧ crossW m x g > (getCross m x).last + 16 then
      { m with
        crossings := smMod Crossing.reset m.crossings x fun c => { c with r := c.r + (sep - 4) }
        recentres := smMod 0 m.recentres (crossInto x) fun n => sat32 n 1 }
    else m
  else m

/-! ### Local ports -/

/-- The flits of a packet enter at a place's lane 6, on the packet's VC. -/
def feedPacket (place : Nat) (p : Packet) (m : Mesh) : Mesh :=
  let k := vcKey place 6 (packetVc p)
  setFeed m k (getFeed m k ++ packetFlits p)

/-- The packets in the flits that wait at a port, whole packets only. -/
def splitHeads : List Flit → List (List Flit)
  | [] => []
  | f :: l =>
    match splitHeads l with
    | [] => [[f]]
    | g :: gs => if (g.headD f).head then [f] :: g :: gs else (f :: g) :: gs

/-- Does a router itself send the packet of these flits: a NACK or a DROP_NOTICE? -/
def routersOwn (fs : List Flit) : Bool :=
  (flitsPacket fs).any fun p => decide (p.typ = .nack) || decide (p.typ = .dropNotice)

/-- What is left of the flits that wait at a local port when it closes: a packet that its core is injecting ends with an ABORT tail,
packets of which nothing was injected are gone, and those that the router itself sends stay (R330). -/
def closeFeed (l : List Flit) : List Flit :=
  (match l with
    | f :: _ => if f.head then [] else [{ abortTail with owed := true }]
    | [] => []) ++ ((splitHeads l).filter fun fs => (fs.headD abortTail).head && routersOwn fs).flatten

/-- A site's local port stops injecting: the port has closed (R330). -/
def stopFeeds (site : Nat) (m : Mesh) : Mesh :=
  (List.range 5).foldl (fun m v => setFeed m (vcKey site 6 v) (closeFeed (getFeed m (vcKey site 6 v)))) m

end Sys2Proof.Machine
end

