-- ==== Sys2Proof/Machine/State.lean ====
section
/-!
DEFINITION. Sys2Proof/Machine/State.lean: the whole state of the Velem, its value after reset, and the ways a command can
stop.
-/

namespace Sys2Proof.Machine

/-- The state of the module. `pending` holds the commands that wait, first in, first out; `cores` is keyed by site, `hosts`
and `trunks` by port; `out` holds what the module has sent out, in order; `free` counts the free values drawn (assumption 3).
Both, like `pending`, are the model's own. -/
structure State where
  pending : List Instr
  cores : SMap Core
  mesh : Mesh
  hbm : Hbm
  clock : Clock
  power : Power
  meter : Meter
  hosts : SMap HostPort
  queues : Queues
  trunks : SMap TPort
  jobs : List Job
  box : Box
  errlog : ErrLog
  history : History
  boot : Boot
  mail : Mailbox
  jtag : Jtag
  flash : SMap Byte
  fuses : Fuses
  tripped : Bool
  out : List OutMsg
  free : Nat
deriving DecidableEq, Repr

/-- Why a command faults. -/
inductive Fault where
  /-- The command names a unit that the module does not have: a site past 2,559, a port, lane, cluster, job id or field value
  out of range. Raised by every command with such an operand. Safe: no such command can reach the module. -/
  | noSuchUnit
deriving DecidableEq, Repr

/-- Why a command is refused. -/
inductive Refusal where
  /-- The command has no meaning yet. Raised by the arms of exec that say so, and by nothing else. Safe. -/
  | notModelled (mnemonic : String)
deriving DecidableEq, Repr

/-- The module at standby power-up, before bring-up: every register at its reset value, memory with nothing listed, no
command waiting (R16, R592, R600, R621). -/
def State.reset : State :=
  { pending := [], cores := [], mesh := Mesh.reset, hbm := Hbm.reset, clock := Clock.reset, power := Power.reset,
    meter := Meter.reset, hosts := [], queues := Queues.reset, trunks := [], jobs := [], box := Box.reset,
    errlog := ErrLog.reset, history := History.reset, boot := Boot.reset, mail := Mailbox.reset, jtag := Jtag.reset,
    flash := [], fuses := Fuses.reset, tripped := false, out := [], free := 0 }

end Sys2Proof.Machine
end

