-- ==== Sys2Proof/WellFormed.lean ====
section
/-!
DEFINITION. Sys2Proof/WellFormed.lean: which commands name units that exist. A command that names one that does not ends in
the fault noSuchUnit.
-/

namespace Sys2Proof

open Machine

/-- Every unit that the command names exists (R6, R7, R30, R299, R304, R441, R496), and its fields lie in their ranges. -/
def instrOk : Instr → Bool
  | .nop site => siteOk site
  | .loop site => siteOk site
  | .loopr site => siteOk site
  | .stop site => siteOk site
  | .stopDrained site => siteOk site
  | .halt site => siteOk site
  | .haltDrained site => siteOk site
  | .notice site => siteOk site
  | .time site => siteOk site
  | .mark site => siteOk site
  | .set site => siteOk site
  | .sethi site => siteOk site
  | .sets site => siteOk site
  | .add site => siteOk site
  | .sub site => siteOk site
  | .and site => siteOk site
  | .or site => siteOk site
  | .shl site => siteOk site
  | .shr site => siteOk site
  | .instructionIssue site => siteOk site
  | .instructionComplete site _ => siteOk site
  | .slotUpdate site => siteOk site
  | .slotStall site _ => siteOk site
  | .issueStall site => siteOk site
  | .vadd site => siteOk site
  | .vsub site => siteOk site
  | .vmul site => siteOk site
  | .vfma site => siteOk site
  | .vmax site => siteOk site
  | .vmin site => siteOk site
  | .vcmp site => siteOk site
  | .vsel site => siteOk site
  | .vand site => siteOk site
  | .vor site => siteOk site
  | .vxor site => siteOk site
  | .vtrans site => siteOk site
  | .vred site => siteOk site
  | .vmov site => siteOk site
  | .vsplat site => siteOk site
  | .vbcast site => siteOk site
  | .vperm site => siteOk site
  | .vquant site => siteOk site
  | .vdeq site => siteOk site
  | .vldr site => siteOk site
  | .vldc site => siteOk site
  | .vldn site => siteOk site
  | .vstr site => siteOk site
  | .vstc site => siteOk site
  | .vstn site => siteOk site
  | .mmode site => siteOk site
  | .mload site => siteOk site
  | .mloadComplete site => siteOk site
  | .mstream site => siteOk site
  | .mstreamColumn site _ => siteOk site
  | .mdrain site _ => siteOk site
  | .mclear site => siteOk site
  | .xget site => siteOk site
  | .xput site => siteOk site
  | .xhalo site => siteOk site
  | .xcast site => siteOk site
  | .sset site => siteOk site
  | .swait site => siteOk site
  | .spost site => siteOk site
  | .sfree site => siteOk site
  | .barrier site => siteOk site
  | .release site => siteOk site
  | .fmtMonClear site => siteOk site
  | .wtestRes site => siteOk site
  | .wtestDup site => siteOk site
  | .imemLoad site _ pos _ => siteOk site && decide (pos < 8192)
  | .imemSwitchWrite site _ => siteOk site
  | .coreWindowRead site _ _ => siteOk site
  | .registerWrite src _ _ _ => match src with
    | .bar0 port => hostOk port
    | .box => true
  | .arbiterGrant kind n => arbOk (arbOf kind n)
  | .fettleDue site => siteOk site
  | .arbCommit arb => arbOk arb
  | .arbCommitTake arb => arbOk arb
  | .bankClose site bank => siteOk site && decide (bank < 36)
  | .bankPowerUpDone site bank => siteOk site && decide (bank < 36)
  | .packetInject site _ => siteOk site || decide (site = boxSite)
  | .linkFlitReceive place lane _ _ _ _ => laneExists place lane
  | .seamRecentre x y lane => decide (x < 64) && siteOk (placeAt x y) && laneExists (placeAt x y) lane
  | .vcCreditReset place lane vc => vcOk place lane vc
  | .packetAbortTimeout x y lane vc => decide (x < 64) && vcOk (placeAt x y) lane vc
  | .forkBranchDrop site lane vc _ => siteOk site && vcOk site lane vc
  | .dropNotice _ => true
  | .portClose field x y reason => fieldOk field && decide (x < 16) && decide (y < 20) && decide (1 ≤ reason) && decide (reason ≤ 5)
  | .portReopen site => siteOk site
  | .packetToClosedPort _ site => siteOk site
  | .writePacket _ => true
  | .readPacket _ => true
  | .readDataPacket _ => true
  | .ackPacket _ => true
  | .nackPacket _ => true
  | .mcastWritePacket _ => true
  | .hbmDataPacket _ => true
  | .creditPacket _ => true
  | .barrierArrival _ => true
  | .barrierRelease _ => true
  | .controlPacket _ => true
  | .hbmRequestGrant channel onDie => chanOk channel && onDie.all (fun b => decide (b.1 < 2))
  | .hbmRefresh stack channel => stackOk stack && decide (channel < 32)
  | .stackTempRead stack _ => stackOk stack
  | .hbmCfgRetrain field stack => fieldOk field && decide (stack < 2)
  | .stackRetrainEnd stack _ _ _ => stackOk stack
  | .marginTrip droop unit _ => if droop then clusterOk unit else siteOk unit
  | .stretchEnd field _ => fieldOk field
  | .dividerArm _ => true
  | .dividerSwitch => true
  | .dividerDeferTimeout => true
  | .rootClockLost => true
  | .timeSlew ticks => decide (ticks = 0) || decide (ticks = 2)
  | .feedALow _ _ => true
  | .feedARecovered _ _ => true
  | .feedBLow _ _ => true
  | .bothFeedsLow _ _ => true
  | .capChange => true
  | .hostCapWrite _ => true
  | .railPhaseFail field meshRail phase => fieldOk field && decide (phase < if meshRail then 8 else 24)
  | .sliceFail cluster slices => clusterOk cluster && slices.all (fun i => decide (i < 4))
  | .clusterShort cluster => clusterOk cluster
  | .coreWave row fields _ => decide (row < 20) && fields.all fieldOk
  | .crackSuspect cluster => clusterOk cluster
  | .clusterEstimate cluster _ => clusterOk cluster
  | .dieEstimate _ _ _ => true
  | .reconcileGain _ => true
  | .powerAverages _ => true
  | .thermalReading _ => true
  | .thermalDividerStep => true
  | .coolDownEnd cluster => clusterOk cluster
  | .criticalTrip => true
  | .meterPeriodEnd _ => true
  | .waybillWrite => true
  | .ledgerFlashUpdate => true
  | .ledgerReadWrite _ => true
  | .doorbell port _ => hostOk port
  | .queueEntryWrite port _ _ => hostOk port
  | .qdescWrite port _ => hostOk port
  | .cqDoorbell port _ _ => hostOk port
  | .cqEnableWrite port queue _ => hostOk port && decide (queue < 64)
  | .cringEnableWrite port ring _ => hostOk port && decide (ring < 256)
  | .cringHeadWrite port ring _ => hostOk port && decide (ring < 256)
  | .admitJob _ _ => true
  | .loadWeights _ _ => true
  | .save _ => true
  | .saveAtStop job => jobOk job
  | .resume _ _ => true
  | .resumeRestore job _ => jobOk job
  | .retireJob _ => true
  | .query _ => true
  | .submit _ => true
  | .yardGatherTimeout job => jobOk job
  | .yardInputRead job _ => jobOk job
  | .jobAtStop job _ => jobOk job
  | .completionPost port ring => hostOk port && decide (ring < 256)
  | .coalesceTimer port ring => hostOk port && decide (ring < 256)
  | .perstAssert pulse => hostOk pulse.port
  | .perstDeassert port => hostOk port
  | .configRequest port _ => hostOk port
  | .trunkTrainAdvance port _ _ _ => trunkOk port
  | .trunkTrainTimeout port => trunkOk port
  | .laneFail port whole lane => trunkOk port && (whole || decide (lane < 8))
  | .spareSwap swap => trunkOk swap.port && decide (swap.peer.getD 0 < 8)
  | .trunkCtrlRetrain port => trunkOk port
  | .trunkFlitReceive port _ _ _ => trunkOk port
  | .trunkReplayTimeout port => trunkOk port
  | .trunkAckTimer port => trunkOk port
  | .trclkLost _ => true
  | .discover port => trunkOk port
  | .discoverTimer port => trunkOk port
  | .heartbeat port => trunkOk port
  | .trunkHeartbeatTimer port => trunkOk port
  | .heartbeatTimeout port => trunkOk port
  | .timeSyncTimer => true
  | .timeReq port => trunkOk port
  | .timeResp port => trunkOk port
  | .freqSetSet port => trunkOk port
  | .freqSetLimit port => trunkOk port
  | .freqSetApplied port => trunkOk port
  | .freqSetCancelled port => trunkOk port
  | .submitCommand port => trunkOk port
  | .submitAnnounce port => trunkOk port
  | .submitDispatch port => trunkOk port
  | .completeCommand port => trunkOk port
  | .completeArrived port => trunkOk port
  | .completeRelease port => trunkOk port
  | .completeJobEnd port => trunkOk port
  | .multiAdmitTimeout job => jobOk job
  | .pushTo port => trunkOk port
  | .pushBroadcast port => trunkOk port
  | .pullReq port => trunkOk port
  | .pullData port => trunkOk port
  | .collectUp port => trunkOk port
  | .collectDown port => trunkOk port
  | .exchangeEntry job => jobOk job
  | .digest port => trunkOk port
  | .digestTimeout job => jobOk job
  | .recovery job _ => jobOk job
  | .recoveryHaltTimeout job => jobOk job
  | .dumpFlashCopy => true
  | .errlogFlashWrite => true
  | .heartbeatTimer _ _ => true
  | .partitionReset partition _ _ _ => fieldOk partition
  | .partitionResetTimeout partition => fieldOk partition
  | .suspectReplay _ => true
  | .replayWatchdog job => jobOk job
  | .historyTimeTick => true
  | .feedGood _ _ _ => true
  | .signalBoxSelfTest _ _ => true
  | .imageCheck _ _ _ _ => true
  | .bisqueFiring _ => true
  | .coreSelfTest _ => true
  | .hbmTraining _ _ => true
  | .glazeFiring => true
  | .ready _ => true
  | .bootStepTimeout => true
  | .modResetLow _ => true
  | .modResetRelease => true
  | .portPresentChange port _ => trunkOk port
  | .trunkRetryBackoff port => trunkOk port
  | .trunkQuarantineEnd port => trunkOk port
  | .flashSwitch _ => true
  | .mailboxStatus => true
  | .mailboxAddr _ _ => true
  | .mailboxWrite _ _ => true
  | .mailboxLen _ _ => true
  | .mailboxRead => true
  | .flashErase _ _ => true
  | .flashWrite _ _ => true
  | .flashRead _ _ => true
  | .alertResponse => true
  | .hostLinkDown port => hostOk port
  | .hostLinkUp port _ _ _ => hostOk port
  | .jtagInstruction _ _ => true
  | .mailboxBusyEnd => true
  | .standbyPlaneLoss => true
  | .retrainingLimit port => trunkOk port

end Sys2Proof
end

