-- ==== Sys2Proof/Machine/Ops.lean ====
section
/-!
DEFINITION. Sys2Proof/Machine/Ops.lean: the operations over the whole state that the meanings share: reaching a core, a port
or a job, the fault history and the error log, fences, and what a module reset or a loss of the rails leaves.
-/

namespace Sys2Proof.Machine

/-- How a command ends in this model. -/
abbrev Out := Host.Outcome State Fault Refusal

/-- The next state when the command's units exist, the fault noSuchUnit when one does not (assumption 5). -/
def answer (ok : Bool) (s : State) : Out := if ok then .next s else .fault .noSuchUnit

/-- A tick with no command waiting: the time counter counts one tt once the root is locked (R388, assumption 4). -/
def idleTick (s : State) : State := { s with clock := tickClock s.clock }

/-- The values of the image in use, or those of no image. -/
def imageVals (s : State) : ImageVals := s.boot.image.getD ImageVals.reset

/-- The time counter. -/
def timeNow (s : State) : Nat := s.clock.time

/-- The time counter reaches tick t (assumption 23). -/
def reachTick (t : Nat) (s : State) : State := { s with clock := { s.clock with time := max s.clock.time t % 2 ^ 64 } }

/-- n bytes that the manual leaves open: free values from index State.free on (assumption 3). -/
def openBytes (s : State) (n : Nat) : List Byte := (List.range n).map fun i => (Config.freeValue (s.free + i)).extractLsb' 0 8

/-- n bits that the manual leaves open. -/
def openBits (s : State) (n : Nat) : List Bool := (List.range n).map fun i => (Config.freeValue (s.free + i)).getLsbD 0

/-- n free values are drawn. -/
def drawFree (n : Nat) (s : State) : State := { s with free := s.free + n }

/-- Send messages out of the module. -/
def emit (ms : List OutMsg) (s : State) : State := { s with out := s.out ++ ms }

/-! ### Cores, ports, clusters -/

/-- The core at a site. -/
def getCore (s : State) (site : Nat) : Core := smGet Core.reset s.cores site

/-- The state with the core at a site replaced. -/
def putCore (site : Nat) (c : Core) (s : State) : State := { s with cores := smSet Core.reset s.cores site c }

/-- A host port. -/
def getHost (s : State) (p : Nat) : HostPort := smGet HostPort.reset s.hosts p

/-- The state with a host port replaced. -/
def putHost (p : Nat) (h : HostPort) (s : State) : State := { s with hosts := smSet HostPort.reset s.hosts p h }

/-- A trunk port. -/
def getTrunk (s : State) (n : Nat) : TPort := smGet TPort.reset s.trunks n

/-- The state with a trunk port replaced. -/
def putTrunk (n : Nat) (t : TPort) (s : State) : State := { s with trunks := smSet TPort.reset s.trunks n t }

/-- A cluster's power state. -/
def getCluster (s : State) (k : Nat) : ClusterPwr := getCl s.power k

/-- The state with f applied to a cluster. -/
def modCluster (k : Nat) (f : ClusterPwr → ClusterPwr) (s : State) : State := { s with power := modCl s.power k f }

/-- Is the core powered: its cluster is on, or powers up and has had the wave of its north row, which the core is in (R405, R414,
R415)? -/
def coreLive (s : State) (site : Nat) : Bool :=
  let k := (getCluster s (siteCluster site)).state
  decide (k = 2) || (decide (k = 1) && decide (siteY site % 2 = 0))

/-- The field that a cluster lies in. -/
def clusterField (k : Nat) : Nat := siteField ((clusterSites k).headD 0)

/-- Do the sensors of a cluster take part in the stretch of its field: its regulator runs, it is not gated for a cool-down, and not
fenced (R379)? -/
def sensorsLive (s : State) (k : Nat) : Bool :=
  (decide ((getCluster s k).state = 1) || decide ((getCluster s k).state = 2)) && decide ((getCluster s k).thermState ≤ 1) &&
  !(clusterSites k).all fun x => (getCore s x).fenced

/-- The sensors of clusters that take part no more leave the stretch decision (R379, R405). -/
def settleSensors (s : State) : State :=
  { s with clock := dropSensors (fun q => !sensorsLive s (if q < 640 then q else siteCluster (q - 640))) s.clock }

/-- The root periods of a cycle of field f: the divider and the stretch in force (R378). -/
def fieldRc (s : State) (f : Nat) : Nat := s.clock.div + (getFieldClk s.clock f).depth

/-! ### The error log and the fault history -/

/-- The MSI-X messages that an error log entry brings on the ports that enable them (R574). -/
def logSignals (s : State) : State :=
  let sig := fun (s : State) (p : Nat) (en : Bool) (v : Nat) =>
    if en && portPresent (getHost s p) then
      let r := signalVector p (getHost s p) v
      emit r.2 (putHost p r.1 s)
    else s
  sig (sig s 0 s.errlog.en0 s.errlog.vec0) 1 s.errlog.en1 s.errlog.vec1

/-- One error log entry (R574). -/
def logEvent (e : LogEvent) (s : State) : State :=
  logSignals { s with errlog := addLog s.errlog e (timeNow s) s.history.time }

/-- One event against a unit in the fault history; a unit that becomes permanent is logged (R571, R572, Table 19.7). -/
def histEvent (u : Nat) (s : State) : State :=
  let r := addHistory s.history u
  let s1 := { s with history := r.1 }
  if r.2 then logEvent { LogEvent.of 9 with unit := u } s1 else s1

/-- Events against units, in order. -/
def histEvents (us : List Nat) (s : State) : State := us.foldl (fun s u => histEvent u s) s

/-- The unit key of an event that a core of a site reports: its witness or a bank (R571). -/
def coreUnit (site : Nat) (e : Nat × Nat) : Nat := if e.1 = 0 then unitCore site else unitBank site e.2

/-- The events that the core of a site holds enter the history. -/
def flushCore (site : Nat) (s : State) : State :=
  let c := getCore s site
  match c.events with
  | [] => s
  | es => histEvents (es.map (coreUnit site)) (putCore site { c with events := [] } s)

/-- The events that the partitions hold enter the history. -/
def flushHbm (s : State) : State :=
  histEvents (s.hbm.events.map fun e => unitChan e.2) { s with hbm := { s.hbm with events := [] } }

/-- The events that the mesh holds enter the history. -/
def flushMesh (s : State) : State := histEvents s.mesh.events { s with mesh := { s.mesh with events := [] } }

/-- The core at a site after f, its events entered. -/
def atCore (site : Nat) (f : Core → Core) (s : State) : State := flushCore site (putCore site (f (getCore s site)) s)

/-- The meaning of a command on one core. -/
def onCore (site : Nat) (f : Core → Core) (s : State) : Out := answer (siteOk site) (atCore site f s)

/-- f applied to the core of every site of a list. -/
def atCores (sites : List Nat) (f : Core → Core) (s : State) : State := sites.foldl (fun s k => atCore k f s) s

/-- The partitions after f, their events entered. -/
def atHbm (f : Hbm → Hbm) (s : State) : State := flushHbm { s with hbm := f s.hbm }

/-- The mesh after f, its events entered. -/
def atMesh (f : Mesh → Mesh) (s : State) : State := flushMesh { s with mesh := f s.mesh }

/-- A flit leaves by a trunk port, with the codewords that its bits complete on the lanes (R497, R498). -/
def putFlit (n : Nat) (s : State) (flit : List Byte) : State :=
  let r := laneFlit (getTrunk s n) flit
  emit (r.2.map (fun x => OutMsg.lane n x.1 x.2) ++ [.trunkFlit n flit]) (putTrunk n r.1 s)

/-- Flits leave by a trunk port, in order. -/
def putFlits (n : Nat) (flits : List (List Byte)) (s : State) : State := flits.foldl (putFlit n) s

/-- The meaning of a command on one trunk port: what it sends goes out. -/
def onTrunk (n : Nat) (f : TPort → TPort × List (List Byte)) (s : State) : Out :=
  let r := f (getTrunk s n)
  answer (trunkOk n) (putFlits n r.2 (putTrunk n r.1 s))

/-! ### Fences and usable sites (R291, R296, R297) -/

/-- Is a permanent unit on the site: its core, a bank that no spare stands for, or its cluster (R134, R135, R418, R572)? -/
def permanentSite (s : State) (site : Nat) : Bool :=
  s.history.permanent.any fun u =>
    let k := u % 2 ^ 28
    match u / 2 ^ 28 with
    | 1 => decide (k = site)
    | 2 => decide (k % 2 ^ 12 = site) &&
        !(decide (k / 2 ^ 17 = 0) && decide ((getCore s site).slab.spare = some (k / 2 ^ 12 % 32)))
    | 8 => decide (k = siteCluster site)
    | _ => false

/-- Is the partition in service: neither out nor in reset, and its channel controllers and PHYs powered by the field rail (R27, R400,
R565)? -/
def partInService (s : State) (p : Nat) : Bool :=
  !s.box.partsOut.contains p && !(s.box.resets.any fun r => r.begun && decide (r.part = p)) && (getRail s.power p).fieldOn

/-- Is the site usable: good in the kiln map, not fenced, and not of a partition that is out (R291, R402, R565, R583)? -/
def usable (s : State) (site : Nat) : Bool :=
  !s.box.kiln.contains site && !(getCore s site).fenced && !permanentSite s site && !s.box.partsOut.contains (siteField site)

/-- The spare count of the module: good, unfenced sites above 2,304 (R34). -/
def spareCount (s : State) : Nat := ((List.range 2560).filter (usable s)).length - 2304

/-- The placements held. -/
def heldPlaces (s : State) : List JobPlace := s.jobs.filterMap (·.place)

/-- SIGNAL.SPARES_f (R297). -/
def sparesWord (s : State) (f : Nat) : W64 :=
  let cols := (List.range 16).map fun j => (j, columnOk (usable s) f j, columnSpares (usable s) f j, columnHeld (heldPlaces s) f j)
  cols.foldl (fun w c =>
    let w1 := if c.2.1 then setField w (2 * c.1) 2 (min 2 c.2.2.1) else setField w (48 + c.1) 1 1
    if c.2.2.2 then setField w1 (32 + c.1) 1 1 else w1) 0#64

/-- SIGNAL.SPARES_f updated for every field (R297). -/
def updateSpares (s : State) : State :=
  { s with box := { s.box with spares := (List.range 8).foldl (fun m f => smSet 0#64 m f (sparesWord s f)) s.box.spares } }

/-- A site's local port closes with a reason, and what its core injects ends (R328, R330, MESH_PORT). -/
def closePort (reason site : Nat) (s : State) : State :=
  if (getPort s.mesh site).closed then
    { s with mesh := modPort s.mesh site fun p => { p with reason := if p.bypass then p.reason else reason } }
  else { s with mesh := stopFeeds site (modPort s.mesh site fun p => { p with closed := true, reason := if p.bypass then p.reason else reason }) }

/-- A site's local port opens again (R328). -/
def openPort (site : Nat) (s : State) : State :=
  { s with mesh := modPort s.mesh site fun p => { p with closed := false, reason := 0 } }

/-- Sites are fenced, with their ports closed. -/
def fenceSites (reason : Nat) (sites : List Nat) (s : State) : State :=
  updateSpares (settleSensors (sites.foldl (fun s k => closePort reason k (putCore k { getCore s k with fenced := true } s)) s))

/-- A core as an admission or a reset finds it: everything clear but the counters that only module reset clears, the spare
bank, the fence, and events not yet entered (R70, R78, R98, R134, R150, R160, R197, R201, R215, R527). A witness arming that was not
used is dropped, too. DESIGN CHOICE (assumption 104). -/
def clearedCore (c : Core) : Core :=
  { Core.reset with
    stream := { Stream.reset with imemRefused := c.stream.imemRefused }
    matrix := { Matrix.reset with witnessEvents := c.matrix.witnessEvents }
    slab := { Slab.reset with
      ce := c.slab.ce, ue := c.slab.ue, lateWrites := c.slab.lateWrites, lastErr := c.slab.lastErr, spare := c.slab.spare }
    fenced := c.fenced
    events := c.events }

/-- The core of a site loses its power or is reset: everything it held is gone, its site stays fenced or not as it was (R407,
R567). -/
def clearCore (site : Nat) (s : State) : State := putCore site (clearedCore (getCore s site)) s

/-- A cluster's four cores are gone: dark, fenced, their ports closed (R405). -/
def darkSites (k : Nat) (s : State) : State := fenceSites 2 (clusterSites k) ((clusterSites k).foldl (fun s x => clearCore x s) s)

/-! ### Packets -/

/-- A packet with the route that its source router chooses; none where it refuses, which is counted (R313 to R315). -/
def routePacket (p : Packet) (m : Mesh) : Option Packet × Nat × Mesh :=
  match chooseRoute m p.src p.dst with
  | .go o yt => (some { p with order := o, yt := yt }, 0, m)
  | .refuse st =>
    (none, st, if st = 4 then modFieldMesh m (routerField p.src) fun f => { f with noroute := sat32 f.noroute 1 } else m)

/-- A router sends a packet of its own, a NACK or a DROP_NOTICE, from its local lane; one that has no route is gone. -/
def sendFrom (site : Nat) (p : Packet) (m : Mesh) : Mesh :=
  match routePacket p m with
  | (some q, _, m1) => feedPacket site q m1
  | (none, _, m1) => m1

/-- Packet i of those that have arrived, of one of the types, with its place, and the state without it. -/
def takeArrived (types : List PktType) (i : Nat) (s : State) : Option (Arrived × State) :=
  match s.mesh.arrived[i]? with
  | some a =>
    if types.contains a.pkt.typ then some (a, { s with mesh := { s.mesh with arrived := listDel s.mesh.arrived i } }) else none
  | none => none

/-- Is the port of a site closed for a packet (R328)? -/
def closedFor (s : State) (site : Nat) (p : Packet) : Bool := portClosedFor s.mesh site (getCore s site).place p

/-- A closed port at a site consumes a packet; it answers some types with a NACK (R329) (assumption 103). -/
def closedDrop (site : Nat) (p : Packet) (s : State) : State :=
  let m := countDrop s.mesh site
  { s with mesh := if closedAnswers p then sendFrom site (nackPkt site 1 p) m else m }

/-- The edge units hand over a packet. -/
def pushEdge (p : Packet) (s : State) : State := { s with mesh := { s.mesh with edge := s.mesh.edge ++ [p] } }

/-! ### HBM packets of the edge units (R318, R319, R355) -/

/-- The signal box's side-band unit (Table 1.2). -/
def boxUnit (s : State) : SideUnit := .box s.boot.boxB

/-- The requester at the channel controllers for a packet that reached an entry router: its column group, or 8 for the signal box,
whose entry routers they recognise in SRC (R25, R319, R355). -/
def packetRequester (s : State) (router : Nat) (p : Packet) : Nat :=
  if (unitRouters (boxUnit s)).contains p.src then 8 else siteX router % 16 / 2

/-- Cut the n bytes from v on at 4 MiB pages: (offset, bytes). -/
def pagePieces (v n : Nat) : List (Nat × Nat) :=
  (List.range (if n = 0 then 0 else (v % 0x400000 + n + 0x3FFFFF) / 0x400000)).map fun i =>
    let lo := max v (v / 0x400000 * 0x400000 + i * 0x400000)
    let hi := min (v + n) (v / 0x400000 * 0x400000 + (i + 1) * 0x400000)
    (lo - v, hi - lo)

/-- The HBM packet of a side-band unit for n bytes of partition `part` from address v on (R319). -/
def unitPacket (m : Mesh) (u : SideUnit) (write : Bool) (job part v n : Nat) : Option Packet :=
  (unitEntry m u).map fun e =>
    { Packet.blank with
      typ := if write then .hbmWrite else .hbmRead, src := e, srcEdge := true, dst := unitHbmRouter m u part, dstEdge := true
      job := job, haddr := v, count := (v % 128 + n + 127) / 128 }

/-- A side-band unit's packet goes to its channel controllers: is it served, by a partition in service and over a route that exists?
Its requests count as grants (R420). DESIGN CHOICE (assumption 105): the command that makes the access stands for the packet's way,
its grants at requester 0, 7 or 8 and the answer. -/
def unitAccess (u : SideUnit) (write : Bool) (job part v n : Nat) (s : State) : Bool × State :=
  match unitPacket s.mesh u write job part v n with
  | none => (false, s)
  | some p =>
    match routePacket p s.mesh with
    | (none, _, m) => (false, { s with mesh := m })
    | (some _, _, m) =>
      if partInService s part then
        (true, { s with mesh := m, hbm := { s.hbm with grants := smMod 0 s.hbm.grants job (· + (v % 64 + n + 63) / 64) } })
      else (false, s)

/-- A side-band unit writes bytes into job j's pages; what its packets do not reach is not written. -/
def unitWrite (u : SideUnit) (j v : Nat) (l : List Byte) (crz : List Nat) (s : State) : State :=
  (pagePieces v l.length).foldl (fun s pc =>
    match hbmTranslate s.hbm j (v + pc.1) with
    | none => s
    | some a =>
      let r := unitAccess u true j (addrPart a) (v + pc.1) pc.2 s
      if r.1 then
        let z := (crz.filter fun o => decide (pc.1 ≤ o) && decide (o < pc.1 + pc.2)).map (· - pc.1)
        atHbm (hbmWriteBytes (timeNow s) j (v + pc.1) ((l.drop pc.1).take pc.2) z) r.2
      else r.2) s

/-- A side-band unit reads n bytes of job j's pages from v on; what its packets do not reach reads as crazed. -/
def unitRead (u : SideUnit) (j v n : Nat) (s : State) : List (Byte × Bool) × State :=
  (pagePieces v n).foldl (fun (acc : List (Byte × Bool) × State) pc =>
    let bad := acc.1 ++ List.replicate pc.2 (0#8, true)
    match hbmTranslate acc.2.hbm j (v + pc.1) with
    | none => (bad, acc.2)
    | some a =>
      let r := unitAccess u false j (addrPart a) (v + pc.1) pc.2 acc.2
      if r.1 then
        let q := hbmReadBytes (timeNow s) j (v + pc.1) pc.2 r.2.hbm
        (acc.1 ++ q.1, flushHbm { r.2 with hbm := q.2 })
      else (bad, r.2)) ([], s)

/-- The account of the signal box's own HBM packets. -/
def boxAccount : Nat := 255

/-- A side-band unit writes bytes at a device physical address of a partition's reserved area (R365). -/
def unitWriteDev (u : SideUnit) (a : Nat) (l : List Byte) (s : State) : State :=
  let r := unitAccess u true boxAccount (addrPart a) a l.length s
  if r.1 then atHbm (devWriteBytes (timeNow s) a l) r.2 else r.2

/-- A side-band unit reads n bytes at a device physical address; crazed where its packets do not reach. -/
def unitReadDev (u : SideUnit) (a n : Nat) (s : State) : List (Byte × Bool) × State :=
  let r := unitAccess u false boxAccount (addrPart a) a n s
  if r.1 then
    let q := devReadBytes (timeNow s) a n r.2.hbm
    (q.1, flushHbm { r.2 with hbm := q.2 })
  else (List.replicate n (0#8, true), r.2)

/-- The packets that wait at the channel controllers of a partition are answered FENCED (R565). -/
def dropRequests (p : Nat) (s : State) : State :=
  let r := dropJobs p s.hbm
  r.1.foldl (fun s j => pushEdge (nackPkt j.place 1 j.pkt) s) { s with hbm := r.2 }

/-! ### Module reset and loss of the rails -/

/-- The counters of the mesh, which only a module reset clears, with the wire-group repairs (R321, R332, R391). -/
def meshCounters (m : Mesh) : Mesh :=
  { Mesh.reset with
    ports := smMap RouterPort.reset (fun _ p => { RouterPort.reset with linkErr := p.linkErr, drops := p.drops }) m.ports
    fields := smMap FieldMesh.reset (fun _ f => { f with route := 0#64 }) m.fields
    holdCc := m.holdCc, recentres := m.recentres, repairs := m.repairs }

/-- The counters of the partitions (R372). -/
def hbmCounters (h : Hbm) : Hbm :=
  { Hbm.reset with
    violations := h.violations, chans := h.chans
    stks := smMap Stack.reset (fun _ k => { Stack.reset with retrains := k.retrains }) h.stks }

/-- The counters of the clocks (R391). -/
def clockCounters (k : Clock) : Clock :=
  { Clock.reset with
    refused := k.refused, cancelled := k.cancelled, applied := k.applied
    fields := smMap FieldClk.reset (fun _ x => { FieldClk.reset with periods := x.periods }) k.fields }

/-- The feeds as the comparators read them, with OFF, which no module reset clears (R392, R626). -/
def keptFeeds (f : Feeds) : Feeds :=
  { Feeds.reset with
    aGood := f.aGood, bGood := f.bGood, aMv10 := f.aMv10, bMv10 := f.bMv10, onB := f.onB, off := f.off, lastGasp := f.lastGasp }

/-- The counters of power delivery and power control (R419, R440). -/
def powerCounters (p : Power) : Power :=
  { feeds := { keptFeeds p.feeds with toB := p.feeds.toB, toA := p.feeds.toA, blocked := p.feeds.blocked }
    rails := smMap Rail.reset (fun _ r => { Rail.reset with fails := r.fails }) p.rails
    clusters := smMap ClusterPwr.reset (fun _ c => { ClusterPwr.reset with
      sliceFails := c.sliceFails, shorts := c.shorts, sensorExcluded := c.sensorExcluded, sheds := c.sheds }) p.clusters
    pm := { PwrMgr.reset with
      raises := p.pm.raises, lowers := p.pm.lowers, capHolds := p.pm.capHolds, over120 := p.pm.over120, reconCount := p.pm.reconCount
      seenApplied := p.pm.seenApplied }
    therm := { Therm.reset with
      throttles := p.therm.throttles, sheds := p.therm.sheds, extensions := p.therm.extensions, stackLimits := p.therm.stackLimits } }

/-- The counters of the meter (R495), with what the ledger holds in flash. -/
def meterCounters (m : Meter) : Meter :=
  { Meter.reset with totalUj := m.totalUj, overwritten := m.overwritten, signHolds := m.signHolds, flash := m.flash }

/-- The counters of a host port (R476), with its PERST_N. -/
def hostCounters (h : HostPort) : HostPort :=
  { HostPort.reset with
    perst := h.perst, gone := h.gone, rings := smMap Ring.reset (fun _ r => { Ring.reset with dropped := r.dropped }) h.rings }

/-- The counters of a trunk port (R524), with its presence. -/
def trunkCounters (t : TPort) : TPort :=
  { TPort.reset with
    present := t.present, rawPresent := t.rawPresent, fecCorr := t.fecCorr, fecUnc := t.fecUnc, replays := t.replays
    crcFail := t.crcFail, drops := t.drops, retrains := t.retrains, swaps := t.swaps, degrades := t.degrades, leaves := t.leaves
    changes := t.changes, quarantines := t.quarantines, trainFails := t.trainFails }

/-- The counters of the signal box (R301, R548, R576), and the sites that its tests fenced until the next module reset (R582). -/
def boxCounters (b : Box) : Box :=
  { Box.reset with
    empties := b.empties, shapeOver := b.shapeOver, saves := b.saves, resumes := b.resumes, rejected := b.rejected
    orphans := b.orphans, matched := b.matched, heartbeat := b.heartbeat, kiln := b.kiln }

/-- The counters of the error log (R576), with what it holds in flash. -/
def logCounters (l : ErrLog) : ErrLog :=
  { ErrLog.reset with
    dumps := l.dumps, recoveries := l.recoveries, partResets := l.partResets, quarantines := l.quarantines
    poisonedIn := l.poisonedIn, flashDumps := l.flashDumps, flashSeq := l.flashSeq }

/-- A core that has lost its power: the counters that only a module reset clears, and the spare bank (R70, R134, R301). -/
def coreCounters (c : Core) : Core := { clearedCore c with fenced := false, events := [] }

/-- The host ports after a reset, with PERST_N as the board drives it. -/
def resetHosts (s : State) : SMap HostPort :=
  (List.range 2).foldl (fun m p => smSet HostPort.reset m p { HostPort.reset with perst := (getHost s p).perst }) []

/-- The trunk ports after a reset, with PORT_PRESENT_N as the board drives it. -/
def resetTrunks (s : State) : SMap TPort :=
  (List.range 12).foldl (fun m n => smSet TPort.reset m n { TPort.reset with rawPresent := (getTrunk s n).rawPresent }) []

/-- What a module reset leaves of everything that is not held in the standby plane, in flash or in fuses, with the feeds as the
comparators read them (R16, R592, R626). -/
def clearModule (s : State) : State :=
  { State.reset with
    pending := s.pending
    power := { Power.reset with feeds := keptFeeds s.power.feeds }
    meter := { Meter.reset with flash := s.meter.flash }
    hosts := resetHosts s
    trunks := resetTrunks s
    errlog := { ErrLog.reset with flashDumps := s.errlog.flashDumps, flashSeq := s.errlog.flashSeq }
    history := { s.history with time := 0, query := 0 }
    boot := s.boot
    mail := s.mail
    jtag := s.jtag
    flash := s.flash
    fuses := s.fuses
    clock := { Clock.reset with lost := s.clock.lost }
    tripped := s.tripped
    out := s.out
    free := s.free }

/-- What a loss of the rails leaves: as a module reset, but every counter that only a module reset clears. -/
def clearRails (s : State) : State :=
  { clearModule s with
    cores := smMap Core.reset (fun _ c => coreCounters c) s.cores
    mesh := meshCounters s.mesh
    hbm := hbmCounters s.hbm
    clock := { clockCounters s.clock with lost := s.clock.lost }
    power := powerCounters s.power
    meter := meterCounters s.meter
    hosts := (List.range 2).foldl (fun m p => smSet HostPort.reset m p (hostCounters (getHost s p))) []
    queues := { Queues.reset with dropped := s.queues.dropped, refused := s.queues.refused }
    trunks := (List.range 12).foldl (fun m n => smSet TPort.reset m n (trunkCounters (getTrunk s n))) []
    box := boxCounters s.box
    errlog := logCounters s.errlog }

/-- A last record of the error log, written to flash from the holdup with the cause in its first data byte, and at READY the
ledger's last values; without a signal box nothing is written (R375, R397, R438, R491, R574). -/
def lastGasp (cause : Nat) (s : State) : State :=
  if !s.boot.box2 then s
  else
    let seq := if s.boot.phase ≤ 4 then s.errlog.flashSeq else s.errlog.nextSeq
    let b := logBytes { LogEvent.of 0xC with data := [BitVec.ofNat 8 cause] } (timeNow s) seq s.history.time
    { s with
      flash := flashPut s.flash (0x20000000 + seq % 65536 * 64) b
      errlog := { s.errlog with nextSeq := (seq + 1) % 2 ^ 32, flashSeq := (seq + 1) % 2 ^ 32 }
      meter := if isReady s.boot then saveLedger s.meter true else s.meter }

/-- Every field rail and mesh rail goes off: all work stops, and what the rails fed is gone; GLOBAL.BOOT.PHASE reads 0 (R375,
R397, R402, R438). -/
def allRailsOff (s : State) : State :=
  let t := clearRails s
  { t with boot := { s.boot with phase := 0, image := none, checkB := false, wavesDone := 0, testsDone := 0, glazed := false } }

/-- A module reset: back to step 2, counted (R592, R626). -/
def moduleReset (s : State) : State :=
  let t := clearModule s
  let b := s.boot
  { t with
    clock := Clock.reset
    tripped := false
    boot := { b with
      inReset := true, phase := 0, lastPhase := 0, cause := 0, boxB := false, copyB := false, pllB := false, fenced := 0,
      readyMs := 0, image := none, checkB := false, wavesDone := 0, testsDone := 0, glazed := false, box2 := false, noBox := false, held := true, resets := sat16 b.resets 1 } }

end Sys2Proof.Machine
end

