-- ==== Sys2Proof/Machine/Start.lean ====
section
/-!
DEFINITION. Sys2Proof/Machine/Start.lean: how an engine takes the head of its queue: the engines' own start conditions
(Table 3.1, R217, R258, R270), the order of admission on one slot, and the admission itself (R155, R172).
-/

namespace Sys2Proof.Machine

/-- Is an MDRAIN or MCLEAR started and not complete? -/
def drainBusy (c : Core) : Bool :=
  c.started.any fun s => match s.entry.insn.op with
    | .mdrain .. => true
    | .mclear .. => true
    | _ => false

/-- Is the stream unit free of every earlier instruction (Table 3.1)? -/
def streamIdle (c : Core) : Bool := c.matrix.streams.isEmpty && !drainBusy c

/-- Is the load unit idle? -/
def loadIdle (c : Core) : Bool := c.matrix.load.isNone

/-- May an MSTREAM start: no drain is under way, every earlier stream has read its columns, and with FLIP no MLOAD is
incomplete (Table 3.1)? -/
def streamFree (c : Core) (flip : Bool) : Bool :=
  !drainBusy c && c.matrix.streams.all (fun j => decide (j.granted = j.n)) && (!flip || loadIdle c)

/-- The operation is a load of the vector engine. -/
def isLoad : CoreOp → Bool
  | .vmem .vldr .. => true
  | .vmem .vldc .. => true
  | .vmem .vldn .. => true
  | _ => false

/-- The operation is a store of the vector engine. -/
def isStore : CoreOp → Bool
  | .vmem .vstr .. => true
  | .vmem .vstc .. => true
  | .vmem .vstn .. => true
  | _ => false

/-- Has the unit of a vector instruction started the last repeat of its previous instruction (R217)? -/
def vecUnitFree (c : Core) (op : CoreOp) : Bool :=
  if isLoad op then c.vec.load.isNone else if isStore op then c.vec.store.isNone else c.vec.alu.isNone

/-- Do the start conditions of an operation's engine hold, but for slots and credits (R155)? -/
def engineFree (c : Core) (op : CoreOp) : Bool :=
  match op with
  | .mmode .. => streamIdle c && loadIdle c
  | .mload .. => loadIdle c
  | .mstream _ _ f _ _ => streamFree c (decide (f = 1#1))
  | .mdrain .. => streamIdle c
  | .mclear .. => streamIdle c
  | _ => match opEngine op with
    | .vector => vecUnitFree c op
    | .transfer => decide (c.xfer.jobs.length < 16)
    | .sync => c.sync.waiting.isNone
    | _ => true

/-- The slot field an operation waits on: WAIT, and SLOT for SWAIT (R264). -/
def waitField (i : CoreInsn) : BitVec 8 :=
  match i.op with
  | .swait slot => slot
  | _ => i.wait

/-- Does an engine's next instruction wait for admission on slot field w in this cycle (R155, R172)? -/
def asksSlot (c : Core) (w : BitVec 8) (e : Engine) : Bool :=
  match e with
  | .issue =>
    match nextInsn c with
    | .insn i => decide (opEngine i.op = .issue) && decide (i.wait = w) &&
        decide (c.stream.icount - oldestOpen c c.stream.icount < 1024)
    | _ => false
  | _ =>
    match engineQueue c e with
    | [] => false
    | q :: _ => !q.admitted && decide (waitField q.insn = w) && engineFree c q.insn.op

/-- The engines whose admission on a slot comes before that of e (R172). -/
def enginesAhead : Engine → List Engine
  | .vector => [.issue]
  | .matrix => [.issue, .vector]
  | .transfer => [.issue, .vector, .matrix]
  | .sync => [.issue, .vector, .matrix, .transfer]
  | _ => []

/-- Does slot n admit engine e in this cycle: it is FULL, and enough admissions remain for it and for those that wait on
the slot and come before it (R172)? -/
def slotTurn (c : Core) (e : Engine) (w : BitVec 8) : Bool :=
  (getSlot c w.toNat).full &&
  decide ((getSlot c w.toNat).admitted + ((enginesAhead e).filter (asksSlot c w)).length < (getSlot c w.toNat).ccount)

/-- Does the wait field w admit engine e in this cycle? 0xFF names no slot. -/
def admitsNow (c : Core) (e : Engine) (w : BitVec 8) : Bool := decide (w = 0xFF#8) || slotTurn c e w

/-- Take the head of an engine's queue when it satisfies `ok`, its engine is free for it and its wait slot admits it: the
entry leaves the queue and takes its admission (R155). -/
def takeHead (c : Core) (e : Engine) (ok : CoreOp → Bool) : Option (Started × Core) :=
  match engineQueue c e with
  | [] => none
  | q :: rest =>
    if mayStart c && ok q.insn.op && engineFree c q.insn.op && admitsNow c e q.insn.wait then
      some ({ entry := q, gen := waitGen c q.insn.wait }, setQueue (admitWait c q.insn.wait) e rest)
    else none

end Sys2Proof.Machine
end

