-- ==== Sys2Proof/Machine/VecRegs.lean ====
section
/-!
DEFINITION. Sys2Proof/Machine/VecRegs.lean: reads and writes of vector registers by cycle: what a vector read returns beside
MDRAIN's writes, where a vector-engine write and an MDRAIN write meet, and which earlier vector instructions still hold a
register (R218, R221). A cycle is counted by the core's read-port grant cycles, `Core.cc` (assumption 91).
-/

namespace Sys2Proof.Machine

/-- What a vector-engine instruction writes to a register: a whole row, or its data words with their crazed bits, the side
part staying (R230). -/
structure VecVal where
  row : Row
  full : Bool
deriving DecidableEq, Repr

/-- The register's value after a write. -/
def VecVal.onto (v : VecVal) (old : Row) : Row :=
  if v.full then v.row
  else { old with data := v.row.data, z := setField old.z 0 32 (v.row.z.extractLsb' 0 32).toNat }

/-- The register writes that a later cycle can still meet. -/
def freshWrites (now : Nat) (l : List RegWrite) : List RegWrite := l.filter fun w => decide (now ≤ w.cyc)

/-- The value that a vector read of register r in cycle t returns: that from before an MDRAIN write of that cycle or a later
one (R221). -/
def readReg (c : Core) (t r : Nat) : Row :=
  match c.vec.drains.find? fun w => decide (w.reg = r % 64) && decide (t ≤ w.cyc) with
  | some w => w.old
  | none => getV c r

/-- A vector-engine write that lands in cycle t changes register r by f. Where an MDRAIN write reaches the register in the same
cycle this write stands and CLASHES counts; where one reaches it later, that one stands (R221). -/
def vecLands (c : Core) (t r : Nat) (f : Row → Row) : Core :=
  let meets := fun (w : RegWrite) => decide (w.reg = r % 64) && decide (w.cyc = t)
  let later := fun (w : RegWrite) => decide (w.reg = r % 64) && decide (t < w.cyc)
  let c1 := { c with vec := { c.vec with
    lands := freshWrites c.cc c.vec.lands ++ [{ cyc := t, reg := r % 64, old := getV c r }]
    clashes := if c.vec.drains.any meets then sat16 c.vec.clashes 1 else c.vec.clashes } }
  if c.vec.drains.any later then
    { c1 with vec := { c1.vec with drains := c1.vec.drains.map fun w => if later w then { w with old := f w.old } else w } }
  else setV c1 r (f (getV c r))

/-- An MDRAIN write of cycle t gives register r its data words, clean. Where a vector-engine write reaches the register in the
same cycle that write stands and CLASHES counts; where one reaches it later, that one stands (R100, R221). -/
def drainLands (c : Core) (t r : Nat) (data : BitVec 1024) : Core :=
  let meets := fun (w : RegWrite) => decide (w.reg = r % 64) && decide (w.cyc = t)
  let later := fun (w : RegWrite) => decide (w.reg = r % 64) && decide (t < w.cyc)
  let old := getV c r
  let c1 := { c with vec := { c.vec with
    drains := freshWrites c.cc c.vec.drains ++ [{ cyc := t, reg := r % 64, old := old }]
    clashes := if c.vec.lands.any meets then sat16 c.vec.clashes 1 else c.vec.clashes } }
  if c.vec.lands.any meets || c.vec.lands.any later then c1
  else setV c1 r { old with data := data, z := setField old.z 0 32 0 }

/-! ### Registers held by earlier instructions (R218) -/

/-- The registers that a class 010 instruction reads. -/
def aluReads : CoreOp → List Nat
  | .vec f _ va vb vc rep sa sb sc sub =>
    let u := vecUses f
    let steps := fun (r s : Nat) => (List.range (rep.toNat + 1)).map fun k => (r + k * s) % 64
    match f with
    | .vquant =>
      let b := match etypeOfCode (sub.toNat % 16) with
        | some t => etypeLanes t / 32
        | none => 0
      (List.range (rep.toNat + 1)).flatMap fun k => (List.range b).map fun j => (va.toNat + k * b * sa.toNat + j) % 64
    | .vdeq =>
      let b := match etypeOfCode sub.toNat with
        | some t => etypeLanes t / 32
        | none => 1
      (List.range (rep.toNat + 1)).map fun k => (va.toNat + (vb.toNat + k) / b) % 64
    | .vperm => [va.toNat, vb.toNat, vc.toNat, (vc.toNat + 1) % 64]
    | _ => steps va.toNat sa.toNat ++ (if u.1 then steps vb.toNat sb.toNat else []) ++
        (if u.2.1 then steps vc.toNat sc.toNat else [])
  | _ => []

/-- The registers that a class 010 instruction writes. -/
def aluWrites : CoreOp → List Nat
  | .vec _ vd _ _ _ rep _ _ _ _ => (List.range (rep.toNat + 1)).map fun k => (vd.toNat + k) % 64
  | .vsplat vd _ => [vd.toNat]
  | _ => []

/-- The register that repeat k of a vector-memory instruction reads or writes (Table 6.8). -/
def memReg (op : CoreOp) (k : Nat) : Nat :=
  match op with
  | .vmem f v .. =>
    match f with
    | .vldn | .vstn => v.toNat
    | _ => (v.toNat + k) % 64
  | _ => 0

/-- The registers of the ungranted repeats of a vector-memory instruction. -/
def jobRegs (j : VecJob) : List Nat :=
  ((List.range (opRepeats j.st.entry.insn.op)).drop j.k).map (memReg j.st.entry.insn.op)

/-- Do two lists share an element? -/
def meet (a b : List Nat) : Bool := a.any b.contains

/-- Does an instruction that started before the one of instruction count i still have to write a register of `reads` or
`writes`, or to read one of `writes` (R218)? -/
def vecBlocked (c : Core) (i : Nat) (reads writes : List Nat) : Bool :=
  let earlier := fun (st : Started) => decide (st.entry.icount < i)
  c.vec.alu.any (fun st => earlier st &&
    (meet (aluWrites st.entry.insn.op) (reads ++ writes) || meet (aluReads st.entry.insn.op) writes)) ||
  c.vec.load.any (fun j => earlier j.st && meet (jobRegs j) (reads ++ writes)) ||
  c.vec.store.any (fun j => earlier j.st && meet (jobRegs j) writes) ||
  c.vec.landing.any fun l => decide (l.icount < i) && (reads ++ writes).contains l.reg

end Sys2Proof.Machine
end

