-- ==== Sys2Proof/Machine/Array.lean ====
section
/-!
DEFINITION. Sys2Proof/Machine/Array.lean: the matrix engine of one core: mode, activation buffers, streams of weight
columns, accumulators, and the witness and duplicate checks (R76 to R111, R241 to R247).
-/

namespace Sys2Proof.Machine

/-- The core with its matrix state replaced. -/
def setMx (c : Core) (m : Matrix) : Core := { c with matrix := m }

/-! ### MMODE, MLOAD -/

/-- MMODE: both codes are written and both buffers invalidated, or MODE_PAIR (R79, R80, R241). -/
def runMmode (st : Started) (a w : BitVec 4) (c : Core) : Core :=
  match etypeOfCode w.toNat, etypeOfCode a.toNat with
  | some wt, some at_ =>
    if pairOk wt at_ then
      completeEntry (setMx c { c.matrix with
        mode := some (wt, at_)
        front := { c.matrix.front with valid := false }
        back := { c.matrix.back with valid := false } }) st
    else entryFault c .modePair st.entry
  | _, _ => entryFault c .modePair st.entry

/-- Start an MMODE at the head of the matrix queue (Table 3.1). -/
def startMmode (c : Core) : Core :=
  match takeHead c .matrix (fun op => decide (opByte op = 0x80#8)) with
  | some (st, c1) =>
    match st.entry.insn.op with
    | .mmode a w => runMmode st a w c1
    | _ => c
  | none => c

/-- MLOAD's start: the back buffer is invalid from now on; mode and range are checked (R83, R84, R85). -/
def runMload (st : Started) (k : BitVec 10) (rm : BitVec 16) (c : Core) : Core :=
  let c1 := setMx c { c.matrix with back := { c.matrix.back with valid := false } }
  let base := st.entry.ra.value.toNat
  match c.matrix.mode with
  | none => entryFault c1 .modeMismatch st.entry
  | some (w, _) =>
    if base + 31 ≥ slabRows then entryFault c1 .slabRange st.entry
    else setMx c1 { c1.matrix with
      load := some { st := st, base := base, k := min k.toNat (etypeLanes w), rowMask := rm, nread := 0 } }

/-- Start an MLOAD at the head of the matrix queue (Table 3.1). -/
def startMload (c : Core) : Core :=
  match takeHead c .matrix (fun op => decide (opByte op = 0x81#8)) with
  | some (st, c1) =>
    match st.entry.insn.op with
    | .mload _ _ k rm => runMload st k rm c1
    | _ => c
  | none => c

/-- A read grant of MLOAD: one row with the activation type's side words goes to its array row and half; a bank that
is off faults BANK_OFF and the buffer stays invalid (R83, R87, R144, R629). -/
def loadGrant (c : Core) : Core :=
  match c.matrix.load, c.matrix.mode with
  | some j, some (_, a) =>
    if j.nread < 32 then
      let r := j.base + j.nread
      let n := etypeSideWords a
      if banksOff c r (rowSegs n) then
        entryFault (setMx c { c.matrix with load := none }) .bankOff j.st.entry
      else
        let p := readRow c r n
        setMx p.2 { p.2.matrix with
          load := some { j with nread := j.nread + 1 }
          back := { p.2.matrix.back with rows := smSet Row.zero p.2.matrix.back.rows j.nread p.1 } }
    else c
  | _, _ => c

/-- Array row j of a buffer. -/
def bufRow (b : ActBuf) (j : Nat) : ActRow :=
  { half0 := smGet Row.zero b.rows (2 * j), half1 := smGet Row.zero b.rows (2 * j + 1) }

/-- The last write of an MLOAD: K count and row mask are recorded, the buffer is valid, special activations are
counted once, the instruction completes (R58, R83, R85). -/
def loadComplete (c : Core) : Core :=
  match c.matrix.load, c.matrix.mode with
  | some j, some (w, a) =>
    if j.nread = 32 then
      let b : ActBuf := { c.matrix.back with valid := true, k := j.k, rowMask := j.rowMask }
      let sp := (List.range 16).foldl (fun n i => n + actSpecials w a j.k (bufRow b i)) 0
      let c1 := setMx c { c.matrix with back := b, load := none }
      completeEntry { c1 with mon := { c1.mon with specialIn := sat32 c1.mon.specialIn sp } } j.st
    else c
  | _, _ => c

/-! ### MSTREAM -/

/-- Exchange the buffers; the new back buffer is invalid (R88). -/
def flipBuffers (c : Core) : Core :=
  setMx c { c.matrix with front := c.matrix.back, back := { c.matrix.front with valid := false } }

/-- MSTREAM's start: exchange, then the three checks in order; N = 0 completes at once (R91, R95). -/
def runMstream (st : Started) (flip : Bool) (c0 n : Nat) (c : Core) : Core :=
  let c1 := if flip then flipBuffers c else c
  let base := st.entry.ra.value.toNat
  if n = 0 then completeEntry c1 st
  else if !c1.matrix.front.valid then entryFault c1 .modeMismatch st.entry
  else if c0 + n > 2048 then entryFault c1 .accRange st.entry
  else if base + n > slabRows then entryFault c1 .slabRange st.entry
  else setMx c1 { c1.matrix with
    streams := c1.matrix.streams ++
      [{ st := st, base := base, n := n, c0 := c0, granted := 0, done := 0, inflight := [], mismatches := [] }] }

/-- Start an MSTREAM at the head of the matrix queue (Table 3.1). -/
def startMstream (c : Core) : Core :=
  match takeHead c .matrix (fun op => decide (opByte op = 0x82#8)) with
  | some (st, c1) =>
    match st.entry.insn.op with
    | .mstream _ _ f c0 n => runMstream st (decide (f = 1#1)) c0.toNat n.toNat c1
    | _ => c
  | none => c

/-- Does a stream still ask for columns? -/
def streamWants (c : Core) : Bool := c.matrix.streams.any fun j => decide (j.granted < j.n)

/-- The column of stream j that a read grant brings, with the core after the read; a bank that is off makes the column
fault when it would accumulate (R247, R629). -/
def grantColumn (c : Core) (j : StreamJob) (w : EType) : Column × Core :=
  let r := j.base + j.granted
  let n := etypeSideWords w
  if banksOff c r (rowSegs n) then
    ({ k := j.granted, grant := c.cc, data := Row.zero, buf := c.matrix.front, bankOff := true }, countSlab c 1)
  else
    let p := readRow c r n
    ({ k := j.granted, grant := c.cc, data := p.1, buf := c.matrix.front, bankOff := false }, p.2)

/-- The streams with f applied to the first that satisfies p. -/
def modFirst (p : StreamJob → Bool) (f : StreamJob → StreamJob) : List StreamJob → List StreamJob
  | [] => []
  | j :: l => if p j then f j :: l else j :: modFirst p f l

/-- A read grant of the weight stream: the next column of the oldest stream that asks (R90, R96). -/
def streamGrant (c : Core) : Core :=
  match c.matrix.streams.find? (fun j => decide (j.granted < j.n)), c.matrix.mode with
  | some j, some (w, _) =>
    let p := grantColumn c j w
    setMx p.2 { p.2.matrix with
      streams := modFirst (fun j => decide (j.granted < j.n))
        (fun j => { j with granted := j.granted + 1, inflight := j.inflight ++ [p.1] }) p.2.matrix.streams }
  | _, _ => c

/-- Raise a mismatch of stream j: the event count and the fault history unless it was injected (R110, R111). Event type 0
is the core's witness. -/
def raiseMismatch (c : Core) (j : StreamJob) (m : Mismatch) : Core :=
  let mx := { c.matrix with
    injected := m.injected
    witnessEvents := if m.injected then c.matrix.witnessEvents else sat32 c.matrix.witnessEvents 1 }
  let c1 := { setMx c mx with events := if m.injected then c.events else c.events ++ [(0, 0)] }
  entryFault c1 .witnessMismatch j.st.entry

/-- Every mismatch found and not yet signalled, with its stream, oldest first. -/
def pendingMismatches (c : Core) : List (StreamJob × Mismatch) :=
  c.matrix.streams.flatMap fun j => j.mismatches.map fun m => (j, m)

/-- Every pending mismatch is raised: the first that no earlier fault precedes is the recorded one, each later one sets
MORE, and each that was not injected counts (R108, R109, R110, R199). -/
def raiseAll (c : Core) : Core := (pendingMismatches c).foldl (fun c p => raiseMismatch c p.1 p.2) c

/-- The streams that a fault leaves: those with every column accumulated and no mismatch found run to completion (R198).
Every other one ends: no accumulation lands in or after the fault cycle, of whichever MSTREAM (R93). DESIGN CHOICE
(assumption 92): R93 speaks of the MSTREAM that faults; a later one that has started accumulates nothing more either. -/
def dropStreams (c : Core) : Core :=
  setMx c { c.matrix with streams := c.matrix.streams.filter fun j => decide (j.done = j.n) && j.mismatches.isEmpty }

/-- A column fault in its accumulate cycle, and the mismatches of earlier columns in theirs: those signalled in the same
cycle or later are raised beside it, each setting MORE when it is not the recorded one (R92, R93, R199). -/
def columnFault (c : Core) (code : FaultCode) (j : StreamJob) : Core :=
  dropStreams (raiseAll (entryFault c code j.st.entry))

/-- The rows that the buffer's mask enables (R86). -/
def enabledRows (b : ActBuf) : List Nat := (List.range 16).filter fun i => b.rowMask.getLsbD i

/-- Does column col raise CRAZED_OPERAND (R92)? -/
def columnCrazed (w a : EType) (col : Column) : Bool :=
  let rows := enabledRows col.buf
  !rows.isEmpty && (weightCrazed w col.buf.k col.data || rows.any fun i => actCrazed w a col.buf.k (bufRow col.buf i))

/-- The defects of one array row. -/
def rowDefects (ds : List Defect) (i : Nat) : List Defect := ds.filter fun d => decide (d.row = i)

/-- The key of accumulator entry (row, column). -/
def accKey (r col : Nat) : Nat := r * 2048 + col

/-- Add a column's sums into accumulator column cx for every enabled row, and set the live bits (R55, R90, R99). -/
def accumulate (w a : EType) (ds : List Defect) (col : Column) (cx : Nat) (m : Matrix) : Matrix :=
  (enabledRows col.buf).foldl (fun m r =>
    let s := columnSum w a col.buf.k col.data (bufRow col.buf r) (rowDefects ds r)
    { m with acc := smMod 0#32 m.acc (accKey r cx) (fun x => fpAdd x s),
             live := m.live ||| (1#1024 <<< (r * 64 + cx / 32)) }) m

/-- Is the duplicate check of column col due: BF16 mode, an index that is a multiple of 64, an enabled row (R109)? -/
def dupDue (a : EType) (col : Column) : Bool :=
  decide (a = .bf16) && decide (col.k % 64 = 0) && !(enabledRows col.buf).isEmpty

/-- Does the duplicate compare of row r differ? `flip` inverts bit 0 of the duplicate sum (R109, R111). -/
def dupBad (w a : EType) (ds : List Defect) (col : Column) (r : Nat) (flip : Bool) : Bool :=
  let first := columnSum w a col.buf.k col.data (bufRow col.buf r) (rowDefects ds r)
  let second := columnSum w a col.buf.k col.data (bufRow col.buf r) []
  decide (first ≠ if flip then second ^^^ 1#32 else second)

/-- The compares of one column in their order, the first with its check bit inverted when `armed`: does any differ, and is it
the armed one alone? -/
def runCompares (cs : List (Bool → Bool)) (armed : Bool) : Bool × Bool :=
  match cs with
  | [] => (false, false)
  | x :: rest => (x armed || rest.any (· false), armed && !rest.any (· false))

/-- What the checks of a column give: the mismatch found, and whether they used an arming (R106 to R111). -/
structure ColumnCheck where
  mismatch : Option Mismatch
  usedRes : Bool
  usedDup : Bool

/-- The check of a column (R106 to R111). The armed compare uses only the inverted bit, so that a defect that equals it agrees.
DESIGN CHOICE (assumption 93): the mismatch counts as injected when the armed compare differs and no other compare of the
column does, also when a defect touches the armed compare itself. -/
def checkColumn (w a : EType) (ds : List Defect) (col : Column) (m : Matrix) : ColumnCheck :=
  let rows := enabledRows col.buf
  let found := fun (p : Bool × Bool) => if p.1 then some { grant := col.grant, injected := p.2 : Mismatch } else none
  if a = .bf16 then
    if dupDue a col then
      { mismatch := found (runCompares (rows.map fun r => dupBad w a ds col r) m.armDup), usedRes := false, usedDup := m.armDup }
    else { mismatch := none, usedRes := false, usedDup := false }
  else
    let cs := rows.flatMap fun r => (checkedBlocks w col.buf.k).map fun b =>
      witnessBad w a col.buf.k col.data (bufRow col.buf r) (rowDefects ds r) b
    if cs.isEmpty then { mismatch := none, usedRes := false, usedDup := false }
    else { mismatch := found (runCompares cs m.armRes), usedRes := m.armRes, usedDup := false }

/-- The monitors after a streamed column (R43, R58). DESIGN CHOICE (assumption 94): a column counts when its sums are formed,
so a column that faults CRAZED_OPERAND counts, while one whose bank is off and one that a fault drops do not. -/
def monColumn (mon : FmtMon) (w : EType) (col : Column) : FmtMon :=
  { mon with specialIn := sat32 mon.specialIn (weightSpecials w col.buf.k col.data),
             badCode := sat32 mon.badCode (badCodes w col.buf.k col.data) }

/-- A column accumulates and is checked (R90, R105 to R111). -/
def landColumn (w a : EType) (ds : List Defect) (j : StreamJob) (col : Column) (rest : List Column) (c : Core) : Core :=
  let chk := checkColumn w a ds col c.matrix
  let m1 := accumulate w a ds col (j.c0 + col.k) c.matrix
  let m2 := { m1 with
    armRes := m1.armRes && !chk.usedRes
    armDup := m1.armDup && !chk.usedDup
    dupChecks := if dupDue a col then sat32 m1.dupChecks 1 else m1.dupChecks
    streams := modFirst (fun j => !j.inflight.isEmpty)
      (fun j => { j with inflight := rest, done := j.done + 1, mismatches := j.mismatches ++ chk.mismatch.toList }) m1.streams }
  { setMx c m2 with activity := { c.activity with cols := c.activity.cols + (enabledRows col.buf).length } }

/-- The fault of a column in its accumulate cycle: a bank of its read that was off, or a crazed operand (R92, R247). -/
def columnCode (w a : EType) (col : Column) : Option FaultCode :=
  if col.bankOff then some .bankOff else if columnCrazed w a col then some .crazedOperand else none

/-- The oldest column in flight accumulates, or its stream faults. `ds` are the physical defects the column meets
(R92, R105, R108, R109, R247). A mismatch of an earlier column is signalled three cycles after that column accumulated, so
before or in this column's accumulate cycle when its grant is three or more cycles earlier: the column does not accumulate.
DESIGN CHOICE (assumption 95): in the very cycle of the signal a column's own fault is raised too and sets MORE (R199). -/
def runColumn (ds : List Defect) (c : Core) : Core :=
  match c.matrix.streams.find? (fun j => !j.inflight.isEmpty), c.matrix.mode with
  | some j, some (w, a) =>
    match j.inflight with
    | [] => c
    | col :: rest =>
      let signalled := (pendingMismatches c).any fun p => decide (p.2.grant + 3 ≤ col.grant)
      let before := (pendingMismatches c).any fun p => decide (p.2.grant + 3 < col.grant)
      let c0 := if col.bankOff || before then c else { c with mon := monColumn c.mon w col }
      match signalled, before, columnCode w a col with
      | true, false, some code => dropStreams (entryFault (raiseAll c0) code j.st.entry)
      | true, _, _ => dropStreams (raiseAll c)
      | false, _, some code => columnFault c0 code j
      | false, _, none => landColumn w a ds j col rest c0
  | _, _ => c

/-- The end of the oldest MSTREAM, its last column checked: it completes, or the mismatches found are signalled (R105,
R108). -/
def finishStream (c : Core) : Core :=
  match c.matrix.streams with
  | [] => c
  | j :: rest =>
    if j.done = j.n then
      if j.mismatches.isEmpty then completeEntry (setMx c { c.matrix with streams := rest }) j.st
      else dropStreams (raiseAll c)
    else c

/-! ### MDRAIN, MCLEAR -/

/-- Write i of an MDRAIN, in cycle 2 + i after its start: one row's group to its vector register, cleared when clr is set
(R100, R102, R543). -/
def drainWrite (r0 g0 ng vb : Nat) (clr : Bool) (c : Core) (i : Nat) : Core :=
  let r := r0 + i / ng
  let g := g0 + i % ng
  let ws := (List.range 32).map fun j => smGet 0#32 c.matrix.acc (accKey r (32 * g + j))
  let new := (rowOfWords ws 0#128 0#36)
  let c1 := drainLands c (c.cc + 2 + i) (vb + i) new.data
  let c2 := { c1 with lockDrain := crc64Run c1.lockDrain (rowBytes new) }
  if clr then
    setMx c2 { c2.matrix with
      acc := (List.range 32).foldl (fun a j => smSet 0#32 a (accKey r (32 * g + j)) 0#32) c2.matrix.acc
      live := c2.matrix.live &&& ~~~(1#1024 <<< (r * 64 + g)) }
  else c2

/-- MDRAIN under its limits (R100 to R102, R245). -/
def runMdrain (st : Started) (vb : Nat) (clr : Bool) (g0 ng r0 nr : Nat) (c : Core) : Core :=
  if r0 + nr > 16 ∨ g0 + ng > 64 ∨ nr * ng > 64 then entryFault c .accRange st.entry
  else
    let c1 := (List.range (nr * ng)).foldl (drainWrite r0 g0 ng vb clr) c
    { c1 with started := c1.started ++ [st] }

/-- Start an MDRAIN at the head of the matrix queue (Table 3.1). -/
def startMdrain (icount : Nat) (c : Core) : Core :=
  match takeHead c .matrix (fun op => decide (opByte op = 0x83#8)) with
  | some (st, c1) =>
    match decide (st.entry.icount = icount), st.entry.insn.op with
    | true, .mdrain vb clr g0 ng r0 nr =>
      runMdrain st vb.toNat (decide (clr = 1#1)) g0.toNat (ng.toNat + 1) r0.toNat (nr.toNat + 1) c1
    | _, _ => c
  | none => c

/-- The live bits of the named tiles. -/
def tileLive (tiles : BitVec 16) : BitVec 1024 :=
  (List.range 16).foldl (fun m r => (List.range 16).foldl (fun m t =>
    if tiles.getLsbD t then m ||| (0xF#1024 <<< (r * 64 + 4 * t)) else m) m) 0#1024

/-- Every entry of the named tiles +0 and not live (R103). -/
def clearTiles (tiles : BitVec 16) (m : Matrix) : Matrix :=
  { m with acc := m.acc.filter (fun kv => !tiles.getLsbD (kv.1 % 2048 / 128)), live := m.live &&& ~~~(tileLive tiles) }

/-- MCLEAR; with no tile named it completes at once and has no effect (R103). -/
def runMclear (st : Started) (tiles : BitVec 16) (c : Core) : Core :=
  if tiles = 0#16 then completeEntry c st
  else
    let c1 := setMx c (clearTiles tiles c.matrix)
    { c1 with started := c1.started ++ [st] }

/-- Start an MCLEAR at the head of the matrix queue (Table 3.1). -/
def startMclear (c : Core) : Core :=
  match takeHead c .matrix (fun op => decide (opByte op = 0x84#8)) with
  | some (st, c1) =>
    match st.entry.insn.op with
    | .mclear t => runMclear st t c1
    | _ => c
  | none => c

/-- The code of a mode type for CORE.MX_MODE; NONE is 0. -/
def modeCodes (c : Core) : Nat × Nat :=
  match c.matrix.mode with
  | some (w, a) => (etypeCode w, etypeCode a)
  | none => (0, 0)

end Sys2Proof.Machine
end

