-- ==== Sys2Proof/Machine/SyncUnit.lean ====
section
/-!
DEFINITION. Sys2Proof/Machine/SyncUnit.lean: the sync instructions of one core, its barriers and credits, and the
completion of queued instructions (R156, R171 to R181, R261 to R270).
-/

namespace Sys2Proof.Machine

/-- Start the head of the sync queue when `ok` accepts it, and run it (R269, R270). -/
def startSync (ok : CoreOp → Bool) (run : Started → Core → Core) (c : Core) : Core :=
  match takeHead c .sync ok with
  | some (st, c1) => run st c1
  | none => c

/-- Does the rectangle (x, y, w, h) reach beyond the job's virtual grid (R263)? -/
def rectBeyond (p : Place) (x y w h : Nat) : Bool := decide (x + w > p.vw) || decide (y + h > p.vh)

/-- SSET: the descriptor of its slot, its initial state and its credits (R171, R261 to R263). DESIGN CHOICE (assumption 100): with
REMOTE 0 the rectangle fields of the slot hold 0. -/
def runSset (st : Started) (c : Core) : Core :=
  match st.entry.insn.op with
  | .sset slot _ pc cc init remote _ =>
    let v := st.entry.ra.value
    let base := getField v 0 15
    let rows := getField v 15 15
    let r := st.entry.rd.value
    let px0 := if remote = 1#1 then getField r 18 6 else 0
    let py0 := if remote = 1#1 then getField r 12 6 else 0
    let pw := if remote = 1#1 then getField r 6 6 else 0
    let ph := if remote = 1#1 then getField r 0 6 else 0
    if rows = 0 ∨ base + rows > slabRowCount then entryFault c .slabRange st.entry
    else if remote = 1#1 ∧ rectBeyond c.place px0 py0 (pw + 1) (ph + 1) then entryFault c .fencedTarget st.entry
    else
      let old := getSlot c slot.toNat
      let new : Slot :=
        { base := base, rows := rows, pcount := pc.toNat + 1, ccount := cc.toNat + 1, full := decide (init = 1#1),
          posted := 0, admitted := 0, released := 0, remote := decide (remote = 1#1), px0 := px0, py0 := py0, pw := pw,
          ph := ph, posts := old.posts, releases := 0, gen := old.gen + 1 }
      let c1 := setSlot c slot.toNat new
      let c2 := if init = 0#1 ∧ remote = 1#1 then sendCredits c1 slot.toNat else c1
      completeEntry c2 st
  | _ => c
where
  /-- Rows of a slab (R263). -/
  slabRowCount : Nat := 24576

/-- SSET at the head of the sync queue. -/
def startSset (c : Core) : Core := startSync (fun op => decide (opByte op = 0xC0#8)) runSset c

/-- SWAIT: admitted on SLOT, it completes and releases it (R264). -/
def runSwait (st : Started) (c : Core) : Core :=
  match st.entry.insn.op with
  | .swait slot =>
    let n := slot.toNat
    let g := (getSlot c n).gen
    let c1 := setSlot c n { getSlot c n with admitted := (getSlot c n).admitted + 1 }
    completeEntry (releaseSlot c1 n g) st
  | _ => c

/-- SWAIT at the head of the sync queue, when its slot admits it. -/
def startSwait (c : Core) : Core :=
  startSync (fun op => match op with
    | .swait slot => slotTurn c .sync slot
    | _ => false) runSwait c

/-- SPOST: one post (R265). -/
def runSpost (st : Started) (c : Core) : Core :=
  match st.entry.insn.op with
  | .spost slot => completeEntry (postSlot c slot.toNat) st
  | _ => c

/-- SPOST at the head of the sync queue. -/
def startSpost (c : Core) : Core := startSync (fun op => decide (opByte op = 0xC2#8)) runSpost c

/-- SFREE: one release without admission (R265). -/
def runSfree (st : Started) (c : Core) : Core :=
  match st.entry.insn.op with
  | .sfree slot => completeEntry (releaseSlot c slot.toNat (getSlot c slot.toNat).gen) st
  | _ => c

/-- SFREE at the head of the sync queue. -/
def startSfree (c : Core) : Core := startSync (fun op => decide (opByte op = 0xC3#8)) runSfree c

/-! ### Barriers -/

/-- Cores of the barrier region (R266). -/
def regionSize (c : Core) : Nat := (c.sync.bw + 1) * (c.sync.bh + 1)

/-- The site of the region's leader, its north-west corner (R267). -/
def leaderSite (c : Core) : Nat :=
  match placeOf c.place c.sync.bx0 c.sync.by0 with
  | some e => e.site
  | none => c.place.site

/-- The release the leader multicasts to its region (R267). -/
def releasePkt (c : Core) (id ord : Nat) : Packet :=
  { mcastPkt c .barrier c.sync.bx0 c.sync.by0 (c.sync.bw + 1) (c.sync.bh + 1) with ident := (id, ord), release := true }

/-- The leader counts an arrival from `site` for (id, ord): with every core of the region counted it multicasts the
release; with no tally free the arrival is dropped (R267, R268). -/
def tallyArrival (site id ord : Nat) (c : Core) : Core :=
  let held := c.sync.tallies.find? fun t => decide (t.id = id) && decide (t.ordinal = ord)
  let arrived := match held with
    | some t => if t.arrived.contains site then t.arrived else site :: t.arrived
    | none => [site]
  let others := c.sync.tallies.filter fun t => !(decide (t.id = id) && decide (t.ordinal = ord))
  if held.isNone ∧ c.sync.tallies.length ≥ 8 then
    { c with sync := { c.sync with barrierDrops := sat16 c.sync.barrierDrops 1 } }
  else if arrived.length = regionSize c then
    sendPkts { c with sync := { c.sync with tallies := others } } [releasePkt c id ord]
  else { c with sync := { c.sync with tallies := others ++ [{ id := id, ordinal := ord, arrived := arrived }] } }

/-- BARRIER: its arrival goes to the leader, or is counted there; a core alone in its region completes (R266, R267). -/
def runBarrier (st : Started) (c : Core) : Core :=
  match st.entry.insn.op with
  | .barrier idb =>
    let id := idb.toNat
    let ord := smGet 0 c.sync.ordinals id
    let c1 := { c with sync := { c.sync with ordinals := smSet 0 c.sync.ordinals id (ord + 1) } }
    if regionSize c = 1 then completeEntry c1 st
    else
      let c2 := { c1 with sync := { c1.sync with waiting := some (st, ord) } }
      if leaderSite c = c.place.site then tallyArrival c.place.site id ord c2
      else sendPkts c2 [{ mkPkt c .barrier (leaderSite c) with ident := (id, ord) }]
  | _ => c

/-- BARRIER at the head of the sync queue. -/
def startBarrier (c : Core) : Core := startSync (fun op => decide (opByte op = 0xC4#8)) runBarrier c

/-- A barrier release reaches the core: its waiting BARRIER completes and posts (R267). -/
def barrierReleased (id ord : Nat) (c : Core) : Core :=
  match c.sync.waiting with
  | some (st, o) =>
    match st.entry.insn.op with
    | .barrier i =>
      if i.toNat = id ∧ o = ord then completeEntry { c with sync := { c.sync with waiting := none } } st else c
    | _ => c
  | none => c

/-! ### Credits -/

/-- A credit of (consumer site, slot) reaches the core's transfer engine (R180, CORE.SYNC_CREDITS). -/
def receiveCredit (site slot : Nat) (c : Core) : Core :=
  let s := { c.sync with creditsReceived := (c.sync.creditsReceived + 1) % 2 ^ 32 }
  if s.credits.contains (site, slot) then { c with sync := s }
  else if s.credits.length ≥ 1024 then { c with sync := { s with creditDrops := sat16 s.creditDrops 1 } }
  else { c with sync := { s with credits := s.credits ++ [(site, slot)] } }

/-! ### Completion -/

/-- A vector instruction, MDRAIN or MCLEAR that has started completes; a load waits until its last register has landed (R156,
R236). -/
def completeStarted (icount : Nat) (c : Core) : Core :=
  match c.started.find? (fun s => decide (s.entry.icount = icount)) with
  | some st =>
    if c.vec.landing.any (fun l => decide (l.icount = icount)) then c
    else completeEntry { c with started := c.started.filter fun s => !decide (s.entry.icount = icount) } st
  | none => c

/-- Is the transfer done: every destination has acknowledged and every row has come (R258)? -/
def xferDone (j : XferJob) : Bool := j.waitAcks.isEmpty && decide (j.hbmAcks = 0) && decide (j.waitRows = 0) && !j.nacked

/-- A transfer that is done completes (R258). -/
def completeXfer (icount : Nat) (c : Core) : Core :=
  match c.xfer.jobs.find? (fun j => decide (j.st.entry.icount = icount) && xferDone j) with
  | some j =>
    completeEntry { c with xfer := { c.xfer with
      jobs := c.xfer.jobs.filter fun i => !decide (i.st.entry.icount = icount) } } j.st
  | none => c

end Sys2Proof.Machine
end

