-- ==== Sys2Proof/Machine/Transfer.lean ====
section
/-!
DEFINITION. Sys2Proof/Machine/Transfer.lean: the transfer engine of one core: the checks of a transfer, its packets, and
what a core does with the packets that reach it (R143, R144, R146 to R149, R179 to R181, R248 to R259, R630).
-/

namespace Sys2Proof.Machine

/-- A core descriptor in an address register (Table 7.6). -/
structure CoreDesc where
  dslot : Nat
  vx : Nat
  vy : Nat
  row : Nat
deriving DecidableEq, Repr

/-- The fields of a core descriptor (R248). -/
def coreDesc (v : W48) : CoreDesc :=
  { dslot := getField v 40 8, vx := getField v 34 6, vy := getField v 28 6, row := getField v 0 28 }

/-- A transfer with its operands decoded (R249). -/
structure XferArgs where
  f : XferFn
  kind : Nat
  side : Bool
  po : Bool
  count : Nat
  w : Nat
  h : Nat
  src : Nat
  dst : Nat
  far : CoreDesc
deriving DecidableEq, Repr

/-- The operands of a queued transfer; for XHALO KIND holds DIR (R249 to R254). -/
def xferArgs (e : QEntry) : Option XferArgs :=
  match e.insn.op with
  | .xfer f _ _ _ _ kind s po count cw ch =>
    some { f := f, kind := kind.toNat, side := decide (s = 1#1), po := decide (po = 1#1), count := count.toNat + 1,
           w := cw.toNat + 1, h := ch.toNat + 1, src := e.ra.value.toNat, dst := e.rd.value.toNat,
           far := coreDesc (if f = .xget then e.ra.value else e.rd.value) }
  | _ => none

/-- The kind of the far end: XHALO always goes to a slab (Table 7.8). -/
def farKind (a : XferArgs) : Nat := if a.f = .xhalo then 0 else a.kind

/-- Rows per packet (R256). -/
def pktRows (side : Bool) : Nat := if side then 28 else 32

/-- Bytes of a row in HBM (R251). -/
def hbmRowBytes (side : Bool) : Nat := if side then 144 else 128

/-- Side words of a transferred row. -/
def sideWords (side : Bool) : Nat := if side then 4 else 0

/-- The virtual neighbour of a core in direction d, 0 north, 1 east, 2 south, 3 west; none off the grid's edge (R253). -/
def neighbour (p : Place) (d : Nat) : Option (Nat × Nat) :=
  match d with
  | 0 => if p.vy = 0 then none else some (p.vx, p.vy - 1)
  | 1 => some (p.vx + 1, p.vy)
  | 2 => some (p.vx, p.vy + 1)
  | _ => if p.vx = 0 then none else some (p.vx - 1, p.vy)

/-- The virtual cores at a slab transfer's far end; an XHALO off the grid names one core outside it. -/
def farCores (c : Core) (a : XferArgs) : List (Nat × Nat) :=
  match a.f with
  | .xcast => rectCores a.far.vx a.far.vy a.w a.h
  | .xhalo => match neighbour c.place a.kind with
    | some v => [v]
    | none => [(64, 64)]
  | _ => if a.kind = 0 then [(a.far.vx, a.far.vy)] else []

/-- The window core and slab row of window byte a: rectangle core and row (R147); none outside the rectangle's place. -/
def windowAt (sl : Slab) (a : Nat) : (Nat × Nat) × Nat :=
  let w := a / 128
  let n := max 1 (sl.winWd * sl.winHt)
  let i := w % n
  ((sl.winVx0 + i % max 1 sl.winWd, sl.winVy0 + i / max 1 sl.winWd), sl.winBase + w / n)

/-- The window byte address of a window transfer. -/
def windowAddr (a : XferArgs) : Nat := (if a.f = .xget then a.src else a.dst) / 4 * 4

/-- The parts of a window transfer, split at row boundaries: first byte and segments (R149). -/
def windowParts : Nat → Nat → Nat → List (Nat × Nat)
  | 0, _, _ => []
  | fuel + 1, a, n =>
    if n = 0 then []
    else
      let k := min n (32 - a % 128 / 4)
      (a, k) :: windowParts fuel (a + 4 * k) (n - k)

/-- Is the virtual core outside the grid or fenced (R181, R255)? -/
def coreFenced (p : Place) (v : Nat × Nat) : Bool :=
  match placeOf p v.1 v.2 with
  | some e => e.fenced
  | none => true

/-- The local range of a transfer: first row (or segment in window kind), none when it moves no local rows. -/
def localStart (a : XferArgs) : Option Nat :=
  match a.f with
  | .xget => some a.dst
  | .xcast => if a.kind = 1 then none else some a.src
  | _ => if a.po then none else some a.src

/-- Does a byte of the n from address a on lie in the arena, but past the input or the output bytes of the dispatch (R287)? -/
def arenaBad (p : Place) (a n : Nat) : Bool :=
  let meets := fun (lo hi : Nat) => decide (lo < hi) && decide (a < hi) && decide (lo < a + n)
  let o := p.arenaBase + p.inMax
  meets (p.arenaBase + p.inLim) o || meets (o + p.outLim) (o + p.outMax)

/-- The checks of a transfer at its admission, in the order of R255, then that of R287: the fault, if any, and whether the page map
refused it (R363). `hbm` gives the page-map and arena answer for an address, a length and a write. -/
def xferCheck (hbm : Nat → Nat → Bool → Option (FaultCode × Bool)) (c : Core) (a : XferArgs) : Option (FaultCode × Bool) :=
  let k := farKind a
  let limit := if k = 2 then slabRows * 32 else slabRows
  let localBad := match localStart a with
    | some r => decide (r + a.count > limit)
    | none => false
  let addr := if a.f = .xput then a.dst else a.src
  let winA := windowAddr a
  if localBad then some (.slabRange, false)
  else if k = 1 ∧ addr % 16 ≠ 0 then some (.slabRange, false)
  else
    match (if k = 1 then hbm addr (a.count * hbmRowBytes a.side) (decide (a.f = .xput)) else none) with
    | some f => some f
    | none =>
      if k = 2 ∧ (!c.slab.winEn ∨ winA + 4 * a.count > c.slab.winPages * 4096) then some (.slabRange, false)
      else
        let cores := if k = 2 then (windowParts (a.count + 1) winA a.count).map (fun p => (windowAt c.slab p.1).1)
          else if k = 1 ∧ a.f ≠ .xcast then [] else farCores c a
        if cores.any (coreFenced c.place) then some (.fencedTarget, false)
        else if k = 1 ∧ arenaBad c.place addr (a.count * hbmRowBytes a.side) then some (.shapeBound, false) else none

/-- The sites at the far end of a slab transfer or an XCAST. -/
def farSites (c : Core) (a : XferArgs) : List Nat :=
  (farCores c a).filterMap fun v => (placeOf c.place v.1 v.2).map (·.site)

/-- The credits a posting transfer needs: one pair for each destination core and slot (R179). -/
def creditPairs (c : Core) (a : XferArgs) : List (Nat × Nat) :=
  if a.f = .xget ∨ (a.f ≠ .xcast ∧ farKind a ≠ 0) ∨ a.far.dslot = 255 then []
  else (farSites c a).map fun s => (s, a.far.dslot)

/-- Does the engine hold every credit? -/
def creditsHeld (c : Core) (ps : List (Nat × Nat)) : Bool := ps.all fun p => c.sync.credits.contains p

/-- The credits consumed (R179). -/
def takeCredits (c : Core) (ps : List (Nat × Nat)) : Core :=
  { c with sync := { c.sync with credits := c.sync.credits.filter fun p => !ps.contains p } }

/-- The lowest transfer index that is free (TAG of Table 9.4). -/
def freeTag (c : Core) : Nat :=
  ((List.range 16).find? fun t => !c.xfer.jobs.any fun j => decide (j.tag = t)).getD 0

/-! ### What a transfer sends (R251 to R256) -/

/-- Cut `count` rows from row 0 on into packets of at most `most` rows, no packet holding rows for which `part` differs: (first
row, rows). -/
def cutRows (part : Nat → Nat) (most count : Nat) : List (Nat × Nat) :=
  ((List.range count).foldl (fun (acc : List (Nat × Nat)) i =>
    match acc with
    | (s, n) :: l => if part i = part s ∧ n < most then (s, n + 1) :: l else (i, 1) :: (s, n) :: l
    | [] => [(i, 1)]) []).reverse

/-- The packets of a KIND 01b transfer: at most 32 or 28 rows, each in one partition. DESIGN CHOICE (assumption 98): a row whose
bytes lie in two partitions goes with its first byte. `part` gives the partition of a job-virtual address (R254, R256, R355). -/
def hbmCuts (part : Nat → Nat) (a : XferArgs) (v : Nat) : List (Nat × Nat) :=
  cutRows (fun i => part (v + i * hbmRowBytes a.side)) (pktRows a.side) a.count

/-- The packets of a slab transfer: at most 32 or 28 rows (R256). -/
def slabCuts (a : XferArgs) : List (Nat × Nat) := cutRows (fun _ => 0) (pktRows a.side) a.count

/-- A packet of transfer st with index tag: its header's TAG, SIDE and COUNT, and which transfer it is (Table 9.4, assumption
38). -/
def xferPkt (c : Core) (st : Started) (tag : Nat) (side : Bool) (t : PktType) (dst n : Nat) : Packet :=
  { mkPkt c t dst with side := side, tag := tag, count := n, xid := some st.entry.icount }

/-- The rectangle fields of a multicast to the rectangle of an XCAST (R323). -/
def castRects (c : Core) (a : XferArgs) (p : Packet) : Packet :=
  { p with
    mcast := true
    prect := boundingRect (rectSites c.place a.far.vx a.far.vy a.w a.h)
    vrect := { x0 := a.far.vx, y0 := a.far.vy, x1 := a.far.vx + a.w - 1, y1 := a.far.vy + a.h - 1 } }

/-- The slot fields of a posting transfer's packet, and how many rows the transfer brings each destination (R251, R257). -/
def postTo (a : XferArgs) (p : Packet) : Packet :=
  { p with post := decide (a.far.dslot ≠ 255), slot := a.far.dslot, total := if a.po then 0 else a.count }

/-- Reads queued at the transfer-out requester, or at halo-out for an XHALO (Table 4.1, R253). -/
def queueOuts (c : Core) (halo : Bool) (js : List OutJob) : Core :=
  if halo then { c with xfer := { c.xfer with haloOuts := c.xfer.haloOuts ++ js } }
  else { c with xfer := { c.xfer with outs := c.xfer.outs ++ js } }

/-- The source reads of a packet: `n` rows or segments from `next` on. -/
def outJob (p : Packet) (next n : Nat) (own : Option Nat) : OutJob :=
  { pkt := p, next := next, left := n, idx := 0, got := [], refused := none, own := own }

/-- A started transfer joins the engine's list. -/
def addXfer (c : Core) (j : XferJob) : Core := { c with xfer := { c.xfer with jobs := c.xfer.jobs ++ [j] } }

/-- A started transfer that waits for acknowledgements. -/
def xferJob (st : Started) (tag : Nat) (sites : List Nat) (acks rows : Nat) : XferJob :=
  { tag := tag, st := st, waitAcks := sites, hbmAcks := acks, waitRows := rows, nacked := false }

/-- XPUT, XHALO or XCAST of local rows to slabs: each packet leaves when its rows are read; with PO the header leaves at once
(R251, R253, R254, R256). -/
def sendSlab (st : Started) (a : XferArgs) (c : Core) : Core :=
  let tag := freeTag c
  let c1 := addXfer c (xferJob st tag (farSites c a) 0 0)
  let pkt := fun (s n : Nat) =>
    let p := postTo a { xferPkt c st tag a.side .write ((farSites c a).headD c.place.site) n with
      halo := decide (a.f = .xhalo), addr := a.far.row + s }
    if a.f = .xcast then castRects c a { p with typ := .mcastWrite, dst := c.place.site } else p
  if a.po then sendPkts c1 [pkt 0 0]
  else queueOuts c1 (decide (a.f = .xhalo)) ((slabCuts a).map fun k => outJob (pkt k.1 k.2) (a.src + k.1) k.2 (some tag))

/-- XPUT of local rows to HBM: one acknowledgement for each packet (R251). -/
def sendHbm (part : Nat → Nat) (st : Started) (a : XferArgs) (c : Core) : Core :=
  let tag := freeTag c
  let cuts := hbmCuts part a a.dst
  queueOuts (addXfer c (xferJob st tag [] cuts.length 0)) false (cuts.map fun k =>
    outJob { xferPkt c st tag a.side .hbmWrite c.place.site k.2 with haddr := a.dst + k.1 * hbmRowBytes a.side } (a.src + k.1) k.2
      (some tag))

/-- The parts of a window transfer as (segment of the transfer, site, segment address there, segments) (R147, R149). -/
def windowCuts (c : Core) (a : XferArgs) : List (Nat × Nat × Nat × Nat) :=
  ((windowParts (a.count + 1) (windowAddr a) a.count).foldl (fun (acc : List (Nat × Nat × Nat × Nat) × Nat) pt =>
    let w := windowAt c.slab pt.1
    let site := ((placeOf c.place w.1.1 w.1.2).map (·.site)).getD c.place.site
    (acc.1 ++ [(acc.2, site, w.2 * 32 + pt.1 % 128 / 4, pt.2)], acc.2 + pt.2)) ([], 0)).1

/-- XPUT of local segments to the pooled window: one packet and one acknowledgement for each part (R149, R251). -/
def sendWindow (st : Started) (a : XferArgs) (c : Core) : Core :=
  let tag := freeTag c
  let cuts := windowCuts c a
  queueOuts (addXfer c (xferJob st tag [] cuts.length 0)) false (cuts.map fun k =>
    outJob { xferPkt c st tag false .write k.2.1 k.2.2.2 with segs := true, total := k.2.2.2, addr := k.2.2.1 } (a.src + k.1)
      k.2.2.2 (some tag))

/-- XGET: read requests to the far slab, to HBM or to the window's cores; ADDR is the far row or segment of a slab
read and HADDR then the local one it goes to (R252, assumption 6). -/
def requestRows (part : Nat → Nat) (st : Started) (a : XferArgs) (c : Core) : Core :=
  let tag := freeTag c
  let ps : List Packet :=
    if a.kind = 0 then
      (slabCuts a).map fun k =>
        { xferPkt c st tag a.side .read ((farSites c { a with f := .xput }).headD c.place.site) k.2 with
          addr := a.far.row + k.1, haddr := a.dst + k.1 }
    else if a.kind = 1 then
      (hbmCuts part a a.src).map fun k =>
        { xferPkt c st tag a.side .hbmRead c.place.site k.2 with addr := a.dst + k.1, haddr := a.src + k.1 * hbmRowBytes a.side }
    else
      (windowCuts c a).map fun k =>
        { xferPkt c st tag false .read k.2.1 k.2.2.2 with segs := true, addr := k.2.2.1, haddr := a.dst + k.1 }
  sendPkts (addXfer c (xferJob st tag [] 0 a.count)) ps

/-- XCAST from HBM: read requests whose data the entry router multicasts to the rectangle, each part that lies in one partition
fetched once (R254). A request itself travels as a unicast. -/
def castHbm (part : Nat → Nat) (st : Started) (a : XferArgs) (c : Core) : Core :=
  let tag := freeTag c
  sendPkts (addXfer c (xferJob st tag (farSites c a) 0 0)) ((hbmCuts part a a.src).map fun k =>
    { castRects c a (postTo a (xferPkt c st tag a.side .hbmRead c.place.site k.2)) with
      mcast := false, cast := some c.place.site, addr := a.far.row + k.1, haddr := a.src + k.1 * hbmRowBytes a.side })

/-- A transfer that has passed its checks and holds its credits starts (R251 to R254). -/
def runXfer (part : Nat → Nat) (st : Started) (a : XferArgs) (c : Core) : Core :=
  match a.f with
  | .xget => requestRows part st a c
  | .xhalo => sendSlab st a c
  | .xcast => if a.kind = 1 then castHbm part st a c else sendSlab st a c
  | .xput => if a.kind = 0 then sendSlab st a c else if a.kind = 1 then sendHbm part st a c else sendWindow st a c

/-- The head of the transfer queue under function f: its admission with the checks, its wait for credits, its start.
The Bool says that the page map refused it (R155, R172, R179, R255, R258, R363). -/
def startXfer (hbm : Nat → Nat → Bool → Option (FaultCode × Bool)) (part : Nat → Nat) (f : XferFn) (c : Core) :
    Core × Bool :=
  match c.qxfer with
  | [] => (c, false)
  | q :: rest =>
    match xferArgs q with
    | none => (c, false)
    | some a =>
      if mayStart c && decide (a.f = f) && engineFree c q.insn.op && (q.admitted || admitsNow c .transfer q.insn.wait) then
        let g := if q.admitted then q.gen else waitGen c q.insn.wait
        let c1 := if q.admitted then c else admitWait c q.insn.wait
        match (if q.admitted then none else xferCheck hbm c a) with
        | some flt => (entryFault { c1 with qxfer := rest } flt.1 q, flt.2)
        | none =>
          if creditsHeld c (creditPairs c a) then
            (runXfer part { entry := q, gen := g } a (takeCredits { c1 with qxfer := rest } (creditPairs c a)), false)
          else ({ c1 with qxfer := { q with admitted := true, gen := g } :: rest }, false)
      else (c, false)

/-! ### The transfers that a packet answers -/

/-- The started transfer that a packet answers: its index and the transfer itself are those of the packet. -/
def findXfer (c : Core) (p : Packet) : Option XferJob :=
  c.xfer.jobs.find? fun j => decide (j.tag = p.tag) && decide (some j.st.entry.icount = p.xid)

/-- The core with f applied to the started transfer that a packet answers. -/
def modXfer (c : Core) (p : Packet) (f : XferJob → XferJob) : Core :=
  { c with xfer := { c.xfer with
      jobs := c.xfer.jobs.map fun j => if j.tag = p.tag ∧ some j.st.entry.icount = p.xid then f j else j } }

/-- The site whose transfer a packet serves: that of SRC, and for the data of an XCAST from HBM its issuer (assumption 38). -/
def issuerOf (p : Packet) : Nat := p.cast.getD p.src

/-- The answer packet of a receiver to the issuer of a packet's transfer. -/
def replyPkt (c : Core) (site : Nat) (t : PktType) (p : Packet) : Packet :=
  { mkPkt c t (issuerOf p) with
    src := site, job := p.job, tag := p.tag, segs := p.segs, halo := p.halo, xid := p.xid, dstEdge := p.srcEdge && p.cast.isNone }

/-! ### Grants of the transfer-out and halo-out requesters (Table 4.1) -/

/-- The next source access of a packet: its row, with the side lane when the packet carries it; in window form a segment, or the
whole row when the part of a window is a row (R149, R251, R252). -/
def outAccess (j : OutJob) : MemAcc :=
  if j.pkt.segs then
    (if j.own.isNone && decide (j.idx = 0) && decide (j.left = 32) && decide (j.next % 32 = 0) then .row (j.next / 32) 0
     else .narrow (j.next / 32) (j.next % 32))
  else .row j.next (sideWords j.pkt.side)

/-- How many rows or segments of its packet an access moves. -/
def accUnits (segs : Bool) : MemAcc → Nat
  | .row .. => if segs then 32 else 1
  | _ => 1

/-- A row with a single segment's word in word 0. -/
def segRow (d : Decoded) : Row := rowSetAny Row.zero 0 d.data d.crazed

/-- The rows, or segments one a row in word 0, that a source access reads. -/
def outRead (segs : Bool) (c : Core) : MemAcc → List Row × Core
  | .narrow r s =>
    let p := readWord (countSlab c 1) r s
    ([segRow p.1], p.2)
  | .col r s =>
    let p := readCol c r s
    ([p.1], p.2)
  | .row r n =>
    let p := readRow c r n
    (if segs then (List.range 32).map fun i => rowSetAny Row.zero 0 (rowWord p.1 i) (rowZ p.1 i) else [p.1], p.2)

/-- The bytes of a row that enter the store check, a crazed word as all ones (R543). -/
def storeBytes (r : Row) (side : Bool) : List Byte :=
  (rowSegs (sideWords side)).flatMap fun i =>
    if rowZ r i then List.replicate 4 0xFF#8 else bytesLE 4 (rowAny r i).toNat

/-- The NACK status that a refused access brings (R144, Table 9.6). -/
def refusal (f : FaultCode) : Nat := if f = .bankOff then 2 else 3

/-- The packets of a reply whose reads are done: all rows in one, or with refused rows each row that was read on its own and one
NACK (R144, R252, R630). -/
def replyPkts (j : OutJob) : List Packet :=
  let data := fun (i : Nat) (rows : List Row) =>
    { j.pkt with addr := j.pkt.addr + i, count := rows.length, rows := rows }
  match j.refused with
  | none => [data 0 (j.got.map (·.2))]
  | some s => j.got.map (fun ir => data ir.1 [ir.2]) ++ [{ j.pkt with typ := .nack, side := false, addr := 0, count := 0, status := s }]

/-- The packets of an out job whose last access is made. -/
def outPkts (j : OutJob) : List Packet :=
  if j.own.isNone then replyPkts j else [{ j.pkt with rows := j.got.map (·.2) }]

/-- What is left of the own transfer of index t after a local read of it faulted: it has ended, and its packets not yet read are
not sent. DESIGN CHOICE (assumption 99). -/
def endXfer (t : Nat) (c : Core) : Core :=
  let keep := fun (j : OutJob) => !decide (j.own = some t)
  { c with xfer := { c.xfer with
      jobs := c.xfer.jobs.filter (fun j => !decide (j.tag = t)), outs := c.xfer.outs.filter keep,
      haloOuts := c.xfer.haloOuts.filter keep } }

/-- The out jobs of a requester. -/
def outsOf (halo : Bool) (c : Core) : List OutJob := if halo then c.xfer.haloOuts else c.xfer.outs

/-- The core with the out jobs of a requester replaced. -/
def setOuts (halo : Bool) (c : Core) (l : List OutJob) : Core :=
  if halo then { c with xfer := { c.xfer with haloOuts := l } } else { c with xfer := { c.xfer with outs := l } }

/-- An access of an out job is made, with its rows or its refusal; after the last one its packets leave (R124, R251, R252). -/
def outStep (halo : Bool) (j : OutJob) (n : Nat) (got : List Row) (refused : Option Nat) (rest : List OutJob) (c : Core) : Core :=
  let j1 : OutJob := { j with
    next := j.next + n, left := j.left - n, idx := j.idx + n, got := j.got ++ got.zipIdx.map (fun r => (j.idx + r.2, r.1)),
    refused := if j.refused.isSome then j.refused else refused }
  if j1.left = 0 then sendPkts (setOuts halo c rest) (outPkts j1) else setOuts halo c (j1 :: rest)

/-- The rows of a KIND 01b store enter the store check as they are read (R543). -/
def lockRows (p : Packet) (rows : List Row) (c : Core) : Core :=
  match p.typ with
  | .hbmWrite => { c with lockStore := rows.foldl (fun h r => crc64Run h (storeBytes r p.side)) c.lockStore }
  | _ => c

/-- A grant of the transfer-out requester, or of halo-out: the oldest packet's next access. A local read that reaches a bank that
is off faults BANK_OFF; a reply's is refused (R143, R144, R251 to R253). -/
def outGrant (halo : Bool) (c : Core) : Core :=
  match outsOf halo c with
  | [] => c
  | j :: rest =>
    let a := outAccess j
    match accFault c a, j.own with
    | some f, some t =>
      match c.xfer.jobs.find? (fun x => decide (x.tag = t)) with
      | some x => entryFault (endXfer t c) f x.st.entry
      | none => endXfer t c
    | some f, none => outStep halo j (accUnits j.pkt.segs a) [] (some (refusal f)) rest c
    | none, _ =>
      let r := outRead j.pkt.segs c a
      outStep halo j (accUnits j.pkt.segs a) r.1 none rest (lockRows j.pkt r.1 r.2)

/-! ### Grants of the transfer-in and halo-in requesters (Table 4.1) -/

/-- The slab row, or the segment address, of row i of an arriving packet: relative to the slot's BASE when it names one; none
where the slot or the slab does not hold it (R181, R248). -/
def arriveRow (c : Core) (p : Packet) (i : Nat) : Option Nat :=
  let a := p.addr + i
  if p.segs then (if a < slabRows * 32 then some a else none)
  else if p.slot = 255 then (if a < slabRows then some a else none)
  else
    let s := getSlot c p.slot
    if a < s.rows ∧ s.base + a < slabRows then some (s.base + a) else none

/-- The next write of an arriving packet and how many of its rows it stores: a row, a segment, or the whole row of a window part
that is a row; none where its first row has no place (R149, R181). -/
def inAccess (c : Core) (j : InJob) : Option MemAcc :=
  match j.left with
  | [] => none
  | (i, _) :: _ =>
    match arriveRow c j.pkt i with
    | none => none
    | some r =>
      if j.pkt.segs then
        (if !j.own && decide (i = 0) && decide (j.left.length = 32) && decide (r % 32 = 0) then some (.row (r / 32) 0)
         else some (.narrow (r / 32) (r % 32)))
      else some (.row r (sideWords j.pkt.side))

/-- The rows that a write access stores. -/
def inWrite (segs : Bool) (rows : List Row) (c : Core) : MemAcc → Core
  | .narrow r s => writeWord (countSlab c 1) r s (rowWord (rows.headD Row.zero) 0) (rowZ (rows.headD Row.zero) 0)
  | .col r s => writeCol c r s (rows.headD Row.zero)
  | .row r n =>
    if segs then
      writeRow c r (rows.zipIdx.foldl (fun acc x => rowSetAny acc x.2 (rowWord x.1 0) (rowZ x.1 0)) Row.zero) 0
    else writeRow c r (rows.headD Row.zero) n

/-- The in jobs of a requester. -/
def insOf (halo : Bool) (c : Core) : List InJob := if halo then c.xfer.haloIns else c.xfer.ins

/-- The core with the in jobs of a requester replaced. -/
def setIns (halo : Bool) (c : Core) (l : List InJob) : Core :=
  if halo then { c with xfer := { c.xfer with haloIns := l } } else { c with xfer := { c.xfer with ins := l } }

/-- The key of the count that a destination keeps for a transfer's issuer and index. -/
def rxKey (p : Packet) : Nat := issuerOf p * 16 + p.tag

/-- The count that a destination keeps for a packet's issuer and index: the transfer and its stored rows (R257). -/
def rowCount (c : Core) (p : Packet) : Nat × Nat := smGet (0, 0) c.xfer.rx (rxKey p)

/-- The rows of its transfer that a destination has stored with those of this packet: rows of an earlier transfer count no more
(R257). -/
def rowsSoFar (c : Core) (p : Packet) (stored : Nat) : Nat :=
  (if (rowCount c p).1 = p.xid.getD 0 then (rowCount c p).2 else 0) + stored

/-- A packet of a transfer is stored but for what was refused: exactly one NACK for a refusal; the transfer's last row brings the
post and the ACK. A window part is acknowledged on its own; a packet that an ABORT closed, or that a later transfer of the same
index has overtaken, not at all (R257, R258, R309, R630) (assumption 135). -/
def endWrite (site : Nat) (p : Packet) (stored : Nat) (refused : Option Nat) (c : Core) : Core :=
  match refused with
  | some s => sendPkts c [{ replyPkt c site .nack p with status := s }]
  | none =>
    if p.aborted || (!p.segs && decide (p.xid.getD 0 < (rowCount c p).1)) then c
    else
      let got := if p.segs then stored else rowsSoFar c p stored
      let done := decide (got = p.total)
      let c1 := if p.segs then c
        else { c with xfer := { c.xfer with
          rx := smSet (0, 0) c.xfer.rx (rxKey p) (if done then (0, 0) else (p.xid.getD 0, got)) } }
      if done then sendPkts (if p.post then postSlot c1 p.slot else c1) [replyPkt c1 site .ack p] else c1

/-- The end of an in job: an own XGET's rows need no answer. -/
def endIn (site : Nat) (j : InJob) (c : Core) : Core :=
  if j.own then c else endWrite site j.pkt j.stored j.refused c

/-- Rows of an own XGET have come; a refused local write faults BANK_OFF or SLAB_RANGE at its issuer (R143, R252). -/
def ownRows (p : Packet) (n : Nat) (refused : Option Nat) (c : Core) : Core :=
  let c1 := modXfer c p fun x => { x with waitRows := x.waitRows - n }
  match refused, findXfer c p with
  | some s, some x => entryFault c1 (if s = 2 then .bankOff else .slabRange) x.st.entry
  | _, _ => c1

/-- A write of an in job is made or refused; after the last one the packet is answered (R143, R257, R630). -/
def inStep (site : Nat) (halo : Bool) (j : InJob) (n : Nat) (refused : Option Nat) (rest : List InJob) (c : Core) : Core :=
  let j1 : InJob := { j with
    left := j.left.drop n, stored := if refused.isNone then j.stored + n else j.stored,
    refused := if j.refused.isSome then j.refused else refused }
  let c1 := if j.own then ownRows j.pkt n refused c else c
  if j1.left.isEmpty then endIn site j1 (setIns halo c1 rest) else setIns halo c1 (j1 :: rest)

/-- A grant of the transfer-in requester, or of halo-in: the oldest arrived packet's next write. A write that the slot or the
slab has no row for is refused with SLAB_RANGE, one that reaches a closed bank with BANK_OFF, counted (R143, R181). -/
def inGrant (site : Nat) (halo : Bool) (c : Core) : Core :=
  match insOf halo c with
  | [] => c
  | j :: rest =>
    match inAccess c j with
    | none => inStep site halo j 1 (some 3) rest c
    | some a =>
      let n := accUnits j.pkt.segs a
      match accFault c a with
      | some f => inStep site halo j n (some (refusal f)) rest (if f = .bankOff then lateWrite c else c)
      | none => inStep site halo j n none rest (inWrite j.pkt.segs ((j.left.take n).map (·.2)) c a)

/-- Does a row that waits to be written reach bank b (R142)? -/
def rowReaches (c : Core) (p : Packet) (b : Nat) (i : Nat) : Bool :=
  match arriveRow c p i with
  | none => false
  | some r => if p.segs then decide (slabBank (r / 32) (r % 32) = b) else decide (b < 32) || (p.side && decide (b < 36))

/-- How many writes that wait reach bank b: its inbound write count (R142). -/
def inboundWrites (c : Core) (b : Nat) : Nat :=
  ((c.xfer.ins ++ c.xfer.haloIns).map fun j => (j.left.filter fun r => rowReaches c j.pkt b r.1).length).sum +
  (c.slab.wb.filter fun w => wbReaches w b).length

/-- The rows of a packet that wait for bank b refused, each counted (R143). -/
def refuseIn (site : Nat) (b : Nat) (j : InJob) (c : Core) : Option InJob × Core :=
  let hit := j.left.filter fun r => rowReaches c j.pkt b r.1
  if hit.isEmpty then (some j, c)
  else
    let j1 : InJob := { j with
      left := j.left.filter fun r => !rowReaches c j.pkt b r.1, refused := if j.refused.isSome then j.refused else some 2 }
    let c1 := hit.foldl (fun c _ => lateWrite c) c
    let c2 := if j.own then ownRows j.pkt hit.length (some 2) c1 else c1
    if j1.left.isEmpty then (none, endIn site j1 c2) else (some j1, c2)

/-- The same over a requester's packets. -/
def refuseIns (site : Nat) (b : Nat) (halo : Bool) (c : Core) : Core :=
  let r := (insOf halo c).foldl (fun (acc : List InJob × Core) j =>
    let q := refuseIn site b j acc.2
    (acc.1 ++ q.1.toList, q.2)) ([], c)
  setIns halo r.2 r.1

/-- The write-backs that wait for bank b refused, each counted (R143). -/
def refuseBacks (b : Nat) (c : Core) : Core :=
  let hit := c.slab.wb.filter fun w => wbReaches w b
  hit.foldl (fun c _ => lateWrite c) { c with slab := { c.slab with wb := c.slab.wb.filter fun w => !wbReaches w b } }

/-! ### What reaches a core -/

/-- Arrived rows queued at the transfer-in requester, or at halo-in for an XHALO (Table 4.1). -/
def queueIn (p : Packet) (own : Bool) (c : Core) : Core :=
  setIns p.halo c (insOf p.halo c ++ [{ pkt := p, left := p.rows.zipIdx.map (fun r => (r.2, r.1)), stored := 0, refused := none, own := own }])

/-- A WRITE, MCAST_WRITE or XCAST HBM_DATA packet at a destination: its rows join the write port; one without rows posts and is
acknowledged at once (R257). -/
def receiveWrite (site : Nat) (p : Packet) (c : Core) : Core :=
  if p.rows.isEmpty then endWrite site p 0 none c else queueIn p false c

/-- A READ packet at its owner: its reads join the transfer-out requester (R252). -/
def receiveRead (site : Nat) (p : Packet) (c : Core) : Core :=
  queueOuts c false
    [outJob { replyPkt c site .readData p with side := p.side, addr := p.haddr, halo := false } p.addr p.count none]

/-- READ_DATA or HBM_DATA at the issuer of an XGET: the rows join its transfer-in requester, from its local row or segment ADDR
on (R252). Data of a transfer that has ended are dropped. -/
def receiveData (p : Packet) (c : Core) : Core :=
  match findXfer c p with
  | none => c
  | some _ => queueIn { p with slot := 255, halo := false } true c

/-- An ACK at the issuer: the destination is done, or one of the packets that are acknowledged one by one (R258). -/
def receiveAck (p : Packet) (c : Core) : Core :=
  modXfer c p fun j =>
    if j.waitAcks.isEmpty then { j with hbmAcks := j.hbmAcks - 1 }
    else { j with waitAcks := j.waitAcks.filter fun s => !decide (s = p.src) }

/-- The issuer's fault for a NACK status (Table 9.6). -/
def nackFault (status : Nat) : FaultCode :=
  if status = 2 then .bankOff else if status = 3 then .slabRange else .fencedTarget

/-- A NACK at the issuer: it is counted and raises the fault of its status; a later one only sets MORE (R630). -/
def receiveNack (p : Packet) (c : Core) : Core :=
  let c1 := { c with xfer := { c.xfer with refused := sat16 c.xfer.refused 1 } }
  match findXfer c1 p with
  | some j => entryFault (modXfer c1 p fun j => { j with nacked := true }) (nackFault p.status) j.st.entry
  | none => c1

/-- A DROP_NOTICE at the source of an XCAST: the members in its rectangle count as acknowledged (R327). -/
def receiveDrop (p : Packet) (c : Core) : Core :=
  modXfer c p fun j =>
    { j with waitAcks := j.waitAcks.filter fun s =>
        !(decide (p.prect.x0 ≤ s % 64) && decide (s % 64 ≤ p.prect.x1) && decide (p.prect.y0 ≤ s / 64) &&
          decide (s / 64 ≤ p.prect.y1)) }

end Sys2Proof.Machine
end

