-- ==== Sys2Proof/Machine/Trans.lean ====
section
/-!
DEFINITION. Sys2Proof/Machine/Trans.lean: EXP2, LOG2 and TANH of VTRANS, rounded once to FP32 (R225). Each is computed
in fixed point with `tPrec` fraction bits, far more than an FP32 result needs, and then rounded with a sticky bit
(assumption 8).
-/

namespace Sys2Proof.Machine

/-- Fraction bits of the fixed-point numbers of this file. -/
def tPrec : Nat := 320

/-- The fixed-point number 1. -/
def tOne : Nat := 2 ^ tPrec

/-- Product of two fixed-point numbers. -/
def tMul (a b : Nat) : Nat := a * b / tOne

/-- sum over k of z^(2k+1) / (2k+1), the series of atanh; z2 is z squared. -/
def tAtanhSeries (z2 : Nat) : Nat → Nat → Nat → Nat
  | 0, _, _ => 0
  | n + 1, k, p => p / (2 * k + 1) + tAtanhSeries z2 n (k + 1) (tMul p z2)

/-- ln 2 = 2 atanh (1/3). -/
def tLn2 : Nat := 2 * tAtanhSeries (tOne / 9) 110 0 (tOne / 3)

/-- sum over k of t^k / k!, t below 1. -/
def tExpSeries (t : Nat) : Nat → Nat → Nat → Nat
  | 0, _, _ => 0
  | n + 1, k, p => p + tExpSeries t n (k + 1) (tMul p t / (k + 1))

/-- e^t for a fixed-point t below 1. -/
def tExp (t : Nat) : Nat := tExpSeries t 90 0 tOne

/-- 2^x (R225). -/
def fpExp2 (x : W32) : W32 :=
  match fpDecode x with
  | .nan => fpNan
  | .inf n => if n then fpCode false 0 else fpCode false 0x7F800000
  | .fin n m e =>
    if m = 0 then 0x3F800000#32
    else if (Nat.log2 m : Int) + e ≥ 8 then (if n then fpCode false 0 else fpCode false 0x7F800000)
    else
      -- x = ip + fr / 2^tPrec with 0 ≤ fr < 1
      let u : Int := if e + tPrec ≥ 0 then (m * 2 ^ (e + tPrec).toNat : Nat) else 0
      let v : Int := if n then -u else u
      let ip : Int := v / tOne
      let fr : Nat := (v % tOne).toNat
      if fr = 0 ∧ u ≠ 0 then fpRound false 1 ip
      else fpRound false (2 * tExp (tMul fr tLn2) + 1) (ip - tPrec - 1)

/-- log2 x (R225). -/
def fpLog2 (x : W32) : W32 :=
  match fpDecode x with
  | .nan => fpNan
  | .inf n => if n then fpNan else fpCode false 0x7F800000
  | .fin n m e =>
    if m = 0 then fpCode true 0x7F800000
    else if n then fpNan
    else
      let l := Nat.log2 m
      let ip : Int := (l : Int) + e
      if m = 2 ^ l then fpRoundInt ip 0
      else
        -- m / 2^l in (1, 2): ln = 2 atanh ((m - 2^l) / (m + 2^l))
        let z := (m - 2 ^ l) * tOne / (m + 2 ^ l)
        let fr := 2 * tAtanhSeries (tMul z z) 110 0 z * tOne / tLn2
        let v : Int := ip * tOne + fr
        fpRound (decide (v < 0)) (2 * v.natAbs + 1) (-(tPrec : Int) - 1)

/-- tanh x (R225). Below 2^-12 the result rounds to x itself, as x - x^3/3 lies within half a unit of x. -/
def fpTanh (x : W32) : W32 :=
  match fpDecode x with
  | .nan => fpNan
  | .inf n => fpCode n 0x3F800000
  | .fin n m e =>
    if m = 0 ∨ (Nat.log2 m : Int) + e < -12 then x
    else if (Nat.log2 m : Int) + e ≥ 5 then fpCode n 0x3F800000
    else
      -- e^(2|x|) = 2^ip * e^t, with 2|x| = ip ln2 + t
      let w := m * 2 ^ (e + 1 + tPrec).toNat
      let ip := w / tLn2
      let t := w % tLn2
      let ex := tExp t * 2 ^ ip
      fpRound n (2 * ((ex - tOne) * tOne / (ex + tOne)) + 1) (-(tPrec : Int) - 1)

/-- VTRANS by its SUB: 0 EXP2, 1 LOG2, 2 RCP, 3 RSQRT, 4 TANH. -/
def fpTrans (sub : Nat) (x : W32) : W32 :=
  match sub with
  | 0 => fpExp2 x
  | 1 => fpLog2 x
  | 2 => fpRcp x
  | 3 => fpRsqrt x
  | _ => fpTanh x

end Sys2Proof.Machine
end

