-- ==== Sys2Proof/Machine/Vector.lean ====
section
/-!
DEFINITION. Sys2Proof/Machine/Vector.lean: the vector engine of one core: class 010 instructions, repeat by repeat, and the
vector-memory instructions of class 011, one slab access a grant (R213 to R236).
-/

namespace Sys2Proof.Machine

/-! ### One repeat of a class 010 instruction -/

/-- Is any data word of the row crazed? -/
def dataCrazed (r : Row) : Bool := decide (r.z.extractLsb' 0 32 ≠ 0#32)

/-- Data words for a register, clean; the side part stays (R230). -/
def cleanData (ws : List W32) : VecVal := { row := rowOfWords ws 0#128 0#36, full := false }

/-- All-ones for true, zero for false (VCMP). -/
def maskWord (b : Bool) : W32 := if b then BitVec.allOnes 32 else 0#32

/-- The lane operation of an arithmetic or logic function (R224, R225). -/
def laneOp (f : VecFn) (sub : Nat) (a b c : W32) : W32 :=
  match f with
  | .vadd => fpAdd a b
  | .vsub => fpSub a b
  | .vmul => fpMul a b
  | .vfma => fpFma a b c
  | .vmax => fpMax a b
  | .vmin => fpMin a b
  | .vcmp => maskWord (fpCmp sub a b)
  | .vsel => if c.getLsbD 31 then a else b
  | .vand => a &&& b
  | .vor => a ||| b
  | .vxor => a ^^^ b
  | .vtrans => fpTrans sub a
  | _ => a

/-- A lane-wise repeat: every source data word must be clean (R223, R231). -/
def laneRepeat (f : VecFn) (sub : Nat) (a b c : Row) : Except FaultCode VecVal :=
  let u := vecUses f
  if dataCrazed a || (u.1 && dataCrazed b) || (u.2.1 && dataCrazed c) then .error .crazedOperand
  else .ok (cleanData ((List.range 32).map fun i => laneOp f sub (rowWord a i) (rowWord b i) (rowWord c i)))

/-- VRED: the reduction goes to lane 0, the other lanes become +0 (R226). -/
def redRepeat (sub : Nat) (a : Row) : Except FaultCode VecVal :=
  if dataCrazed a then .error .crazedOperand
  else .ok (cleanData (pairTree (if sub = 0 then fpAdd else fpMax) 5 (rowWords a) :: List.replicate 31 0#32))

/-- VBCAST: lane `sub` of a and its crazed bit go to all lanes (R231). -/
def bcastRepeat (sub : Nat) (a : Row) : VecVal :=
  { row := rowOfWords (List.replicate 32 (rowWord a sub)) 0#128 (if rowZ a sub then 0xFFFFFFFF#36 else 0#36), full := false }

/-- The bytes of VPERM's source at index i, with the crazed bit of the word each comes from. -/
def permByte (a b : Row) (i : Nat) : Byte × Bool :=
  let r := if i < 128 then a else b
  (rowByte r (i % 128), rowZ r (i % 128 / 4))

/-- VPERM (R227, R230, R231). -/
def permRepeat (nibble : Bool) (a b c c2 : Row) : Except FaultCode VecVal :=
  if dataCrazed c || (nibble && dataCrazed c2) then .error .crazedOperand
  else
    let bytes : List (Byte × Bool) := (List.range 128).map fun i =>
      if nibble then
        let pick := fun (j : Nat) =>
          let idx := (permByte c c2 j).1.toNat
          let s := permByte a a (idx / 2)
          (if idx % 2 = 0 then s.1.toNat % 16 else s.1.toNat / 16, s.2)
        let lo := pick (2 * i)
        let hi := pick (2 * i + 1)
        (BitVec.ofNat 8 (lo.1 + 16 * hi.1), lo.2 || hi.2)
      else permByte a b (permByte c c i).1.toNat
    let word := fun (w : Nat) =>
      let bs := (bytes.drop (4 * w)).take 4
      (BitVec.ofNat 32 (bs.foldr (fun p acc => p.1.toNat + 256 * acc) 0), bs.any (·.2))
    let ws := (List.range 32).map word
    let z := ws.foldr (fun p (acc : Nat) => p.2.toNat + 2 * acc) 0
    .ok { row := { data := (rowOfWords (ws.map (·.1)) 0#128 0#36).data, side := a.side, z := setField a.z 0 32 z },
          full := true }

/-- Source registers per destination row of VQUANT, and blocks per row of VDEQ (R228). -/
def blocksPerRow (t : EType) : Nat := etypeLanes t / 32

/-- The monitors after a quantised block of target t (R60 to R63). -/
def monQuant (m : FmtMon) (t : EType) (q : QBlock) : FmtMon :=
  let i := etypeCode t - 1
  { m with clips := listMod (fun n => sat32 n q.clips) m.clips i,
           maxMags := listMod (fun n => max n q.maxMag) m.maxMags i,
           nanIn := sat32 m.nanIn q.nans }

/-- VQUANT repeat k: its B source rows become one row of type t (R228); `vc` is the core's virtual id and `seed` its job's
(R65 to R67). -/
def quantRepeat (t : EType) (sr : Bool) (seed : W64) (vc icount k : Nat) (srcs : List Row) (mon : FmtMon) :
    Except FaultCode (VecVal × FmtMon) :=
  if srcs.any dataCrazed then .error .crazedOperand
  else
    let qs := srcs.zipIdx.map fun p =>
      quantBlock t (rowWords p.1) fun i => if sr then some (srBits seed vc icount k (32 * p.2 + i)) else none
    let codes := qs.flatMap (·.codes)
    let data := codes.foldr (fun c (acc : BitVec 1024) => (acc <<< etypeBits t) ||| BitVec.ofNat 1024 c) 0#1024
    let side := if t = .bf16 then 0#128
      else qs.foldr (fun q (acc : BitVec 128) => (acc <<< 8) ||| BitVec.ofNat 128 q.scale) 0#128
    .ok ({ row := { data := data, side := side, z := 0#36 }, full := true }, qs.foldl (fun m q => monQuant m t q) mon)

/-- VDEQ: block b of a row of type t to 32 FP32 lanes (R229, R231). -/
def deqRepeat (t : EType) (b : Nat) (a : Row) : Except FaultCode VecVal :=
  let w := etypeBits t
  let bad := (List.range w).any (fun i => rowZ a (b * w + i)) || (decide (t ≠ .bf16) && rowZ a (32 + b / 4))
  if bad then .error .crazedOperand
  else .ok (cleanData ((List.range 32).map fun i => dequant t (elemCode t a.data (32 * b + i)) (scaleByte a.side b)))

/-- Repeat k of a class 010 instruction at cycle k after its start (for VQUANT from cycle B k on): `rd` gives a register's
value in a cycle of the instruction (R223, R227 to R231). The monitors change under VQUANT only. -/
def vecRepeat (op : CoreOp) (seed : W64) (vc icount k : Nat) (rd : Nat → Nat → Row) (mon : FmtMon) :
    Except FaultCode (VecVal × FmtMon) :=
  let keep := fun (r : Except FaultCode VecVal) => r.map fun v => (v, mon)
  match op with
  | .vec f _ va vb vc' _ sa sb sc sub =>
    let a := rd k (va.toNat + k * sa.toNat)
    let b := rd k (vb.toNat + k * sb.toNat)
    let r := rd k (vc'.toNat + k * sc.toNat)
    match f with
    | .vred => keep (redRepeat sub.toNat a)
    | .vmov => .ok ({ row := a, full := true }, mon)
    | .vbcast => .ok (bcastRepeat sub.toNat a, mon)
    | .vperm => keep (permRepeat (decide (sub = 1#5)) a b r (rd k (vc'.toNat + 1)))
    | .vquant =>
      match etypeOfCode (sub.toNat % 16) with
      | some t =>
        let n := blocksPerRow t
        let srcs := (List.range n).map fun j => rd (n * k + j) (va.toNat + k * n * sa.toNat + j)
        quantRepeat t (decide (sub.toNat ≥ 16)) seed vc icount k srcs mon
      | none => .ok (cleanData [], mon)
    | .vdeq =>
      match etypeOfCode sub.toNat with
      | some t =>
        let j := vb.toNat + k
        keep (deqRepeat t (j % blocksPerRow t) (rd k (va.toNat + j / blocksPerRow t)))
      | none => .ok (cleanData [], mon)
    | _ => keep (laneRepeat f sub.toNat a b r)
  | .vsplat _ imm => .ok (cleanData (List.replicate 32 imm), mon)
  | _ => .ok (cleanData [], mon)

/-- L of Table 6.6. -/
def vecLatency : VecFn → Nat
  | .vadd | .vsub | .vmax | .vmin | .vdeq => 3
  | .vmul | .vfma => 4
  | .vtrans => 12
  | .vred | .vquant => 6
  | .vperm => 2
  | _ => 1

/-- The cycle after the start in which repeat k lands its result (R223, R228, R229). -/
def landCycle (op : CoreOp) (k : Nat) : Nat :=
  match op with
  | .vec .vquant _ _ _ _ _ _ _ _ sub =>
    match etypeOfCode (sub.toNat % 16) with
    | some t => blocksPerRow t * (k + 1) + 5
    | none => k
  | .vec f .. => k + vecLatency f
  | _ => k + 1

/-- The destination register of a class 010 instruction; repeat k writes k registers on. -/
def vecDest : CoreOp → Nat
  | .vec _ vd .. => vd.toNat
  | .vsplat vd _ => vd.toNat
  | _ => 0

/-- Repeats of a class 010 instruction (REP + 1; VSPLAT and VPERM have one). -/
def vecCount : CoreOp → Nat
  | .vec _ _ _ _ _ rep _ _ _ _ => rep.toNat + 1
  | _ => 1

/-- A result of a class 010 instruction: the cycle after the start in which it lands, its register and value. -/
structure VecResult where
  cyc : Nat
  reg : Nat
  val : VecVal
deriving DecidableEq, Repr

/-- A register's value in cycle t of an instruction that has those results: the ones that have landed in earlier cycles are
seen, the others not yet (R218, R223). -/
def seenReg (c : Core) (res : List VecResult) (t r : Nat) : Row :=
  (res.filter fun x => decide (x.reg = r % 64) && decide (x.cyc < t)).foldl (fun row x => x.val.onto row) (readReg c (c.cc + t) r)

/-- Run repeats k, k + 1, ... (n of them): the results, the monitors, and the fault that ended the run, if any. The repeat that
faults lands nothing, earlier repeats stand (R223, R232) (assumption 112). -/
def runRepeats (c : Core) (op : CoreOp) (icount : Nat) :
    Nat → Nat → List VecResult → FmtMon → List VecResult × FmtMon × Option FaultCode
  | 0, _, res, mon => (res, mon, none)
  | n + 1, k, res, mon =>
    match vecRepeat op c.seed (coreVcid c.place) icount k (seenReg c res) mon with
    | .ok v =>
      runRepeats c op icount n (k + 1)
        (res ++ [{ cyc := landCycle op k, reg := (vecDest op + k) % 64, val := v.1 }]) v.2
    | .error f => (res, mon, some f)

/-- The results of an instruction land. -/
def landResults (c : Core) (res : List VecResult) : Core :=
  res.foldl (fun c x => vecLands c (c.cc + x.cyc) x.reg x.val.onto) c

/-- Count repeats for the energy estimate (R420). -/
def countVec (c : Core) (n : Nat) : Core := { c with activity := { c.activity with vec := c.activity.vec + n } }

/-- A class 010 instruction runs, all its repeats: it is then started and not complete, or its core has faulted (R218, R223,
R232). -/
def runAlu (st : Started) (c : Core) : Core :=
  let op := st.entry.insn.op
  let r := runRepeats c op st.entry.icount (vecCount op) 0 [] c.mon
  let c1 := countVec (landResults { c with mon := r.2.1 } r.1) (vecCount op)
  match r.2.2 with
  | none => { c1 with started := c1.started ++ [st] }
  | some f => entryFault c1 f st.entry

/-! ### Vector memory -/

/-- The address a_k of repeat k (R233). -/
def memAddr (ra : AReg) (pi : BitVec 2) (k : Nat) : Nat :=
  if pi.getLsbD 0 then (ra.value + BitVec.ofNat 48 k * ra.stride0.signExtend 48).toNat else ra.value.toNat

/-- The access of repeat k of a vector-memory instruction with captured register ra (R233, Table 6.8). -/
def memAccess (op : CoreOp) (ra : AReg) (k : Nat) : MemAcc :=
  match op with
  | .vmem f _ _ pi s _ seg _ cstep =>
    let a := memAddr ra pi k
    match f with
    | .vldr | .vstr => .row a (if s = 1#1 then 4 else 0)
    | .vldc | .vstc => .col a ((seg.toNat + k * cstep.toNat) % 32)
    | .vldn | .vstn => .narrow (a / 32) (a % 32)
  | _ => .row 0 0

/-- The word of its register that repeat k of a narrow instruction moves (Table 6.8). -/
def narrowWord (op : CoreOp) (k : Nat) : Nat :=
  match op with
  | .vmem _ _ _ _ _ _ seg _ _ => (seg.toNat + k) % 32
  | _ => 0

/-- The slab read of a load's repeat k: the words of the register that it brings, with the row that holds them (R235). -/
def accRead (c : Core) (a : MemAcc) (word : Nat) : List Nat × Row × Core :=
  match a with
  | .row r n =>
    let p := readRow c r n
    (rowSegs n, p.1, p.2)
  | .col r s =>
    let p := readCol c r s
    (rowSegs 0, p.1, p.2)
  | .narrow r s =>
    let p := readWord (countSlab c 1) r s
    ([word], rowSetAny Row.zero word p.1.data p.1.crazed, p.2)

/-- The slab write of a store's repeat k from its register's row (R235). -/
def accWrite (c : Core) (a : MemAcc) (word : Nat) (row : Row) : Core :=
  match a with
  | .row r n => writeRow c r row n
  | .col r s => writeCol c r s row
  | .narrow r s => writeWord (countSlab c 1) r s (rowWord row word) (rowZ row word)

/-- The register with the listed words of a read row. -/
def mergeWords (dst src : Row) (segs : List Nat) : Row :=
  segs.foldl (fun r s => rowSetAny r s (rowAny src s) (rowZ src s)) dst

/-- The cycles from a load's grant to the landing of its register (Table 6.9): 6, and for a narrow read 3 in banks 0 to 15
and 5 in banks 16 to 31. -/
def loadLatency : MemAcc → Nat
  | .narrow r s => if slabBank r s < 16 then 3 else 5
  | _ => 6

/-- The spans of rows that repeats k and on of a vector-memory instruction access. -/
def jobSpans (e : QEntry) (k : Nat) : List (Nat × Nat) :=
  ((List.range (opRepeats e.insn.op)).drop k).map fun i => accSpan (memAccess e.insn.op e.ra i)

/-- Do two spans of rows share a row? -/
def spansMeet (a b : List (Nat × Nat)) : Bool :=
  a.any fun x => b.any fun y => decide (x.1 < y.1 + y.2) && decide (y.1 < x.1 + x.2)

/-- Does the other unit's job, started before j, still have an ungranted access to a row that j accesses (R220)? -/
def rowsHeld (j : VecJob) (other : Option VecJob) : Bool :=
  other.any fun o => decide (o.st.entry.icount < j.st.entry.icount) && spansMeet (jobSpans j.st.entry 0) (jobSpans o.st.entry o.k)

/-- Does the load present its next request? DEDUCED (assumption 97): a request that R220 holds back is presented when it may be
granted. -/
def loadAsks (c : Core) : Bool := c.vec.load.any fun j => !rowsHeld j c.vec.store

/-- May the store's next repeat make its request: the last earlier write to its source has landed (R219)? -/
def storeReady (c : Core) : Bool :=
  c.vec.store.any fun j => !vecBlocked c j.st.entry.icount [memReg j.st.entry.insn.op j.k] []

/-- Does the store present its next request (R219, R220)? -/
def storeAsks (c : Core) : Bool := storeReady c && c.vec.store.any fun j => !rowsHeld j c.vec.load

/-- The write requester of a store: drain store with D = 1, vector store otherwise (R233, Table 4.1). -/
def storeRequester : CoreOp → Nat
  | .vmem _ _ _ _ _ d .. => if d = 1#1 then 3 else 2
  | _ => 2

/-- The loaded rows at the front of the list land, as long as no earlier instruction still needs their register (R218). -/
def landLoads : List Landing → Core → Core
  | [], c => { c with vec := { c.vec with landing := [] } }
  | l :: rest, c =>
    if vecBlocked { c with vec := { c.vec with landing := [] } } l.icount [] [l.reg] then
      { c with vec := { c.vec with landing := l :: rest } }
    else landLoads rest (vecLands c (max l.cyc c.cc) l.reg fun old => mergeWords old l.row l.segs)

/-- The class 010 instruction that waits runs when its registers are free (R218). -/
def tryAlu (c : Core) : Core :=
  match c.vec.alu with
  | none => c
  | some st =>
    let op := st.entry.insn.op
    if vecBlocked c st.entry.icount (aluReads op) (aluWrites op) then c
    else runAlu st { c with vec := { c.vec with alu := none } }

/-- The load's next repeat makes its request and is checked (R232, R234). -/
def checkLoad (c : Core) : Core :=
  match c.vec.load with
  | none => c
  | some j =>
    match accFault c (memAccess j.st.entry.insn.op j.st.entry.ra j.k) with
    | none => c
    | some f => entryFault { c with vec := { c.vec with load := none } } f j.st.entry

/-- The store's next repeat makes its request, when its source is there, and is checked; a refused local write counts as late
(R143, R219, R232, R234). -/
def checkStore (c : Core) : Core :=
  match c.vec.store with
  | none => c
  | some j =>
    if storeReady c then
      match accFault c (memAccess j.st.entry.insn.op j.st.entry.ra j.k) with
      | none => c
      | some f =>
        let c1 := { c with vec := { c.vec with store := none } }
        entryFault (if f = .bankOff then lateWrite c1 else c1) f j.st.entry
    else c

/-- What the vector engine does without waiting for a grant: loaded rows land, the waiting instruction runs, requests are
made (R218, R219, R234). -/
def pumpVector (c : Core) : Core :=
  let c1 := tryAlu (landLoads c.vec.landing c)
  checkStore (checkLoad (landLoads c1.vec.landing c1))

/-- The grant of the vector-load requester: repeat k reads the slab, its register lands later (R218, R233, R236). -/
def loadRepeat (c : Core) : Core :=
  match c.vec.load with
  | none => c
  | some j =>
    let e := j.st.entry
    let a := memAccess e.insn.op e.ra j.k
    let r := accRead c a (narrowWord e.insn.op j.k)
    let l : Landing :=
      { icount := e.icount, cyc := c.cc + loadLatency a, reg := memReg e.insn.op j.k, segs := r.1, row := r.2.1 }
    let c1 := countVec r.2.2 1
    let last := decide (j.k + 1 = opRepeats e.insn.op)
    pumpVector { c1 with
      vec := { c1.vec with load := if last then none else some { j with k := j.k + 1 }, landing := c1.vec.landing ++ [l] }
      started := if last then c1.started ++ [j.st] else c1.started }

/-- The grant of the store's requester: repeat k reads its source and writes the slab (R219, R233). -/
def storeRepeat (c : Core) : Core :=
  match c.vec.store with
  | none => c
  | some j =>
    let e := j.st.entry
    let row := readReg c c.cc (memReg e.insn.op j.k)
    let c1 := countVec (accWrite c (memAccess e.insn.op e.ra j.k) (narrowWord e.insn.op j.k) row) 1
    let last := decide (j.k + 1 = opRepeats e.insn.op)
    pumpVector { c1 with
      vec := { c1.vec with store := if last then none else some { j with k := j.k + 1 } }
      started := if last then c1.started ++ [j.st] else c1.started }

/-! ### Starts -/

/-- A vector instruction starts on its unit (R217). -/
def enterUnit (st : Started) (c : Core) : Core :=
  if isLoad st.entry.insn.op then { c with vec := { c.vec with load := some { st := st, k := 0 } } }
  else if isStore st.entry.insn.op then { c with vec := { c.vec with store := some { st := st, k := 0 } } }
  else { c with vec := { c.vec with alu := some st } }

/-- Start the head of the vector queue when it has opcode byte b, its unit is free and its wait slot admits it; otherwise the
core is unchanged. A class 010 instruction whose registers are free runs at once (R155, R217, R218). -/
def startVector (b : BitVec 8) (c : Core) : Core :=
  match takeHead c .vector (fun op => decide (opByte op = b)) with
  | some (st, c1) => pumpVector (enterUnit st c1)
  | none => c

end Sys2Proof.Machine
end

