-- ==== Sys2Proof/Machine/Ports.lean ====
section
/-!
DEFINITION. Sys2Proof/Machine/Ports.lean: the slab ports of one core: which requesters ask, the access of each grant, and the
transitions of the banks (R121 to R124, R136 to R145, R336, Table 4.1).
-/

namespace Sys2Proof.Machine

/-- The numbers at which a list of conditions holds. -/
def trueAt (l : List Bool) : List Nat := (List.range l.length).filter fun i => l.getD i false

/-- The requesters of the read port that have an access to make: weight stream, MLOAD, vector load, transfer-out, halo-out
(Table 4.1). Each holds one request while it has, and raises the next in the grant cycle after its grant (R336). -/
def readWants (c : Core) : List Nat :=
  trueAt [streamWants c, c.matrix.load.any (fun j => decide (j.nread < 32)), loadAsks c, !c.xfer.outs.isEmpty,
    !c.xfer.haloOuts.isEmpty]

/-- The requesters of the write port that have an access to make: transfer-in, halo-in, vector store, drain store (Table 4.1). -/
def writeWants (c : Core) : List Nat :=
  let store := fun (q : Nat) => storeAsks c && c.vec.store.any fun j => decide (storeRequester j.st.entry.insn.op = q)
  trueAt [!c.xfer.ins.isEmpty, !c.xfer.haloIns.isEmpty, store 2, store 3]

/-- The access of a read port's grant (R83, R90, R136, R233, R251 to R253). -/
def readAccess (wasDue : Bool) (q : Option Nat) (c : Core) : Core :=
  match q with
  | some 0 => streamGrant c
  | some 1 => loadGrant c
  | some 2 => loadRepeat c
  | some 3 => outGrant false c
  | some 4 => outGrant true c
  | some 5 => fettleRead c wasDue
  | _ => c

/-- The access of a write port's grant (R139, R233, R252, R253, R257). -/
def writeAccess (site : Nat) (q : Option Nat) (c : Core) : Core :=
  match q with
  | some 0 => inGrant site false c
  | some 1 => inGrant site true c
  | some 2 => storeRepeat c
  | some 3 => storeRepeat c
  | some 4 => fettleWrite c
  | _ => c

/-- A grant cycle of a core's slab read port: one core cycle passes, and the granted access is made. -/
def readGrant (c : Core) : Core :=
  let r := readPortCycle (readWants (pumpVector c)) (pumpVector c)
  pumpVector (readAccess c.slab.due r.2 r.1)

/-- A grant cycle of a core's slab write port. -/
def writeGrant (site : Nat) (c : Core) : Core :=
  let r := writePortCycle (writeWants c) c
  writeAccess site r.2 r.1

/-! ### Bank transitions -/

/-- Bank b of the core no longer closes but is off. -/
def bankOffNow (b : Nat) (c : Core) : Core :=
  { c with slab := { c.slab with closing := setField c.slab.closing b 1 0, off := setField c.slab.off b 1 1 } }

/-- A closing bank closes and powers off when no inbound write waits for it, or when its 2^16 cc are over, each write that still
waits refused and counted (R142, R143). -/
def closeBank (site b : Nat) (c : Core) : Core :=
  if c.slab.closing.getLsbD b then
    if inboundWrites c b = 0 then bankOffNow b c
    else if c.slab.closeCc + 2 ^ 16 ≤ c.cc then refuseBacks b (refuseIns site b true (refuseIns site b false (bankOffNow b c)))
    else c
  else c

/-- A bank's power-up ends, every word of it zero and clean (R145). -/
def riseBank (b : Nat) (c : Core) : Core :=
  if c.slab.rising.getLsbD b then
    let c1 := zeroBanks c (BitVec.ofNat 36 (2 ^ b))
    { c1 with slab := { c1.slab with rising := setField c1.slab.rising b 1 0, off := setField c1.slab.off b 1 0 } }
  else c

end Sys2Proof.Machine
end

