-- ==== Sys2Proof/Machine/ArbCmds.lean ====
section
/-!
DEFINITION. Sys2Proof/Machine/ArbCmds.lean: arbiter grant cycles with the slab accesses and trunk flits they bring, commits of
arbiter sets, fettling, and bank transitions (R115 to R145, R333 to R349).
-/

namespace Sys2Proof.Machine

/-- A flit slot of a trunk transmitter: the VCs that can send ask, the granted one sends its next flit, and with none granted an
IDLE flit goes out (R504 to R506). -/
def trunkGrant (t : TPort) : TPort × List (List Byte) :=
  let asks := (List.range 8).filter (canSend t)
  let r := singleCycle 8 asks t.arb (keepAsking asks t.arbInst)
  let t1 := { t with arb := r.1, arbInst := r.2.1 }
  match r.2.2 with
  | some v => sendFlit t1 v
  | none =>
    if t1.st ≥ 6 then
      let i := sendIdle t1 false
      (i.1, [i.2])
    else (t1, [])

/-! ### The cycle of a field's routers and channel controllers -/

/-- Do the routers of field f run: the clocks are locked and the mesh rail is on (R22, R302)? -/
def meshUp (s : State) (f : Nat) : Bool := s.clock.locked && (getRail s.power f).meshOn

/-- Do the channel controllers of field f run: the clocks are locked and the field rail is on (R27, R400)? -/
def hbmUp (s : State) (f : Nat) : Bool := s.clock.locked && (getRail s.power f).fieldOn

/-- The next state when the unit of a command runs; otherwise nothing happens. -/
def whenUp (up : Bool) (f : State → State) (s : State) : State := if up then f s else s

/-- The packet as its channel controllers take it: of a write that an ABORT closed, the rows that came. -/
def hbmRows (p : Packet) : Packet :=
  match p.typ with
  | .hbmWrite => { p with count := p.rows.length }
  | _ => p

/-- An HBM request has reached the channel controllers of the partition that its first byte lies in: it joins them, or they answer
FENCED while the partition is out or in reset (R355, R356, R565). -/
def arriveHbm (s : State) (a : Arrived) : State :=
  let router := a.place % 4096
  match (hbmTranslate s.hbm a.pkt.job a.pkt.haddr).map addrPart with
  | none => pushEdge (nackPkt router 1 a.pkt) s
  | some k =>
    if partInService s k then
      { s with hbm := queuePacket router (packetRequester s router a.pkt) (hbmRows a.pkt) s.hbm }
    else pushEdge (nackPkt router 1 a.pkt) s

/-- Is this an HBM request at the channel controllers of field f? -/
def atControllers (f : Nat) (a : Arrived) : Bool :=
  decide (4096 ≤ a.place) && decide (a.place < 8192) && decide (routerField a.place = f) &&
  (decide (a.pkt.typ = .hbmWrite) || decide (a.pkt.typ = .hbmRead))

/-- The channel controllers of field f take every HBM request that has reached them. -/
def takeHbm (f : Nat) (s : State) : State :=
  (s.mesh.arrived.filter (atControllers f)).foldl arriveHbm
    { s with mesh := { s.mesh with arrived := s.mesh.arrived.filter fun a => !atControllers f a } }

/-- One cc of the channel controllers of field f: they take what has reached them, and each channel grants (R333, R346, R356). -/
def controllerCycle (f : Nat) (s : State) : State :=
  let s1 := takeHbm f s
  if hbmUp s f then { s1 with hbm := hbmCycle f s1.hbm } else s1

/-- One cc of the routers of field f. -/
def routersCycle (f : Nat) (s : State) : State := atMesh (fieldCycle (fun x p => castMember (getCore s x) p) f) s

/-- One grant cycle of an arbiter, or one cc of a shared set, and the accesses that are granted (R333 to R340). A slab port makes
none while its core has no power, a field's routers and controllers none while their clock or rail is off; the transmitter of a trunk
offers the VCs that can send (R505, R506). -/
def execArbiterGrant (kind : ArbKind) (n : Nat) (s : State) : Out :=
  match kind with
  | .rd => answer (siteOk n) (whenUp (coreLive s n) (atCore n readGrant) s)
  | .wr => answer (siteOk n) (whenUp (coreLive s n) (atCore n (writeGrant n)) s)
  | .router => answer (fieldOk n) (whenUp (meshUp s n) (routersCycle n) s)
  | .hbm => answer (fieldOk n) (whenUp s.clock.locked (controllerCycle n) s)
  | .trunk => onTrunk n trunkGrant s

/-- 1,500 tt have passed since the last fettling read: the request is due and stays raised (R137). -/
def execFettleDue (site : Nat) (s : State) : Out :=
  answer (siteOk site)
    (if coreLive s site then atCore site (fun c => { c with slab := { c.slab with due := true } }) s else s)

/-- f applied to the register set of an arbiter, g to the bank of a shared set. -/
def atSet (arb : ArbId) (f : ArbSet → ArbInst → ArbSet × ArbInst) (g : Bool → ArbBank → ArbBank) (s : State) : Out :=
  match arb with
  | .rd site => onCore site (fun c => { c with arbRd := (f c.arbRd c.rd).1, rd := (f c.arbRd c.rd).2 }) s
  | .wr site => onCore site (fun c => { c with arbWr := (f c.arbWr c.wr).1, wr := (f c.arbWr c.wr).2 }) s
  | .router k => answer (fieldOk k) { s with mesh := { s.mesh with arbs := smMod ArbBank.reset s.mesh.arbs k (g true) } }
  | .hbm k => answer (fieldOk k) { s with hbm := { s.hbm with arbs := smMod ArbBank.reset s.hbm.arbs k (g false) } }
  | .trunk n => onTrunk n (fun t => ({ t with arb := (f t.arb t.arbInst).1, arbInst := (f t.arb t.arbInst).2 }, [])) s

/-- Does no job that runs hold the site: each job placed on it stands at a platform stop, or has no step under way (R348)? -/
def siteAtStop (s : State) (site : Nat) : Bool :=
  s.jobs.all fun j => !(j.table.any fun e => decide (e.site = site)) || !j.dispatched || j.atStop.isSome

/-- May the signal box commit to the set: one of a job's slab arbiters only while the job is at a platform stop (R348)? -/
def commitAllowed (s : State) (arb : ArbId) : Bool :=
  match arb with
  | .rd site | .wr site => siteAtStop s site
  | _ => true

/-- A write of 1 to a set's COMMIT (R344, R345); the signal box makes none to the slab arbiters of a job between its stops (R348). -/
def execArbCommit (arb : ArbId) (s : State) : Out :=
  if arbOk arb && !commitAllowed s arb then answer true s
  else atSet arb (fun a i => (armCommit a, i)) (fun _ b => { b with set_ := armCommit b.set_ }) s

/-- The wrap of an arbiter with an armed commit takes the shadow state (R344, R346). -/
def execArbCommitTake (arb : ArbId) (s : State) : Out := atSet arb takeSingle takeBank s

/-- A bank closes (R142, R143). -/
def execBankClose (site bank : Nat) (s : State) : Out := answer (instrOk (.bankClose site bank)) (atCore site (closeBank site bank) s)

/-- A bank's power-up ends (R145). -/
def execBankPowerUpDone (site bank : Nat) (s : State) : Out :=
  answer (instrOk (.bankPowerUpDone site bank)) (atCore site (riseBank bank) s)

end Sys2Proof.Machine
end

