-- ==== Sys2Proof/Machine/Flags.lean ====
section
/-!
DEFINITION. Sys2Proof/Machine/Flags.lean: the status bits and words that follow from the rest of the state: alerts, pins, the
module's outside appearance, holds of the yard, engine status (R427, R490, R591, R603, R613, R620).
-/

namespace Sys2Proof.Machine

/-- Bits given as (position, value), added up. -/
def packBits (l : List (Nat × Nat)) : Nat := l.foldl (fun n p => n + p.2 * 2 ^ p.1) 0

/-- A truth value as a bit. -/
def bit (b : Bool) : Nat := b.toNat

/-- GLOBAL.ALERT (R620). -/
def alertReg (s : State) : Nat :=
  packBits [(6, bit s.boot.noBox), (5, bit s.tripped), (4, bit (decide (s.boot.phase = 9))), (3, bit s.box.lockValid),
            (2, bit s.meter.nearFull), (1, bit s.power.pm.reconFault), (0, bit s.clock.lost)]

/-- ALERT_N is asserted while any bit of GLOBAL.ALERT is set (Table 21.2), on a standby plane that is up. -/
def alertAsserted (s : State) : Bool := s.boot.standby && decide (alertReg s ≠ 0)

/-- GLOBAL.PINS (R620). -/
def pinsReg (s : State) : Nat :=
  packBits ([(63, bit s.jtag.locked), (56, s.boot.smbAddr), (19, bit (getHost s 1).perst), (18, bit (getHost s 0).perst),
             (17, bit s.power.feeds.bGood), (16, bit s.power.feeds.aGood)] ++
            (List.range 12).map fun n => (n, bit (getTrunk s n).rawPresent))

/-- What a trunk lane shows (Table 20.6). -/
inductive LanesShown where
  | idle | training
deriving DecidableEq, Repr

/-- The level of an open-drain output. -/
inductive Level where
  | highZ | released | asserted
deriving DecidableEq, Repr

/-- The module as seen from outside (R591, Table 20.6). MOD_PRESENT_N is a strap and always low. -/
structure Appearance where
  lanes : LanesShown
  pcieLink : Bool
  thermtrip : Level
  smbus : Bool
  alert : Level
deriving DecidableEq, Repr

/-- Table 20.6 for a state of the module. -/
def appearance (s : State) : Appearance :=
  let alert := if alertAsserted s then Level.asserted else .released
  let link := portPresent (getHost s 0) || portPresent (getHost s 1)
  if !s.boot.standby then { lanes := .idle, pcieLink := false, thermtrip := .highZ, smbus := false, alert := .highZ }
  else if s.tripped then
    { lanes := .idle, pcieLink := false, thermtrip := .asserted, smbus := s.boot.box2, alert := .asserted }
  else if s.boot.phase ≤ 1 then
    { lanes := .idle, pcieLink := false, thermtrip := .highZ, smbus := s.boot.box2, alert := alert }
  else if s.boot.phase = 8 then { lanes := .training, pcieLink := link, thermtrip := .released, smbus := true, alert := alert }
  else { lanes := .idle, pcieLink := link, thermtrip := .released, smbus := true, alert := alert }

/-- May the yard dispatch: no cap hold and no sign hold (R427, R490)? -/
def mayDispatch (s : State) : Bool := isReady s.boot && !s.power.pm.hold && !s.meter.signHold

/-- The largest FREQ_SET divider in force (R429). -/
def jobDivider (s : State) : Nat := s.jobs.foldl (fun m j => if j.ended then m else max m j.freqDiv) 0

/-- The BUSY bits of CORE.VEC_STATUS: ALU, load and store unit (R217). -/
def vecBusy (c : Core) : Nat := packBits [(2, bit c.vec.alu.isSome), (1, bit c.vec.load.isSome), (0, bit c.vec.store.isSome)]

/-- CORE.MX_STATUS. -/
def mxStatus (c : Core) : Nat :=
  packBits ([(5, bit c.matrix.injected), (4, bit c.matrix.load.isSome), (3, bit (!streamIdle c)), (2, bit c.matrix.back.valid),
             (1, bit c.matrix.front.valid)] ++
            (List.range 16).map fun t => (16 + t, bit (decide (c.matrix.live &&& tileLive (BitVec.ofNat 16 (2 ^ t)) ≠ 0#1024))))

end Sys2Proof.Machine
end

