-- ==== Sys2Proof/Machine/RegRead.lean ====
section
/-!
DEFINITION. Sys2Proof/Machine/RegRead.lean: the value a read of every register gives, and the address map of the registers
and per-core windows (R621 to R624). Words are 64 bits, at offsets that are multiples of 8; two 32-bit registers share one.
-/

namespace Sys2Proof.Machine

/-- The word of a table of (offset, word) at offset o; 0 where no register stands (R622). -/
def tableAt (o : Nat) (l : List (Nat × Nat)) : Nat :=
  match l.find? fun p => decide (p.1 = o) with
  | some p => p.2
  | none => 0

/-- Two 32-bit registers in one word. -/
def pair32 (lo hi : Nat) : Nat := lo + hi * 2 ^ 32

/-- Word i of n bytes, least significant byte first. -/
def byteWord (l : List Byte) (i : Nat) : Nat := ofBytesLE ((l.drop (8 * i)).take 8)

/-! ### The core register area (Table 22.3) -/

/-- The code of a core state (Table 5.3). -/
def stateCode : CoreSt → Nat
  | .idle => 0 | .running => 1 | .stopping => 2 | .arrived => 3 | .halted => 4 | .faulted => 5

/-- CORE.FAULT. -/
def faultReg (st : Stream) : Nat :=
  match st.fault with
  | some f => packBits [(31, 1), (30, bit st.more), (27, engineCode f.engine), (8, f.pc % 8192), (0, faultNum f.code)]
  | none => packBits [(30, bit st.more)]

/-- CORE.LOOP_k. -/
def loopReg (st : Stream) (k : Nat) : Nat :=
  match st.loops.reverse[k]? with
  | some l => packBits [(63, 1), (45, l.start % 8192), (32, l.stop % 8192), (0, l.remain % 2 ^ 32)]
  | none => 0

/-- A word of CORE.SLOT_n. -/
def slotWord (x : Slot) (hi : Bool) : Nat :=
  if hi then packBits [(56, bit x.remote), (50, x.px0), (44, x.py0), (38, x.pw), (32, x.ph), (24, min 255 x.posted),
                       (16, min 255 x.admitted), (8, min 255 x.released), (2, x.pcount - 1)] + (x.ccount - 1) / 16
  else packBits [(60, (x.ccount - 1) % 16), (48, bit x.full), (15, x.rows), (0, x.base)]

/-- The word at offset o of the core register area, o counted from 0x38_0000 (assumption 116). -/
def coreWord (c : Core) (o : Nat) : Nat :=
  let st := c.stream
  if o < 0x100 then
    tableAt o [
      (0x00, pair32 (packBits [(29, stateCode st.state), (26, st.loops.length), (0, st.pc % 8192)]) 0),
      (0x08, faultReg st),
      (0x10, match st.fault with
        | some f => f.icount % 2 ^ 48
        | none => 0),
      (0x18, st.stopCount % 2 ^ 32),
      (0x20, packBits [(62, bit st.haltEn), (61, bit st.entryEn), (32, st.entry % 8192), (0, st.haltAt % 2 ^ 32)]),
      (0x28, pair32 (bit st.switchReq) (packBits [(31, bit st.bankB), (30, bit st.switchReq), (0, st.imemRefused)])),
      (0x30, packBits [(16, c.sync.overposts), (0, c.sync.creditDrops)]),
      (0x38, packBits [(27, c.qsync.length), (18, c.qxfer.length), (9, c.qmat.length), (0, c.queue.length)]),
      (0x40, pair32 c.sync.creditsSent c.sync.creditsReceived)]
  else if o < 0x120 then loopReg st ((o - 0x100) / 8)
  else if o < 0x300 then
    let clip := fun (i : Nat) => c.mon.clips.getD i 0
    let mag := fun (i : Nat) => c.mon.maxMags.getD i 0
    tableAt o [
      (0x200, pair32 (clip 0) (clip 1)), (0x208, pair32 (clip 2) (clip 3)), (0x210, pair32 (clip 4) (clip 5)),
      (0x220, pair32 (mag 0) (mag 1)), (0x228, pair32 (mag 2) (mag 3)), (0x230, pair32 (mag 4) (mag 5)),
      (0x240, pair32 c.mon.nanIn c.mon.specialIn), (0x248, c.mon.badCode), (0x250, c.seed.toNat), (0x258, st.icount % 2 ^ 48)]
  else if o < 0x400 then
    let m := modeCodes c
    tableAt o [
      (0x300, pair32 (packBits [(4, m.2), (0, m.1)]) (mxStatus c)),
      (0x308, pair32 (packBits [(16, c.matrix.back.rowMask.toNat), (0, c.matrix.front.rowMask.toNat)])
                     (packBits [(16, c.matrix.back.k), (0, c.matrix.front.k)])),
      (0x310, pair32 c.matrix.witnessEvents c.matrix.dupChecks)]
  else if o < 0x500 then
    let sl := c.slab
    tableAt o [
      (0x400, pair32 sl.ce sl.ue),
      (0x408, pair32 sl.lastErr.toNat (packBits [(15, sl.passes), (0, sl.pointer)])),
      (0x410, pair32 sl.dueCount sl.lateWrites),
      (0x418, match sl.spare with
        | some b => packBits [(31, 1), (0, b)]
        | none => 0),
      (0x420, sl.pwrEff.toNat), (0x428, packBits [(63, bit (banksBusy c)), (0, sl.off.toNat)]),
      (0x430, pair32 (packBits [(31, bit sl.winEn), (0, sl.winBase)])
                     (packBits [(24, sl.winVx0), (16, sl.winVy0), (8, sl.winWd), (0, sl.winHt)])),
      (0x438, sl.winPages)]
  else if o < 0x800 then
    let p := c.place
    tableAt o [
      (0x500, packBits [(16, c.vec.clashes)] + vecBusy c),
      (0x510, packBits [(48, st.markTag.toNat), (0, st.markIcount % 2 ^ 48)]),
      (0x600, packBits [(21, c.sync.credits.length), (16, c.xfer.jobs.length), (0, c.xfer.refused)]),
      (0x608, packBits [(18, c.sync.bx0), (12, c.sync.by0), (6, c.sync.bw), (0, c.sync.bh)]),
      (0x610, packBits [(31, bit c.sync.waiting.isSome), (16, c.sync.tallies.length), (0, c.sync.barrierDrops)]),
      (0x700, packBits [(59, p.job), (32, p.site), (12, p.rank), (6, p.vy), (0, p.vx)]),
      (0x708, packBits [(28, p.bucket), (0, p.steps)]), (0x710, p.arenaBase), (0x718, pair32 p.inLim p.inMax),
      (0x720, pair32 p.outLim p.outMax), (0x730, c.stepCc % 2 ^ 48), (0x740, c.lockDrain.toNat), (0x748, c.lockStore.toNat)]
  else if o < 0xA00 then
    let a := getA c ((o - 0x800) / 16)
    if o % 16 = 0 then a.value.toNat else pair32 a.stride0.toNat a.stride1.toNat
  else if o < 0xA40 then setRead c.arbRd c.rd.ptr (o - 0xA00)
  else if o < 0xA80 then setRead c.arbWr c.wr.ptr (o - 0xA40)
  else if o < 0x1000 then 0
  else if o < 0x2000 then slotWord (getSlot c ((o - 0x1000) / 16)) (decide (o % 16 = 8))
  else if o < 0x4000 then getField (getV c ((o - 0x2000) / 128)).data (64 * ((o - 0x2000) % 128 / 8)) 64
  else if o < 0x4400 then getField (getV c ((o - 0x4000) / 16)).side (64 * ((o - 0x4000) % 16 / 8)) 64
  else if o < 0x4600 then (getV c ((o - 0x4400) / 8)).z.toNat
  else 0

/-- The bits of a data word that a window read shows: corrected, or as stored when uncorrectable or crazed; 0 in a bank that is
off (R623). -/
def windowBits (c : Core) (r seg : Nat) : Nat :=
  if c.slab.off.getLsbD (slabBank r seg) then 0
  else
    let w := getWord c r seg
    let d := secDecode w
    if d.ce then d.data.toNat else getField w 0 32

/-- The 32-bit word at offset o of a per-core window (Table 22.2). -/
def windowWord (c : Core) (o : Nat) : Nat :=
  if o < 0x300000 then windowBits c (o / 128) (o % 128 / 4)
  else if o < 0x360000 then
    let q := o - 0x300000
    windowBits c (q / 16) (32 + q % 16 / 4)
  else if o < 0x380000 then
    let q := o - 0x360000
    let m := if q < 0x10000 then c.stream.imemA else c.stream.imemB
    getField (smGet imemEmpty m (q % 0x10000 / 8)) (8 * (q % 8)) 32
  else
    let q := o - 0x380000
    coreWord c (q / 8 * 8) / 2 ^ (8 * (q % 8)) % 2 ^ 32

/-- Does a window read as 0: its cluster is dark, or its partition is in reset (R623)? -/
def windowDark (s : State) (site : Nat) : Bool :=
  decide ((getCluster s (siteCluster site)).state ≥ 3) || s.box.resets.any fun r => r.begun && decide (r.part = siteField site)

/-! ### The control register space (Tables 22.6 and 22.7) -/

/-- GLOBAL. -/
def globalWord (s : State) (o : Nat) : Nat :=
  let b := s.boot
  tableAt o [
    (0x00, bootReg b), (0x08, packBits [(60, b.aResult), (56, b.bResult), (0, b.version)]),
    (0x10, packBits [(48, b.ignored), (32, b.coalesced), (31, bit b.held), (0, b.resets)]),
    (0x18, alertReg s), (0x20, pinsReg s)]

/-- SIGNAL.JOB_REC_j. -/
def jobRecReg (s : State) (j : Nat) : Nat :=
  match s.jobs.find? fun x => decide (x.id = j) with
  | some x => packBits [(61, x.st), (60, bit x.auto), (59, bit x.suspect), (48, x.recoveries), (40, x.lastCode), (0, x.lastVcid)]
  | none => 0

/-- SIGNAL.LOCK_STATUS. -/
def lockStatusReg (s : State) : Nat :=
  match s.jobs.find? fun x => x.pair.isSome with
  | some x =>
    match x.pair with
    | some p => packBits [(63, 1), (62, bit p.primary), (58, p.port), (53, x.id), (0, s.box.matched)]
    | none => s.box.matched
  | none => s.box.matched

/-- SIGNAL. -/
def signalWord (s : State) (o : Nat) : Nat :=
  let x := s.box
  if 0x4100 ≤ o ∧ o < 0x4140 then (smGet 0#64 x.spares ((o - 0x4100) / 8)).toNat
  else if 0x4500 ≤ o ∧ o < 0x4600 then jobRecReg s ((o - 0x4500) / 8)
  else tableAt o [
    (0x4000, pair32 x.shapeOver x.empties),
    (0x4200, packBits [(48, x.saves), (32, x.resumes), (16, x.rejected), (0, x.orphans)]), (0x4300, lockStatusReg s),
    (0x4308, packBits [(63, bit x.lockValid), (32, x.lockStep % 2 ^ 28), (18, x.lockStop % 2 ^ 14), (0, x.lockVcid % 2 ^ 18)]),
    (0x4400, x.heartbeat)]

/-- CLOCK. -/
def clockWord (s : State) (o : Nat) : Nat :=
  let k := s.clock
  if 0x100 ≤ o ∧ o < 0x140 then
    let f := getFieldClk k ((o - 0x100) / 8)
    packBits [(63, bit (decide (f.depth > 0))), (61, f.depth), (0, f.periods)]
  else tableAt o [
    (0x00, packBits [(31, bit k.locked), (30, bit k.selB), (29, bit k.lost)]), (0x08, k.time),
    (0x10, packBits [(8, k.fastest), (0, k.div)]), (0x18, k.target), (0x20, k.tick),
    (0x28, packBits [(31, bit k.pending.isSome), (30, bit k.deferred), (16, k.refused), (8, k.cancelled), (0, k.applied)]),
    (0x30, packBits [(63, bit k.aligned), (62, bit k.master), (0, k.offsetPs.toNat)])]

/-- A word of POWER.CLUSTER_c. -/
def clusterReg (s : State) (c : Nat) (hi : Bool) : Nat :=
  let k := getCluster s c
  if hi then
    packBits [(61, k.state), (57, k.sliceOk.toNat), (55, k.crackEvents), (54, bit k.atMax), (32, k.sliceFails), (16, k.shorts),
              (0, k.sensorExcluded)]
  else packBits [(58, boostNow k (fieldCc s.mesh (clusterField c)) (fieldRc s (clusterField c))), (38, k.vout), (28, min 1023 k.vmin), (0, k.target)]

/-- POWER. -/
def powerWord (s : State) (o : Nat) : Nat :=
  let f := s.power.feeds
  let p := s.power.pm
  if 0x100 ≤ o ∧ o < 0x140 then
    let r := getRail s.power ((o - 0x100) / 8)
    packBits [(63, bit r.fieldOn), (62, bit r.meshOn), (32, r.fieldPh.toNat), (24, r.meshPh.toNat), (0, r.fails)]
  else if 0x1000 ≤ o ∧ o < 0x3800 then clusterReg s ((o - 0x1000) / 16) (decide (o % 16 = 8))
  else if 0x5000 ≤ o ∧ o < 0x6400 then
    let k := getCluster s ((o - 0x5000) / 8)
    packBits [(58, k.level), (0, k.p10mw)]
  else tableAt o [
    (0x00, packBits [(31, bit f.onB), (30, bit f.aGood), (29, bit f.bGood), (28, bit f.lastGasp), (12, f.aMv10), (0, f.bMv10)]),
    (0x08, f.bLimit), (0x10, packBits [(48, f.toB), (32, f.toA), (16, f.blocked), (0, f.off)]),
    (0x4000, packBits [(48, p.fastPct), (37, bit p.pin), (32, p.pinDiv), (0, p.hostCap)]),
    (0x4008, packBits [(48, p.capW), (43, p.capDiv), (38, p.thermDiv), (33, jobDivider s), (32, bit p.hold), (16, p.a10), (0, p.a1)]),
    (0x4010, packBits [(48, p.raises), (32, p.lowers), (16, p.capHolds), (0, p.over120)]),
    (0x4018, packBits [(63, bit p.reconFault), (32, p.k), (0, p.reconCount)]),
    (0x4020, packBits [(48, p.wXfer), (32, p.wVec), (16, p.wSlab), (0, p.wCol)])]

/-- THERMAL. -/
def thermalWord (s : State) (o : Nat) : Nat :=
  let t := s.power.therm
  if 0x1000 ≤ o ∧ o < 0x2400 then
    let k := getCluster s ((o - 0x1000) / 8)
    packBits [(61, k.thermState), (24, min 0xFFFF (coolMs (timeNow s) k)), (16, k.temp), (0, k.sheds)]
  else tableAt o [
    (0x00, 0x6461695F),
    (0x08, packBits [(31, bit s.tripped), (30, bit (decide (s.power.pm.thermDiv ≠ 0))), (20, t.hotCluster), (12, t.maxC)]),
    (0x10, packBits [(48, t.throttles), (32, t.sheds), (16, t.extensions), (0, t.stackLimits)])]

/-- The signal box reads a word of a window record: copy A of its slot, copy B while copy A's partition is in reset (R492, R494). -/
def readLedgerWin (s : State) (o : Nat) : List (Byte × Bool) × State :=
  let a := ledgerAddrs (s.meter.wbase + o / 256)
  let base := if partInService s (addrPart a.1) then a.1 else a.2
  unitReadDev (boxUnit s) (base + o % 256) 8 s

/-- The value of that word. -/
def ledgerWinWord (s : State) (o : Nat) : Nat := ofBytesLE ((readLedgerWin s o).1.map (·.1))

/-- METER. -/
def meterWord (s : State) (o : Nat) : Nat :=
  let m := s.meter
  if 0x100 ≤ o ∧ o < 0x160 then ofBytesBE ((m.idPub.drop (o - 0x100)).take 8)
  else if 0x1000 ≤ o ∧ o < 0x2000 then byteWord m.cert ((o - 0x1000) / 8)
  else if 0x80000 ≤ o ∧ o < 0x100000 then ledgerWinWord s (o - 0x80000)
  else tableAt o [
    (0x00, packBits [(32, m.hUj), (0, m.attrPpm)]), (0x08, packBits [(31, bit m.nearFull), (30, bit m.signHold)]),
    (0x10, pair32 m.devPpm m.mUj), (0x18, m.totalUj), (0x20, packBits [(40, m.epoch), (0, m.reserved)]),
    (0x28, packBits [(40, m.epoch), (0, m.written)]), (0x30, m.readIdx), (0x38, m.wbase), (0x40, pair32 m.signHolds m.overwritten)]

/-- QUEUE. -/
def queueWord (s : State) (o : Nat) : Nat :=
  tableAt o [(0x20, pair32 s.queues.waiting.length (cachedCount s.queues)), (0x28, pair32 s.queues.refused s.queues.dropped)]

/-- A word of HOSTn.CRING_r. -/
def ringWord (g : Ring) (i : Nat) : Nat :=
  match i with
  | 0 => packBits [(63, bit g.en), (54, g.log2n), (43, g.vector), (16, g.coalUs), (0, g.coalN)]
  | 1 => pair32 g.held.length g.dropped
  | 2 => packBits [(32, g.head), (31, bit g.phase), (0, g.tail)]
  | _ => g.base / 4096 * 4096

/-- HOSTn. -/
def hostWord (s : State) (n o : Nat) : Nat :=
  let h := getHost s n
  if 0x10000 ≤ o ∧ o < 0x12000 then ringWord (getRing h ((o - 0x10000) / 32)) (o % 32 / 8)
  else if 0x20000 ≤ o ∧ o < 0x20400 then
    let g := getCq h ((o - 0x20000) / 16)
    if o % 16 = 0 then packBits [(63, bit g.en), (54, g.log2n), (46, g.cring), (0, g.head)] else g.base
  else if 0x40000 ≤ o ∧ o < 0x48000 then
    let e := smGet MsixEnt.reset h.msix ((o - 0x40000) / 16)
    if o % 16 = 0 then e.addr else pair32 e.data (bit e.mask)
  else if 0x48000 ≤ o ∧ o < 0x48100 then
    packBits ((List.range 64).map fun i => (i, bit (smGet false h.pending ((o - 0x48000) * 8 + i))))
  else tableAt o [
    (0x00, packBits [(31, bit (portPresent h)), (29, h.rate), (24, h.width), (23, bit h.flit), (0, h.gone)]), (0x10, h.qsel),
    (0x18, readQdesc s.queues h.qsel)]

/-- Half k of a module id: bits [127:64] or [63:0], byte 0 most significant. -/
def idHalf (id : List Byte) (k : Nat) : Nat := ofBytesBE ((id.drop (8 * k)).take 8)

/-- TRUNKn. -/
def trunkWord (s : State) (n o : Nat) : Nat :=
  let t := getTrunk s n
  if 0xF000 ≤ o ∧ o < 0xF040 then setRead t.arb t.arbInst.ptr (o - 0xF000)
  else
    let nb := match t.neigh with
      | some g => (idHalf g.moduleId 0, idHalf g.moduleId 1,
          packBits [(31, 1), (27, g.port % 16), (25, g.grade % 4), (21, g.width % 16), (16, min 31 g.dist)])
      | none => (0, 0, 0)
    let own := fun (k : Nat) => if s.clock.locked then idHalf s.fuses.moduleId k else 0
    tableAt o [
      (0x00, packBits [(60, t.st), (59, bit t.retraining), (58, bit t.quarantined), (54, t.width), (53, bit t.spareUsed),
                       (52, bit t.parent), (32, t.rttNs)]),
      (0x08, packBits [(1, bit t.width4), (0, bit t.disable)]),
      (0x10, packBits [(16, t.lanesFailed.toNat), (0, (lanesInUse t).toNat)]), (0x18, pair32 t.fecUnc t.fecCorr),
      (0x20, packBits [(32, t.replays), (16, t.crcFail), (0, t.drops)]),
      (0x28, packBits [(48, t.retrains), (32, t.swaps), (16, t.degrades), (0, t.leaves)]),
      (0x40, own 0), (0x48, own 1), (0x50, nb.1), (0x58, nb.2.1), (0x60, nb.2.2),
      (0x68, packBits [(63, bit t.present), (48, if t.backoffMs ≥ 1000 then 1023 else t.backoffMs), (32, t.changes),
                       (16, t.quarantines), (0, t.trainFails)])]

/-- MESH_BYPASS_r of field f: 0 until bisque firing has loaded it and started the clocks (R332). -/
def bypassRow (s : State) (f r : Nat) : Nat :=
  if !s.clock.locked then 0
  else packBits ((List.range 16).map fun c => (c, bit (getPort s.mesh (fieldSite f c r)).bypass))

/-- FIELDf. -/
def fieldWord (s : State) (f o : Nat) : Nat :=
  let m := getFieldMesh s.mesh f
  if 0x100 ≤ o ∧ o < 0x150 then pair32 (bypassRow s f ((o - 0x100) / 4)) (bypassRow s f ((o - 0x100) / 4 + 1))
  else if 0x10000 ≤ o ∧ o < 0x11400 then
    let n := (o - 0x10000) / 4
    let key := fun (n : Nat) => fieldSite f (n / 4 % 16) (n / 64) * 4 + n % 4
    pair32 (smGet 0#32 s.mesh.repairs (key n)).toNat (smGet 0#32 s.mesh.repairs (key (n + 1))).toNat
  else if 0x20000 ≤ o ∧ o < 0x20A00 then
    let n := (o - 0x20000) / 8
    let p := getPort s.mesh (fieldSite f (n % 16) (n / 16))
    packBits [(63, bit p.bypass), (62, bit p.closed), (59, p.reason), (16, p.linkErr), (0, p.drops)]
  else if 0x30000 ≤ o ∧ o < 0x30040 then
    let b := smGet ArbBank.reset s.mesh.arbs f
    setRead b.set_ b.ptr (o - 0x30000)
  else if 0x30040 ≤ o ∧ o < 0x30080 then
    let b := smGet ArbBank.reset s.hbm.arbs f
    setRead b.set_ b.ptr (o - 0x30040)
  else if 0x40100 ≤ o ∧ o < 0x40500 then
    let c := smGet Chan.reset s.hbm.chans (f * 64 + (o - 0x40100) / 16)
    if o % 16 = 8 then pair32 c.ue c.ce else packBits [(32, c.stackCe), (16, c.stackUe), (0, c.rmw)]
  else
    let stack := fun (i : Nat) =>
      let k := getStack s.hbm (2 * f + i)
      packBits [(61, k.state), (40, k.trainTemp), (32, k.temp), (16, k.retrains), (0, k.lastStall)]
    tableAt o [
      (0x00, m.route.toNat), (0x200, pair32 m.linkErr m.headerDrop), (0x208, pair32 m.noroute m.mcastDrop),
      (0x210, pair32 m.mcastSplit m.fencedDrop), (0x40000, s.hbm.rate), (0x40010, stack 0), (0x40018, stack 1),
      (0x50000, pair32 (smGet 0 s.mesh.recentres f) (smGet 0 s.mesh.holdCc f))]

/-- PAGEMAP. -/
def pagemapWord (s : State) (o : Nat) : Nat :=
  if o < 0x180000 then (pageEntry s.hbm (o / 8)).toNat
  else if 0x200000 ≤ o ∧ o < 0x200100 then (smGet 0#64 s.hbm.runs ((o - 0x200000) / 8)).toNat
  else if o = 0x200100 then s.hbm.violations
  else 0

/-- ERRLOG. -/
def errlogWord (s : State) (o : Nat) : Nat :=
  let l := s.errlog
  if 0x10000 ≤ o ∧ o < 0x20000 then byteWord (smGet [] l.win ((o - 0x10000) / 64)) (o % 64 / 8)
  else tableAt o [
    (0x00, packBits [(32, l.watchdogMs), (31, bit l.en1), (16, l.vec1), (15, bit l.en0), (0, l.vec0)]),
    (0x08, packBits [(32, l.nextSeq), (16, l.dumps), (0, min 65535 l.unsaved.length)]),
    (0x10, packBits [(48, l.recoveries), (32, l.partResets), (16, l.quarantines), (0, l.poisonedIn)])]

/-- HISTORY: the records that it shows are those loaded from flash at bisque firing (R571, R580). -/
def historyWord (s : State) (o : Nat) : Nat :=
  let h := if historyLoaded s.boot then s.history else { History.reset with time := s.history.time, query := s.history.query }
  tableAt o [
    (0x00, h.time), (0x08, packBits [(63, bit h.overflow), (16, min 65535 h.permanent.length), (0, h.records.length)]),
    (0x10, h.query), (0x18, historyResult h)]

/-- The 64-bit word at offset o of the control register space, o a multiple of 8 (Table 22.1). -/
def controlWord (s : State) (o : Nat) : Nat :=
  let m := o % 0x100000
  if o < 0x100000 then globalWord s m
  else if o < 0x200000 then signalWord s m
  else if o < 0x300000 then clockWord s m
  else if o < 0x400000 then powerWord s m
  else if o < 0x500000 then thermalWord s m
  else if o < 0x600000 then meterWord s m
  else if o < 0x700000 then queueWord s m
  else if o < 0x780000 then hostWord s 0 m
  else if o < 0x800000 then hostWord s 1 (m - 0x80000)
  else if o < 0x900000 then (if m < 0xC0000 then trunkWord s (m / 0x10000) (m % 0x10000) else 0)
  else if o < 0x1000000 then 0
  else if o < 0x9000000 then fieldWord s ((o - 0x1000000) / 0x1000000) (o % 0x1000000)
  else if o < 0xA000000 then pagemapWord s (o - 0x9000000)
  else if o < 0xB000000 then errlogWord s (o - 0xA000000)
  else if o < 0xC000000 then historyWord s (o - 0xB000000)
  else 0

/-- The 64-bit word at a device physical address of the control space or a per-core window; none elsewhere (R621). -/
def deviceWord (s : State) (a : Nat) : Option Nat :=
  if 0x10000000000 ≤ a ∧ a < 0x10280000000 then
    let site := (a - 0x10000000000) / 0x400000
    let o := a % 0x400000
    some (if windowDark s site then 0 else
      windowWord (getCore s site) o + windowWord (getCore s site) (o + 4) * 2 ^ 32)
  else if 0x20000000000 ≤ a ∧ a < 0x2000C000000 then
    some (controlWord s (a - 0x20000000000))
  else none

/-- A read of 4 or 8 bytes at a device physical address: 0 for any other width or an unaligned address (R624). -/
def deviceRead (s : State) (a width : Nat) : Nat :=
  if (width = 4 ∨ width = 8) ∧ a % width = 0 then
    match deviceWord s (a / 8 * 8) with
    | some w => if width = 8 then w % 2 ^ 64 else w / 2 ^ (8 * (a % 8)) % 2 ^ 32
    | none => 0
  else 0

/-- The device physical address that a BAR0 offset maps, and none for an offset that Table 15.2 does not list (R443). -/
def bar0Addr (port o : Nat) : Option Nat :=
  if o < 0x100000 then some (0x20000000000 + o)
  else if o < 0x200000 then some (0x20000600000 + (o - 0x100000))
  else if o < 0x300000 then some (0x20000500000 + (o - 0x200000))
  else if o < 0x380000 then some (0x20000700000 + port * 0x80000 + (o - 0x300000))
  else none

/-- What a host reads through port's BAR0: unlisted offsets are 0; before READY, GLOBAL alone is served (R443, R597). The table has no row
for a host's read: this is its value. -/
def bar0Read (s : State) (port o width : Nat) : Nat :=
  match bar0Addr port o with
  | some a => if isReady s.boot || decide (o < 0x100000) then deviceRead s a width else 0
  | none => 0

/-- What a read at a device physical address does beside giving its value: one in the ledger window reads HBM, which counts what it
corrects (R359, R494). -/
def readTouch (a : Nat) (s : State) : State :=
  let o := a - 0x20000580000
  if 0x20000580000 ≤ a ∧ a < 0x20000600000 then (readLedgerWin s (o / 8 * 8)).2 else s

end Sys2Proof.Machine
end

