-- ==== Sys2Proof/Machine/Saves.lean ====
section
/-!
DEFINITION. Sys2Proof/Machine/Saves.lean: what a save keeps of a core and how it comes back, the bytes of saves and crash
dumps, and the checks of a RESUME (R531 to R538, R575, R631, R633).
-/

namespace Sys2Proof.Machine

/-! ### A core's part of a save -/

/-- The core with its slab read once for a save: every word that holds anything is decoded and counted (R129, R133, R532). -/
def readForSave (c : Core) : Core :=
  c.slab.words.foldl (fun c w =>
    if c.slab.off.getLsbD (slabBank (w.1 / 36) (w.1 % 36)) then c else (readWord c (w.1 / 36) (w.1 % 36)).2) c

/-- Its slab as a save holds it: corrected, crazed words with data 0, a bank that is off as zero (R532). -/
def savedSlab (c : Core) : SMap SlabWord :=
  smMap 0#40 (fun k w =>
    if c.slab.off.getLsbD (slabBank (k / 36) (k % 36)) then 0#40
    else
      let d := secDecode w
      if d.crazed then secEncode 0#32 true
      else if d.data = 0#32 then 0#40 else secEncode d.data false) c.slab.words

/-- The virtual index VY x VW + VX of a site in a placement table. -/
def siteIndex (t : List PlaceEnt) (site : Nat) : Option Nat := t.findIdx? fun e => decide (e.site = site)

/-- What a save keeps of a core (R194, R531, Table 18.4): the state after its slots' updates, with the position where a release
without ENTRY resumes. -/
def saveCore (c0 : Core) : SavedCore :=
  let c := updateSlots (updateSlots c0)
  let st := c.stream
  { slab := savedSlab c, imemA := st.imemA, imemB := st.imemB, bankB := st.bankB, icount := st.icount,
    stopCount := st.stopCount, resume := if st.switched then 0 else st.pc, loops := if st.switched then [] else st.loops,
    aregs := c.aregs, slots := c.sync.slots,
    credits := c.sync.credits.filterMap fun p => (siteIndex c.place.table p.1).map fun i => (i, p.2),
    steps := c.place.steps, off := c.slab.off }

/-- A core as an admission left it takes a saved state: ARRIVED at the saved stop, with the limits of the bucket in flight
(R538). -/
def restoreCore (x : SavedCore) (bucket : Option (Nat × Nat × Nat)) (c : Core) : Core :=
  let b := bucket.getD (0, 0, 0)
  { c with
    stream := { c.stream with
      state := .arrived, pc := x.resume, loops := x.loops, icount := x.icount, stopCount := x.stopCount, switched := false, atStop := true,
      imemA := x.imemA, imemB := x.imemB, bankB := x.bankB }
    aregs := x.aregs
    sync := { c.sync with
      slots := x.slots
      credits := x.credits.filterMap fun p => (c.place.table[p.1]?).map fun e => (e.site, p.2) }
    slab := { c.slab with words := x.slab, off := x.off, pwrEff := x.off, pwrReq := x.off }
    place := { c.place with steps := x.steps, bucket := b.1, inLim := b.2.1, outLim := b.2.2 } }

/-! ### Bytes of a core record -/

/-- The values of keys 0 to n - 1 of a store. -/
def smArray {α : Type} (d : α) (n : Nat) (m : SMap α) : Array α :=
  m.foldl (fun a kv => a.setIfInBounds kv.1 kv.2) (Array.replicate n d)

/-- The 4-byte words of segments of a slab row as bytes. -/
def slabBytes (m : Array SlabWord) (r lo n : Nat) : List Byte :=
  (List.range n).flatMap fun i => bytesLE 4 (getField (m.getD (slabKey r (lo + i)) 0#40) 0 32)

/-- Bits packed eight to a byte, bit 0 first. -/
def bitBytes (n : Nat) (f : Nat → Bool) : List Byte :=
  (List.range (n / 8)).map fun i => BitVec.ofNat 8 ((List.range 8).foldl (fun v k => v + (f (8 * i + k)).toNat * 2 ^ k) 0)

/-- The words of an instruction bank as bytes. -/
def imemBytes (m : SMap W64) : List Byte :=
  (smArray imemEmpty 8192 m).toList.flatMap fun w => bytesLE 8 w.toNat

/-- A loop's 8 bytes, outermost loop first. -/
def loopBytes (ls : List HwLoop) : List Byte :=
  (List.range 4).flatMap fun k =>
    bytesLE 8 (match ls.reverse[k]? with
      | some l => packBits [(63, 1), (45, l.start % 8192), (32, l.stop % 8192), (0, l.remain % 2 ^ 32)]
      | none => 0)

/-- The credit table of a record: 1,024 entries of 4 bytes in virtual coordinates. -/
def creditBytes (vw : Nat) (cs : List (Nat × Nat)) : List Byte :=
  padTo 4096 (cs.flatMap fun p => bytesLE 4 (packBits [(31, 1), (18, p.1 % max 1 vw), (12, p.1 / max 1 vw), (0, p.2)]))

/-- The state block of a core record. -/
def stateBlock (vw i : Nat) (x : SavedCore) : List Byte :=
  padTo 16384 (
    bytesLE 8 x.icount ++ bytesLE 4 x.stopCount ++ bytesLE 2 x.resume ++ bytesLE 1 (i % max 1 vw) ++ bytesLE 1 (i / max 1 vw) ++
    bytesLE 1 x.bankB.toNat ++ bytesLE 1 x.loops.length ++ bytesLE 2 0 ++ bytesLE 4 x.steps ++ bytesLE 8 x.off.toNat ++
    loopBytes x.loops ++
    (List.range 32).flatMap (fun n =>
      let a := smGet AReg.zero x.aregs n
      bytesLE 8 a.value.toNat ++ bytesLE 4 a.stride0.toNat ++ bytesLE 4 a.stride1.toNat) ++
    (List.range 256).flatMap (fun n =>
      let q := smGet Slot.reset x.slots n
      bytesLE 8 (slotWord q false) ++ bytesLE 8 (slotWord q true)) ++
    creditBytes vw x.credits)

/-- The 4 MiB of the record of virtual core i (Table 18.4). -/
def coreRecord (vw i : Nat) (x : SavedCore) : List Byte :=
  let w := smArray 0#40 (36 * slabRows) x.slab
  (List.range slabRows).flatMap (fun r => slabBytes w r 0 32) ++
  (List.range slabRows).flatMap (fun r => slabBytes w r 32 4) ++
  imemBytes x.imemA ++ imemBytes x.imemB ++
  bitBytes (36 * slabRows) (fun b => (w.getD b 0#40).getLsbD 39) ++
  stateBlock vw i x ++ List.replicate 397312 0#8

/-- Loops from their registers, outermost first in the record. -/
def parseLoops (l : List Byte) (n : Nat) : List HwLoop :=
  ((List.range n).map fun k =>
    let v := fieldLE l (8 * k) 8
    { start := v / 2 ^ 45 % 8192, stop := v / 2 ^ 32 % 8192, remain := v % 2 ^ 32 : HwLoop }).reverse

/-- A slot from its register. -/
def parseSlot (lo hi : Nat) : Slot :=
  { base := lo % 2 ^ 15, rows := lo / 2 ^ 15 % 2 ^ 15, pcount := hi / 4 % 64 + 1, ccount := lo / 2 ^ 60 + hi % 4 * 16 + 1,
    full := decide (lo / 2 ^ 48 % 2 = 1), posted := hi / 2 ^ 24 % 256, admitted := hi / 2 ^ 16 % 256,
    released := hi / 2 ^ 8 % 256, remote := decide (hi / 2 ^ 56 % 2 = 1), px0 := hi / 2 ^ 50 % 64, py0 := hi / 2 ^ 44 % 64,
    pw := hi / 2 ^ 38 % 64, ph := hi / 2 ^ 32 % 64, posts := 0, releases := 0, gen := 0 }

/-- A map from the values of keys below n that differ from d. -/
def smTable {α : Type} [DecidableEq α] (d : α) (n : Nat) (f : Nat → α) : SMap α :=
  (List.range n).filterMap fun k => if f k = d then none else some (k, f k)

/-- The n bytes at offset off of an array of bytes as a little-endian number; past its end they are not counted. -/
def arrLE (a : Array Byte) (off n : Nat) : Nat :=
  (List.range n).foldr (fun i v => (a.getD (off + i) 0#8).toNat + 256 * v) 0

/-- A slab word of a record: crazed where the Z map marks it or a byte of it failed (R538, R552). -/
def recordWord (l : Array Byte) (bad : List Nat) (k : Nat) : SlabWord :=
  let r := k / 36
  let g := k % 36
  let off := if g < 32 then 128 * r + 4 * g else 0x300000 + 16 * r + 4 * (g - 32)
  let z := decide (arrLE l (0x380000 + k / 8) 1 / 2 ^ (k % 8) % 2 = 1) || bad.any fun i => decide (off ≤ i) && decide (i < off + 4)
  let d := BitVec.ofNat 32 (arrLE l off 4)
  if z then secEncode d true else if d = 0#32 then 0#40 else secEncode d false

/-- A core record's contents; `bad` lists the offsets in it whose read failed (Table 18.4). -/
def parseRecord (vw : Nat) (l : List Byte) (bad : List Nat) : SavedCore :=
  let arr := l.toArray
  let s := l.drop 0x39B000
  let imem := fun (o : Nat) => smTable imemEmpty 8192 fun i => BitVec.ofNat 64 (arrLE arr (o + 8 * i) 8)
  let cred := fun (i : Nat) => fieldLE s (0x1240 + 4 * i) 4
  { slab := smTable 0#40 (36 * slabRows) (recordWord arr bad)
    imemA := imem 0x360000, imemB := imem 0x370000, bankB := decide (fieldLE s 0x10 1 % 2 = 1), icount := fieldLE s 0 8 % 2 ^ 48,
    stopCount := fieldLE s 8 4, resume := fieldLE s 0xC 2 % 8192, loops := parseLoops (s.drop 0x20) (min 4 (fieldLE s 0x11 1)),
    aregs := smTable AReg.zero 32 fun n =>
      { value := BitVec.ofNat 48 (fieldLE s (0x40 + 16 * n) 6), stride0 := BitVec.ofNat 32 (fieldLE s (0x48 + 16 * n) 4),
        stride1 := BitVec.ofNat 32 (fieldLE s (0x4C + 16 * n) 4) }
    slots := smTable Slot.reset 256 fun n => parseSlot (fieldLE s (0x240 + 16 * n) 8) (fieldLE s (0x248 + 16 * n) 8)
    credits := ((List.range 1024).filter fun i => decide (cred i ≥ 2 ^ 31)).map fun i =>
      (cred i / 2 ^ 12 % 64 * vw + cred i / 2 ^ 18 % 64, cred i % 256)
    steps := fieldLE s 0x14 4 % 2 ^ 28, off := BitVec.ofNat 36 (fieldLE s 0x18 8) }

/-! ### A save -/

/-- Bytes of a core record. -/
def recBytes : Nat := 4194304

/-- Bytes of a page record. -/
def pageRecBytes : Nat := 4259904

/-- Bytes of a save of nc cores, np pages and ns selected requests (Table 18.2). -/
def saveSize (nc np ns : Nat) : Nat := 4096 + 16 * ns + nc * recBytes + np * pageRecBytes + 32

/-- The header of a save (Table 18.3). -/
def saveHeader (j : Job) (device : Bool) (k np now : Nat) : List Byte :=
  padTo 4096 (
    bytesLE 4 0x00010000 ++ bytesLE 4 device.toNat ++ bytesLE 8 j.seed.toNat ++ bytesLE 4 k ++ bytesLE 4 j.steps ++
    bytesLE 2 j.pkg.vw ++ bytesLE 2 j.pkg.vh ++ bytesLE 2 j.modules ++ bytesLE 1 j.rank ++ bytesLE 1 (j.bucket.getD 0xFF) ++
    bytesLE 4 (j.pkg.vw * j.pkg.vh) ++ bytesLE 4 np ++ bytesLE 4 j.sel.length ++ bytesLE 4 0 ++ bytesLE 8 now ++
    j.pkgDigest ++ j.wtDigest)

/-- The selection entries of a save. -/
def selBytes (sel : List Req) : List Byte :=
  sel.flatMap fun r => bytesLE 8 r.ticket ++ bytesLE 4 r.row0 ++ bytesLE 4 (r.dims.getD 0 0)

/-- A page record: page v, the crazed 64-bit words, and the data with crazed words 0. -/
def pageRecord (v : Nat) (l : List (Byte × Bool)) : List Byte :=
  let arr := l.toArray
  bytesLE 8 v ++ List.replicate 56 0#8 ++
  bitBytes 524288 (fun i => (arr.getD (8 * i) (0#8, false)).2) ++ l.map fun b => if b.2 then 0#8 else b.1

/-- A save as it was read back: the LEN bytes, those never delivered as 0xFF, and the offsets whose read failed. -/
structure SaveFile where
  bytes : List Byte
  failed : List Nat
deriving DecidableEq, Repr

/-- Bytes that a host read delivered, with those never delivered as 0xFF and failed (R537, R552). -/
def fillRead (n : Nat) (b : HostBuf) : List Byte × List Nat :=
  (b.bytes.take n ++ List.replicate (n - b.bytes.length) 0xFF#8,
    b.failed.filter (fun i => decide (i < n)) ++ (List.range (n - b.bytes.length)).map (b.bytes.length + ·))

/-- The counts of a save's header: cores, pages, selection entries. -/
def saveCounts (l : List Byte) : Nat × Nat × Nat := (fieldLE l 0x20 4, fieldLE l 0x24 4, fieldLE l 0x28 4)

/-- Where the core records and the page records of a save begin. -/
def coreOff (l : List Byte) : Nat := 4096 + 16 * (saveCounts l).2.2
def pageOff (l : List Byte) : Nat := coreOff l + (saveCounts l).1 * recBytes

/-- May byte i of a save have failed: slab data, side lanes and page data (R537, R552)? -/
def mayFail (l : List Byte) (i : Nat) : Bool :=
  (decide (coreOff l ≤ i) && decide (i < pageOff l) && decide ((i - coreOff l) % recBytes < 0x360000)) ||
  (decide (pageOff l ≤ i) && decide (i < pageOff l + (saveCounts l).2.1 * pageRecBytes) &&
    decide ((i - pageOff l) % pageRecBytes ≥ 65600))

/-- The pages that a save's records name. -/
def savedPages (l : List Byte) : List Nat :=
  (List.range (saveCounts l).2.1).map fun i => fieldLE l (pageOff l + i * pageRecBytes) 8

/-- The selection entries that a save holds: ticket, first row, D0. -/
def savedSel (l : List Byte) : List (Nat × Nat × Nat) :=
  (List.range (saveCounts l).2.2).map fun i =>
    (fieldLE l (4096 + 16 * i) 8, fieldLE l (4104 + 16 * i) 4, fieldLE l (4108 + 16 * i) 4)

/-- The checks of RESUME on a save of the job (R537). -/
def saveOk (j : Job) (f : SaveFile) : Bool :=
  let l := f.bytes
  let n := saveCounts l
  let size := saveSize n.1 n.2.1 n.2.2
  let bk := fieldLE l 0x1F 1
  let ps := savedPages l
  decide (4096 ≤ l.length) && decide (size ≤ l.length) && decide (fieldLE l 0 4 = 0x00010000) && decide (fieldLE l 8 8 = j.seed.toNat) &&
  decide (fieldLE l 0x1C 2 = j.modules) && decide (fieldLE l 0x1E 1 = j.rank) && decide (fieldLE l 0x18 2 = j.pkg.vw) &&
  decide (fieldLE l 0x1A 2 = j.pkg.vh) && decide (n.1 = j.pkg.vw * j.pkg.vh) &&
  decide (sha256 (l.take (size - 32)) = (l.drop (size - 32)).take 32) &&
  (decide (bk = 0xFF) || decide (bk < j.pkg.buckets.length)) && decide ((n.2.2 = 0) ↔ (bk = 0xFF)) &&
  ((savedSel l).all fun e => match j.pkg.buckets[bk]? with
    | some b => decide (e.2.1 + e.2.2 ≤ b.dims.getD 0 0)
    | none => true) &&
  ((List.range n.1).all fun i =>
    let o := coreOff l + i * recBytes + 0x39B000
    decide (fieldLE l (o + 0xE) 1 = i % max 1 j.pkg.vw) && decide (fieldLE l (o + 0xF) 1 = i / max 1 j.pkg.vw)) &&
  decide ((l.drop 0x38).take 32 = j.pkgDigest) && decide ((l.drop 0x58).take 32 = j.wtDigest) &&
  (ps.all fun p => decide (p < j.pages)) && ((ps.zip (ps.drop 1)).all fun p => decide (p.1 < p.2)) &&
  f.failed.all fun i => decide (size ≤ i) || mayFail l i

/-- The saved core i of a save. -/
def savedCore (j : Job) (f : SaveFile) (i : Nat) : SavedCore :=
  let o := coreOff f.bytes + i * recBytes
  parseRecord j.pkg.vw ((f.bytes.drop o).take recBytes)
    ((f.failed.filter fun b => decide (o ≤ b) && decide (b < o + recBytes)).map (· - o))

/-- Page record i of a save: its page, its data, and the byte offsets that are crazed. -/
def savedPage (f : SaveFile) (i : Nat) : Nat × List Byte × List Nat :=
  let o := pageOff f.bytes + i * pageRecBytes
  let d := o + 65600
  let zmap := ((f.bytes.drop (o + 64)).take 65536).toArray
  let z := (List.range 524288).filter fun w => decide (arrLE zmap (w / 8) 1 / 2 ^ (w % 8) % 2 = 1)
  (fieldLE f.bytes o 8, (f.bytes.drop d).take 4194304,
    z.map (8 * ·) ++ (f.failed.filter fun b => decide (d ≤ b) && decide (b < d + 4194304)).map (· - d))

/-! ### Crash dumps (Table 19.9) -/

/-- The offset in a core's dump record at which the STOP_ID of its last STOP stands, in the word after CORE.SYNC_CREDITS, where no
register lies. DESIGN CHOICE (assumption 110): R207 has it recorded and Table 19.9 names no place for it. -/
def stopIdOffset : Nat := 0x48

/-- The 16 KiB of a core's dump record, with its STOP_ID (R207, R575). -/
def dumpRecord (c : Core) : List Byte :=
  let area := fun (o n : Nat) => (List.range (n / 8)).flatMap fun i =>
    bytesLE 8 (if o + 8 * i = stopIdOffset then c.stream.stopId else coreWord c (o + 8 * i))
  area 0 0x800 ++ area 0x800 0x200 ++ area 0x4400 0x200 ++ area 0x4000 0x400 ++ area 0x1000 0x1000 ++ area 0x2000 0x2000

/-- A dump: header fields, the bits of the halted jobs, the 2,560 header bytes from 0x100 on that a partition reset fills, and
the records. -/
def dumpBytes (seq event part now : Nat) (jobs : List Nat) (extra : List Byte) (recs : List (List Byte)) : List Byte :=
  padTo 4096 (bytesLE 4 seq ++ bytesLE 2 event ++ bytesLE 1 part ++ bytesLE 1 0 ++ bytesLE 8 now ++ bytesLE 4 recs.length ++
    bytesLE 4 ((List.range 32).foldl (fun n j => if jobs.contains j then n + 2 ^ j else n) 0) ++
    List.replicate 232 0#8 ++ extra) ++ recs.flatMap id

end Sys2Proof.Machine
end

