-- ==== Sys2Proof/Machine/JobOps.lean ====
section
/-!
DEFINITION. Sys2Proof/Machine/JobOps.lean: the operations on jobs that the commands share: finding and changing a job, its
completions, its messages along the tree, placing it and giving its placement up, loading its cores, and ending it (R277 to
R279, R288 to R299, R366, R446, R458, R515 to R519, R527, R559).
-/

namespace Sys2Proof.Machine

/-! ### Jobs -/

/-- The job with an id, ended ones included. -/
def getJob (s : State) (id : Nat) : Option Job := s.jobs.find? fun j => decide (j.id = id)

/-- The state with a job put in, in the place of the one with its id; jobs stand by ascending id. -/
def putJob (j : Job) (s : State) : State :=
  { s with jobs := (s.jobs.filter fun x => decide (x.id < j.id)) ++ [j] ++ s.jobs.filter fun x => decide (j.id < x.id) }

/-- The state without the job. -/
def dropJob (id : Nat) (s : State) : State := { s with jobs := s.jobs.filter fun x => !decide (x.id = id) }

/-- The state with f applied to the job, where it exists. -/
def modJob (id : Nat) (f : Job → Job) (s : State) : State :=
  match getJob s id with
  | some j => putJob (f j) s
  | none => s

/-- Is the job admitted: its admission has completed and it has not ended (R452)? -/
def jobAdmitted (j : Job) : Bool := !j.ended && !j.waits.any fun w => decide (w.op = 1)

/-- The admitted job with an id. -/
def liveJob (s : State) (id : Nat) : Option Job := (getJob s id).filter jobAdmitted

/-- The job that a JKEY names (R518). -/
def keyJob (s : State) (k : Nat) : Option Job := s.jobs.find? fun j => !j.ended && decide (j.jkey = k) && decide (j.modules > 1 ∨ j.pair.isSome)

/-- The job that a JKEY names on trunk port p: one with a tree edge there before any other, as two leaders may give one number
(R518). -/
def keyJobAt (s : State) (p k : Nat) : Option Job :=
  match s.jobs.find? fun j => !j.ended && decide (j.jkey = k) && (j.upPort.toList ++ j.downPorts.map (·.2)).contains p with
  | some j => some j
  | none => keyJob s k

/-- The lowest job id that is free (R299). -/
def freeId (s : State) : Option Nat :=
  (List.range 32).find? fun i => !s.jobs.any fun j => decide (j.id = i) && (!j.ended || !j.waits.isEmpty)

/-- The sites of a placed job in table order. -/
def jobSites (j : Job) : List Nat := j.table.map (·.site)

/-- Is the job running normally or replaying, with a placement? -/
def jobRuns (j : Job) : Bool := j.place.isSome && (decide (j.st = 1) || decide (j.st = 5))

/-- The job's rank in its tree: the partner of a lock-step pair is 1 there, though its cores have rank 0 (R542). -/
def treeRank (j : Job) : Nat :=
  match j.pair with
  | some p => if p.primary then 0 else 1
  | none => j.rank

/-- Members of the job's tree. -/
def treeSize (j : Job) : Nat := if j.pair.isSome then 2 else j.modules

/-! ### Completions -/

/-- A command ends; its completion waits to be posted (R467). -/
def finish (c : Comp) (s : State) : State := { s with box := { s.box with finished := s.box.finished ++ [c] } }

/-- The completion of a request; `joined` says that it is charged for the job's step (R460, R482, R483, R489). -/
def finishReq (job step : Nat) (r : Req) (status result : Nat) (stamp : List Byte) (joined : Bool) (s : State) : State :=
  finish { port := r.port, ring := r.ring, ticket := r.ticket, status := status, result := result, tag := r.tag, backstamp := stamp
           queue := some r.queue
           record := some { index := 0, kind := 0, ticket := r.ticket, job := job, status := status, flags := 0, rows := if joined then r.dims.getD 0 0 else 0,
                            start := r.tick, stop := timeNow s, step := if joined then some (job, step) else none,
                            cats := Cats.zero, dev := 0, backstamp := stamp } } s

/-- A message joins the transmit queue of a trunk port (R506, R508). -/
def sendMsg (p : Nat) (m : TMsg) (fast : Bool) (s : State) : State := putTrunk p (queueMsg (getTrunk s p) m fast) s

/-- A command ends: to its ring, or for a forwarded command as COMPLETE COMMAND on the port it came by (R451, R516, R552). -/
def finishCmd (c : CtlCmd) (status result : Nat) (stamp : List Byte) (s : State) : State :=
  let op := dfield c.desc 0 1
  let s1 := if status = 5 ∧ (op = 3 ∨ op = 4) then { s with box := { s.box with rejected := sat16 s.box.rejected 1 } } else s
  if c.origin ≥ 14 then
    finish { port := c.origin - 14, ring := c.ring, ticket := c.ticket, status := status, result := result
             tag := if c.failed then 0 else dfield c.desc 0x10 8, backstamp := stamp, queue := none, record := none } s1
  else
    sendMsg (c.origin - 2) { TMsg.blank with
      typ := 6, kind := 0, srcRank := c.rank, dstRank := 0, jkey := c.jkey, id := c.srcId, arg := status
      inl := padTo 32 stamp ++ bytesLE 4 result } false s1

/-- The host port over which a command moves its bytes: its own, or for a forwarded one the lower present port (assumption 30). -/
def cmdPort (s : State) (c : CtlCmd) : Nat := if c.origin ≥ 14 then c.origin - 14 else if portPresent (getHost s 0) then 0 else 1

/-- Is the command's port there (R471, R473)? -/
def cmdPortOk (s : State) (c : CtlCmd) : Bool := portPresent (getHost s (cmdPort s c))

/-- A command met failed reads: counted and logged once (R552). -/
def poisoned (job : Nat) (s : State) : State :=
  logEvent { LogEvent.of 0xA with job := job } { s with errlog := { s.errlog with poisonedIn := sat16 s.errlog.poisonedIn 1 } }

/-- The accepted command with a ticket and opcode, where no earlier one of its queue still waits to start (R451), and the state
without it in the list. -/
def takeCmd (s : State) (op ticket : Nat) : Option (CtlCmd × State) :=
  match s.box.accepted.findIdx? fun c => decide (c.ticket = ticket) && decide (dfield c.desc 0 1 = op) with
  | some i =>
    match s.box.accepted[i]? with
    | some c =>
      if (s.box.accepted.take i).any fun d => decide (d.origin = c.origin) && decide (d.cq = c.cq) then none
      else some (c, { s with box := { s.box with accepted := listDel s.box.accepted i } })
    | none => none
  | none => none

/-! ### The tree (R515) -/

/-- The parent of a rank. -/
def rankParent (r : Nat) : Nat := (r - 1) / 2

/-- The child of `me` through which rank t is reached, or none when t is not below it. -/
def climbTo (me : Nat) : Nat → Nat → Option Nat
  | 0, _ => none
  | fuel + 1, t => if t = 0 then none else if rankParent t = me then some t else climbTo me fuel (rankParent t)

/-- The job's tree ports: toward the parent and toward the children. -/
def treePorts (j : Job) : List Nat := j.upPort.toList ++ j.downPorts.map (·.2)

/-- The port toward a rank. -/
def portTo (j : Job) (t : Nat) : Option Nat :=
  match climbTo (treeRank j) 64 t with
  | some c => (j.downPorts.find? fun d => decide (d.1 = c)).map (·.2)
  | none => j.upPort

/-- A control message of the job goes toward a rank, or to every member with 0xFE (R515). -/
def msgTo (j : Job) (dst : Nat) (m : TMsg) (s : State) : State :=
  let m1 := { m with srcRank := treeRank j, dstRank := dst, jkey := j.jkey }
  let ports := if dst = 0xFE then treePorts j else (portTo j dst).toList
  ports.foldl (fun s p => sendMsg p m1 false s) s

/-- A message of the job that came by port p goes on along the tree where it must; is it for this module, too (R515)? -/
def relayMsg (j : Job) (p : Nat) (m : TMsg) (s : State) : Bool × State :=
  if m.dstRank = 0xFE then (true, (treePorts j).foldl (fun s q => if q = p then s else sendMsg q m false s) s)
  else if m.dstRank = treeRank j ∨ m.dstRank = 0xFF then (true, s)
  else (false, (portTo j m.dstRank).toList.foldl (fun s q => sendMsg q m false s) s)

/-! ### Dividers of jobs over several modules (R387, R429, R521) -/

/-- The divider that the module asks of its clocks, which it reports as its permitted divider. -/
def wanted (s : State) : Nat := wantedDivider s.power.pm s.fuses.grade (jobDivider s)

/-- The power manager writes the voltage targets of a divider (R410). -/
def loadVolts (div : Nat) (s : State) : State := { s with power := loadTargets s.power (imageVals s) div }

/-- A divider change is scheduled or refused; the targets of a smaller divider are written before its tick (R384, R410). -/
def scheduleDiv (target tick : Nat) (job : Option Nat) (s : State) : State :=
  let ok := divOk s.clock target tick
  let s1 := { s with clock := armDivider { s.clock with target := target, tick := tick } target tick job }
  if ok && decide (target < s.clock.div) then loadVolts target s1 else s1

/-- FREQ_SET SET takes effect on a module of the job. -/
def takeFreq (id div tick : Nat) (s : State) : State :=
  let s1 := scheduleDiv div tick (some id) s
  if divOk s.clock div tick then modJob id (fun j => { j with freqDiv := div }) s1 else s1

/-- The leader takes the largest of its own permitted divider and those of every member, once all have reported, and sends FREQ_SET
SET when it differs from the last, or again after a cancellation (R387). -/
def decideFreq (id : Nat) (again : Bool) (s : State) : State :=
  match getJob s id with
  | some j =>
    if j.ended || decide (treeSize j ≤ 1) || decide (treeRank j ≠ 0) ||
        !((List.range (treeSize j - 1)).all fun r => j.limits.any fun l => decide (l.1 = r + 1)) then s
    else
      let d := j.limits.foldl (fun m l => max m l.2) (wanted s)
      if d = j.freqDiv ∧ !again then s
      else
        let tick := timeNow s + 80000
        takeFreq id d tick (msgTo j 0xFE { TMsg.blank with typ := 4, kind := 0, id := tick, arg := d } s)
  | none => s

/-- FREQ_SET LIMIT of a member to its job's leader (R521). -/
def sendLimit (s : State) (j : Job) : State :=
  if j.ended || decide (treeSize j ≤ 1) || decide (treeRank j = 0) then s
  else msgTo j 0 { TMsg.blank with typ := 4, kind := 1, arg := wanted s } s

/-- Every job that this module leads, looked at again: twice, as one job's divider counts for the others. -/
def decideAll (s : State) : State :=
  let ids := s.jobs.map (·.id)
  (ids ++ ids).foldl (fun s i => decideFreq i false s) s

/-- The divider that the clocks have or are armed for. -/
def goalDivider (k : Clock) : Nat :=
  match k.pending with
  | some p => p.target
  | none => k.div

/-- The power manager arms the divider it asks for at the earliest tick that R384 admits; with a job over several modules it waits for
that job's FREQ_SET (R426, R429). -/
def armWanted (s : State) : State :=
  if !isReady s.boot || (s.jobs.any fun j => !j.ended && decide (treeSize j > 1)) || decide (wanted s = goalDivider s.clock) then s
  else scheduleDiv (wanted s) (timeNow s + 4000) none s

/-- The module's permitted divider may have changed from what it was: it is reported and acted on (R429, R521). -/
def reportFrom (before : Nat) (s : State) : State :=
  if wanted s = before then s
  else
    let s1 := decideAll s
    armWanted (s1.jobs.foldl sendLimit s1)

/-- A change to the state after which a changed permitted divider is reported. -/
def reporting (f : State → State) (s : State) : State := reportFrom (wanted s) (f s)

/-- Has the port an ACTIVE partner with the module id? -/
def partnerIs (t : TPort) (id : List Byte) : Bool :=
  decide (t.st = 7) && match t.neigh with
    | some n => decide (n.moduleId = id)
    | none => false

/-- The lowest ACTIVE port to the module with an id. -/
def partnerPort (s : State) (id : List Byte) : Option Nat := (List.range 12).find? fun n => partnerIs (getTrunk s n) id

/-- The children of a rank in a tree of m members. -/
def kidsOf (r m : Nat) : List Nat := [2 * r + 1, 2 * r + 2].filter fun c => decide (c < m)

/-- The port toward the parent and those toward the children of rank r among the members, as the neighbour table gives them. -/
def treeLinks (s : State) (members : List (List Byte)) (r : Nat) : Option Nat × List (Nat × Nat) :=
  (if r = 0 then none else partnerPort s (members.getD (rankParent r) []),
    (kidsOf r members.length).filterMap fun c => (partnerPort s (members.getD c [])).map fun p => (c, p))

/-! ### Placement -/

/-- Partitions that may take new job pages: in service, without a stack on which a channel is permanent (R366, Table 19.6). -/
def pageParts (s : State) : List Nat :=
  (List.range 8).filter fun p => partInService s p &&
    !s.history.permanent.any fun u => decide (u / 2 ^ 28 = 5) && decide (u % 16 / 2 = p)

/-- The pages that device saves hold (R536). -/
def savePages (s : State) : List Nat := s.jobs.flatMap fun j => match j.devSave with
  | some d => d.pages
  | none => []

/-- Instruction words as a bank (R279). -/
def bankMap (ws : List W64) : SMap W64 := ws.zipIdx.filterMap fun w => if w.1 = imemEmpty then none else some (w.2, w.1)

/-- SLAB_PWR as an image entry's PWR field asks (R278). -/
def pwrBits (pwr : Nat) : BitVec 36 :=
  BitVec.ofNat 36 (pwr % 16 * 2 ^ 32 + (if pwr / 16 % 2 = 1 then 0xFFFFFFFF else 0))

/-- What admission leaves in a core that keeps its arbiters: cleared, its slab zero, with its placement, images, region, window
and seed (R70, R71, R78, R98, R141, R160, R197, R215, R277 to R279, R301, R527). -/
def admitCore (j : Job) (i site : Nat) (o : Core) : Core :=
  let p := j.pkg
  let vx := i % max 1 p.vw
  let vy := i / max 1 p.vw
  let c := clearedCore o
  let im := p.images.getD i { bankA := [], bankB := [], pairs := 0, pwr := 0 }
  let rg := regionOf p vx vy
  let rgn := fun (f : RegionEnt → Nat) => match rg with
    | some r => f r
    | none => 0
  { c with
    stream := { c.stream with imemA := bankMap im.bankA, imemB := bankMap im.bankB }
    sync := { c.sync with bx0 := rgn (·.vx0), by0 := rgn (·.vy0), bw := rgn (·.w) - 1, bh := rgn (·.h) - 1 }
    slab := { c.slab with
      pwrReq := pwrBits im.pwr, passes := o.slab.passes, pointer := o.slab.pointer, due := o.slab.due
      winEn := p.compat, winBase := if p.compat then p.winBase else 0
      winVx0 := if p.compat then j.winRect.1 else 0, winVy0 := if p.compat then j.winRect.2.1 else 0
      winWd := if p.compat then j.winRect.2.2.1 else 0, winHt := if p.compat then j.winRect.2.2.2 else 0
      winPages := if p.compat then j.winPages else 0 }
    arbRd := o.arbRd, arbWr := o.arbWr, rd := o.rd, wr := o.wr, seed := j.seed, activity := o.activity, out := o.out, cc := o.cc
    place := { job := j.id, placed := true, site := site, rank := j.rank, vy := vy, vx := vx, bucket := 0, steps := 0,
               arenaBase := p.arenaVa, inMax := p.inMax, inLim := 0, outMax := p.outMax, outLim := 0, vw := p.vw, vh := p.vh,
               table := j.table } }

/-- Every core of a placed job as its admission leaves it. -/
def loadCores (j : Job) (s : State) : State :=
  j.table.zipIdx.foldl (fun s e => putCore e.1.site (admitCore j e.2 e.1.site (getCore s e.1.site)) s) s

/-- Does a placed job hold the site? -/
def siteHeld (s : State) (x : Nat) : Bool := s.jobs.any fun j => j.place.isSome && j.table.any fun e => decide (e.site = x)

/-- The sites of permanent cores, banks without a spare, and cracked clusters that are not yet fenced; a job that carries one keeps it
until its own next admission (R135, R418, R572). -/
def duePermanent (s : State) : List Nat :=
  (s.history.permanent.flatMap fun u =>
    match u / 2 ^ 28 with
    | 1 => [u % 2 ^ 28]
    | 2 => [u % 2 ^ 12]
    | 8 => clusterSites (u % 2 ^ 28)
    | _ => []).filter fun x => siteOk x && permanentSite s x && !(getCore s x).fenced && !siteHeld s x

/-- An admission fences what has become permanent, and its sites leave the good set of the kiln map (R418, R572) (assumption 126). -/
def fencePermanent (s : State) : State :=
  match (duePermanent s).eraseDups with
  | [] => s
  | l => fenceSites 1 l { s with box := { s.box with kiln := (s.box.kiln ++ l).eraseDups } }

/-- Place the job under the fences in force and load its cores; none when no choice qualifies (R290, R291, R295). -/
def placeJob (j : Job) (s0 : State) : Option (Job × State) :=
  let s := fencePermanent s0
  match choosePlace (usable s) (heldPlaces s) j.pkg.vw j.pkg.vh j.oldPlace with
  | some p =>
    let j1 := { j with place := some p, oldPlace := some p, table := placeTable (usable s) p j.pkg.vw j.pkg.vh }
    some (j1, updateSpares (loadCores j1 (putJob j1 s)))
  | none => none

/-- The slab of a core whose placement is retired: every bank powers up (R141). -/
def retireSlab (x : Slab) : Slab := { x with pwrReq := 0#36, pwrEff := 0#36, closing := 0#36, rising := x.off }

/-- A core whose job's placement is retired: IDLE, nothing under way; its registers keep what they hold, but that it belongs to no
job (Table 5.3, R141, R193, R294, R301). DESIGN CHOICE (assumption 108): open loops, HALT_EN, ENTRY_EN and a pending SWITCH are cleared. -/
def retireCore (c : Core) : Core :=
  { c with
    stream := { c.stream with
      state := .idle, loops := [], haltEn := false, entryEn := false, switchReq := false, stopKind := .none, atStop := false }
    queue := [], qmat := [], qxfer := [], qsync := [], started := []
    vec := { c.vec with alu := none, load := none, store := none, landing := [], lands := [], drains := [] }
    matrix := { c.matrix with load := none, streams := [] }
    slab := retireSlab c.slab
    xfer := { c.xfer with jobs := [], outs := [], haloOuts := [], ins := [], haloIns := [], rx := [] }
    sync := { c.sync with waiting := none }
    place := { c.place with placed := false } }

/-- The placement of a job is retired. -/
def unplaceJob (id : Nat) (s : State) : State :=
  match getJob s id with
  | some j =>
    updateSpares (putJob { j with place := none, table := [], atStop := none, dispatched := false, halted := false }
      (atCores (jobSites j) retireCore s))
  | none => s

/-! ### The end of a job -/

/-- The requests of a job that this module accepted and has not completed, in the order of acceptance. -/
def ownReqs (j : Job) : List Req :=
  (j.ready ++ j.sel.filter fun r => !r.orphan && !r.inFailed).foldl (fun l r => if r.rank = treeRank j then insertReq r l else l) []

/-- Has the step of the job's selection reached its stop, so that its requests are charged for it (R482)? -/
def stepReached (j : Job) : Bool := match j.atStop with
  | some a => a.final
  | none => false

/-- Every request not yet completed ends with a status (R519, R559). -/
def endRequests (id status : Nat) (s : State) : State :=
  match getJob s id with
  | some j =>
    let s1 := (ownReqs j).foldl (fun s r => finishReq j.id j.steps r status 0 [] (stepReached j && !j.ready.contains r) s) s
    putJob { j with ready := [], sel := [], bucket := none, loading := false, awaitRows := [] } s1
  | none => s

/-- Commands that wait on the job end with JOB_FAILED (R632). -/
def endWaiting (id : Nat) (s : State) : State :=
  match getJob s id with
  | some j =>
    let cmds := j.saves.map (·.cmd) ++ j.resuming.toList ++ j.retire ++ (j.waits.filter fun w => !decide (w.op = 5)).map (·.cmd)
    let cs := cmds.eraseDups
    putJob { j with saves := [], resuming := none, retire := [], waits := [] } (cs.foldl (fun s c => finishCmd c 3 0 [] s) s)
  | none => s

/-- The job's pages, queues and accounts are released (R364, R446, R483). -/
def releaseJob (id : Nat) (s : State) : State :=
  { s with hbm := unmapPages s.hbm id, queues := unbindJob s.queues id, meter := abandonStep s.meter id none }

/-- The suspect list without a job, and the replay it ran (R569). -/
def clearSuspect (id : Nat) (s : State) : State :=
  { s with box := { s.box with
      suspects := s.box.suspects.filter fun x => !decide (x = id)
      replaying := if s.box.replaying = some id then none else s.box.replaying } }

/-- The end of a suspect's job is no pass of its replay (R570). -/
def suspectEnds (id : Nat) (s : State) : State :=
  { s with box := { s.box with replayBad := s.box.replayBad || s.box.suspects.contains id } }

/-- A job ends with JOB_FAILED or NO_CAPACITY: told along its tree but for the port it heard it from, its requests failed, its
queues, pages and placement released (R519, R559); logged when `log` says so (Table 19.7). -/
def endJob (id status : Nat) (heard : Option Nat) (log : Bool) (s : State) : State :=
  match getJob s id with
  | some j =>
    if j.ended then s
    else
      let m := { TMsg.blank with typ := 6, kind := 3, srcRank := treeRank j, dstRank := 0xFE, jkey := j.jkey, arg := status }
      let s1 := (treePorts j).foldl (fun s p => if heard = some p then s else sendMsg p m false s) s
      let s2 := releaseJob id (unplaceJob id (endWaiting id (endRequests id 3 s1)))
      let s3 := modJob id (fun j => { j with
        ended := true, st := 0, suspect := false, auto := false, recoveries := 0, devSave := none, ckpt := none, cause := none
        shed := [], pair := none }) (clearSuspect id (suspectEnds id s2))
      reportFrom (wanted s)
        (if log then logEvent { LogEvent.of 3 with job := id, code := status, stop := j.stopCount } s3 else s3)
  | none => s

/-- A job ends with RELOAD_NEEDED: it keeps its id, its pages and its queues (R559). -/
def reloadJob (id : Nat) (s : State) : State :=
  match getJob s id with
  | some j =>
    let s1 := unplaceJob id (endWaiting id (endRequests id 8 s))
    logEvent { LogEvent.of 3 with job := id, code := 8, stop := j.stopCount }
      (modJob id (fun j => { j with st := 4, cause := none, atStop := none, shed := [], devSave := none })
        { s1 with meter := abandonStep s1.meter id none })
  | none => s

/-- The job's queue as the descriptor state gives it: requests bound to it become visible as their queues enter the cache. -/
def cachedReq (s : State) (r : Req) : Bool := s.queues.cache.contains r.queue

end Sys2Proof.Machine
end

