-- ==== Sys2Proof/Machine/StopOps.lean ====
section
/-!
DEFINITION. Sys2Proof/Machine/StopOps.lean: steps and stops of a job: dispatch, arrival at a stop, outputs, the lock-step digest,
sheds, retirement, release, and the answers that a multi-module command collects (R190, R280, R434, R462, R465, R516, R520, R522,
R543 to R547).
-/

namespace Sys2Proof.Machine

/-! ### Commands over several modules (R516) -/

/-- The descriptor of a forwarded command that the leader forms itself: opcode and job (R516, R560). -/
def madeDesc (op job : Nat) : List Byte := padTo 64 (bytesLE 1 op ++ bytesLE 1 0 ++ bytesLE 1 job)

/-- SUBMIT COMMAND to a member rank of the job. -/
def sendCommand (j : Job) (r ticket : Nat) (desc data : List Byte) (s : State) : State :=
  msgTo j r { TMsg.blank with
    typ := 5, kind := 0, id := ticket, inl := desc, data := data ++ List.replicate ((16 - data.length % 16) % 16) 0#8 } s

/-- A command of the job's leader goes to every member; its end waits for all of them and for the leader itself (R516). -/
def forwardCmd (j : Job) (c : CtlCmd) (data : List Byte) (s : State) : State :=
  let w : MultiWait := { op := dfield c.desc 0 1, cmd := c, ranks := List.range (treeSize j), fails := [], since := timeNow s,
                         result := 0, backstamp := [] }
  (List.range (treeSize j - 1)).foldl (fun s r => sendCommand j (r + 1) c.ticket c.desc data s)
    (modJob j.id (fun j => { j with waits := j.waits ++ [w] }) s)

/-- The first failing status in rank order, or DONE. -/
def firstFail (fs : List (Nat × Nat)) : Nat :=
  match fs.mergeSort (fun a b => decide (a.1 ≤ b.1)) with
  | [] => 0
  | f :: _ => f.2

/-- An admission ends with a failing status: every member that may have admitted the job retires it (R516). -/
def failAdmission (j : Job) (w : MultiWait) (st : Nat) (s : State) : State :=
  let s1 := (List.range (treeSize j - 1)).foldl (fun s r =>
    if w.fails.any fun f => decide (f.1 = r + 1) then s else sendCommand j (r + 1) w.cmd.ticket (madeDesc 5 j.id) [] s) s
  finishCmd w.cmd st 0 [] (dropJob j.id (releaseJob j.id (unplaceJob j.id s1)))

/-- Every member has answered an admission: it ends DONE or with the first failing status in rank order (R516). -/
def endAdmission (j : Job) (w : MultiWait) (s : State) : State :=
  let st := firstFail w.fails
  if st = 0 then finishCmd w.cmd 0 j.id [] (putJob { j with waits := j.waits.filter fun x => !decide (x = w) } s)
  else failAdmission j w st s

/-- A rank's answer to the command with a ticket of a job: the command ends with the last one (R516, R534). -/
def multiAnswer (id ticket rank status result : Nat) (stamp : List Byte) (s : State) : State :=
  match getJob s id with
  | none => s
  | some j =>
    match j.waits.find? fun w => decide (w.cmd.ticket = ticket) && w.ranks.contains rank with
    | none => s
    | some w0 =>
      let w := { w0 with
        ranks := w0.ranks.filter fun r => !decide (r = rank)
        fails := if status = 0 then w0.fails else w0.fails ++ [(rank, status)]
        result := if rank = 0 then result else w0.result
        backstamp := if rank = 0 then stamp else w0.backstamp }
      let j1 := { j with waits := j.waits.map fun x => if x = w0 then w else x }
      if !w.ranks.isEmpty then putJob j1 s
      else if w.op = 1 then endAdmission j1 w (putJob j1 s)
      else
        let j2 := { j1 with waits := j1.waits.filter fun x => !decide (x = w) }
        let s1 := finishCmd w.cmd (firstFail w.fails) w.result w.backstamp s
        if w.op = 5 ∧ j2.ended then dropJob id s1 else putJob j2 s1

/-- This module's part of a job's command ends: at a leader of several modules its own answer, else the command itself. -/
def endPart (j : Job) (c : CtlCmd) (status result : Nat) (stamp : List Byte) (s : State) : State :=
  if j.waits.any fun w => decide (w.cmd.ticket = c.ticket) then multiAnswer j.id c.ticket 0 status result stamp s
  else finishCmd c status result stamp s

/-- Saves that wait for a resume which leaves the job without placement (R632). -/
def refuseSaves (id : Nat) (s : State) : State :=
  match getJob s id with
  | some j => j.saves.foldl (fun s w => endPart j w.cmd 5 0 [] s) (putJob { j with saves := [] } s)
  | none => s

/-! ### Dispatch and release -/

/-- Has every core of the job taken the commits that the signal box armed in its slab arbiters (R348)? -/
def arbsTaken (s : State) (j : Job) : Bool :=
  (jobSites j).all fun k => coreArbsTaken (getCore s k)

/-- The signal box releases every core of the job from its stop (R191); a device save is a checkpoint no longer (R536). A suspect
waits for its replay (R569). -/
def releaseJobCores (id : Nat) (s : State) : State :=
  match getJob s id with
  | some j =>
    if arbsTaken s j && (!j.suspect || decide (s.box.replaying = some id)) then
      putJob { j with atStop := none, devSave := none } (atCores (jobSites j) releaseCore s)
    else s
  | none => s

/-- CORE.STEP, the arena limits and the entry of a bucket are written and RELEASE follows (R280). -/
def dispatchCore (j : Job) (b steps : Nat) (e : BucketEnt) (c : Core) : Core :=
  let entry := match regionOf j.pkg c.place.vx c.place.vy with
    | some r => r.entries.getD b 0
    | none => 0
  releaseCore { c with
    place := { c.place with bucket := b, steps := steps, inLim := e.inBytes, outLim := e.outBytes }
    stream := { c.stream with entry := entry, entryEn := true } }

/-- The requests that a step's energy is charged to, with their rows (R474, R482). -/
def chargedRows (sel : List Req) : List (Nat × Nat) :=
  (sel.filter fun r => !r.inFailed).map fun r => (r.ticket, r.dims.getD 0 0)

/-- Has GATHER_US passed since the oldest ready request's acceptance (R463)? A microsecond is 400 tt (Table 12.1). -/
def gatherOver (now : Nat) (j : Job) : Bool :=
  match j.ready with
  | r :: _ => decide (r.tick + j.gatherUs * 400 ≤ now)
  | [] => false

/-- A step is dispatched with bucket b and the job's selection (R280, R479), once its cores' slab arbiters have taken every armed
commit (R348), and while no cap hold or sign hold stands (R427, R490). -/
def dispatchStep (id b : Nat) (s : State) : State :=
  match getJob s id with
  | some j =>
    match if arbsTaken s j && mayDispatch s then j.pkg.buckets[b]? else none with
    | some e =>
      let n := min 0xFFFFFFF (j.steps + 1)
      let j1 := { j with
        dispatched := true, bucket := some b, ordinal := 0, steps := n, loading := false, awaitRows := [], atStop := none
        arrived := [], gatherDue := gatherOver (timeNow s) j, stepWt := j.wtDigest, devSave := none
        pair := j.pair.map fun p => { p with digest := List.replicate 32 0#8 } }
      let s1 := atCores (jobSites j) (dispatchCore j b n e) (putJob j1 s)
      { s1 with meter := openStep s1.meter id n (e.dims.getD 0 0) (timeNow s1) (chargedRows j.sel) }
    | none => s
  | none => s

/-! ### Arrival -/

/-- The stop at which a core stands: the one it counted last, ARRIVED or halted there by HALT_AT; a core that the HALT instruction
halted stands at none (R188, R190, R193). -/
def coreStop (c : Core) : Option Nat :=
  match c.stream.state with
  | .arrived | .halted => if c.stream.atStop then some c.stream.stopCount else none
  | _ => none

/-- Are the credits that cores have sent those that they have received, as the counters show (R190)? -/
def creditsBalanced (cs : List Core) : Bool :=
  let sum := fun (f : Core → Nat) => cs.foldl (fun (n : Nat) c => n + f c) 0
  decide (sum (fun c => c.sync.creditsSent) % 2 ^ 32 = sum (fun c => c.sync.creditsReceived) % 2 ^ 32)

/-- The stop at which the whole job stands: every core has arrived, and the credits sent equal those received (R190). -/
def jobStop (s : State) (j : Job) : Option Nat :=
  match jobSites j with
  | [] => none
  | a :: l =>
    match coreStop (getCore s a) with
    | none => none
    | some k =>
      let cs := (a :: l).map (getCore s)
      if cs.all (fun c => decide (coreStop c = some k)) && creditsBalanced cs then some k else none

/-- The stop records of the job's cores (R544). -/
def stopRecords (s : State) (j : Job) : List Byte :=
  (jobSites j).flatMap fun k =>
    let c := getCore s k
    bytesLE 4 (coreVcid c.place) ++ bytesLE 8 c.lockDrain.toNat ++ bytesLE 8 c.lockStore.toNat

/-- HALT_EN and HALT_AT for stop k; a core that stands at k is halted there (R193, R237). -/
def haltCore (k : Nat) (c : Core) : Core :=
  { c with stream := { c.stream with
      haltEn := true, haltAt := k
      state := if c.stream.state = .arrived ∧ c.stream.stopCount = k then .halted else c.stream.state } }

/-- The two oldest digests still to compare belong to one step: equal, they are done; different, both modules send the records and
halt (R545, R546). -/
def compareDigests (id : Nat) (s : State) : State :=
  match getJob s id with
  | none => s
  | some j =>
    match j.pair with
    | none => s
    | some p =>
      match p.mine, p.theirs with
      | m :: ms, t :: ts =>
        if m.1 = t.1 ∧ m.2.2 = t.2 then
          { putJob { j with pair := some { p with mine := ms, theirs := ts } } s with
            box := { s.box with matched := (s.box.matched + 1) % 2 ^ 32 } }
        else if m.1 = t.1 then
          let recs := match p.records.find? fun r => decide (r.1 = m.2.1) with
            | some r => r.2
            | none => []
          let pad := recs ++ List.replicate ((16 - recs.length % 16) % 16) 0#8
          let fail := fun (s : State) (r : Req) => if r.rank = treeRank j ∧ p.primary then finishReq j.id j.steps r 3 0 [] (stepReached j) s else s
          let s1 := (j.sel.filter fun r => !r.inFailed && !r.orphan).foldl fail s
          let j1 := { j with pair := some { p with mine := ms, theirs := ts, bad := some (m.1, m.2.1) }, sel := [] }
          let s2 := msgTo j (1 - treeRank j) { TMsg.blank with typ := 10, id := m.1, inl := m.2.2, data := pad } (putJob j1 s1)
          atCores (jobSites j) (haltCore ((j.stopCount + 1) % 2 ^ 32)) { s2 with meter := unchargeStep s2.meter id }
        else s
      | _, _ => s

/-- A lock-step pair's digest after a stop, sent to the partner (R544). -/
def stopDigest (id k : Nat) (s : State) : State :=
  match getJob s id with
  | none => s
  | some j =>
    match j.pair with
    | none => s
    | some p =>
      let recs := stopRecords s j
      let d := sha256 (p.digest ++ bytesLE 4 j.steps ++ bytesLE 4 k ++ recs)
      let p1 := { p with digest := d, mine := p.mine ++ [(j.steps, k, d)], records := ((k, recs) :: p.records).take 8 }
      compareDigests id (msgTo j (1 - treeRank j) { TMsg.blank with typ := 10, id := j.steps, inl := d }
        (putJob { j with pair := some p1 } s))

/-- A replay that arrives at stop s + 1 passes; when it was the last and none failed, the event was TRANSIENT (R570). -/
def replayPass (id k : Nat) (s : State) : State :=
  match getJob s id with
  | some j =>
    if s.box.replaying = some id ∧ j.st = 5 ∧ k ≥ j.replayStop + 1 then
      let s1 := clearSuspect id (putJob { j with st := 1, suspect := false } s)
      if s1.box.suspects.isEmpty ∧ !s1.box.replayBad then logEvent { LogEvent.of 8 with job := id } s1 else s1
    else s
  | none => s

/-- The job arrives at stop k; `final` says that it ends the step (R190, R479, R520, R544). -/
def enterStop (id k : Nat) (final : Bool) (s : State) : State :=
  match getJob s id with
  | some j =>
    let a : AtStop := { k := k, ordinal := j.ordinal + 1, final := final, exNext := 0, exBusy := false, outDone := !final,
                        released := decide (treeSize j = 1) }
    let j1 := { j with
      atStop := some a, stopCount := k, ordinal := j.ordinal + 1
      halted := j.halted || (jobSites j).any fun x => decide ((getCore s x).stream.state = .halted) }
    let s1 := putJob j1 s
    let s2 := if final then { s1 with meter := closeStep s1.meter id (timeNow s) } else s1
    let s3 := if treeSize j > 1 ∧ treeRank j ≠ 0 then msgTo j1 0 { TMsg.blank with typ := 6, kind := 1, id := k } s2 else s2
    replayPass id k (stopDigest id k s3)
  | none => s

/-- The exchange entries that apply at the job's stop, in table order (R522). -/
def stopEntries (j : Job) (a : AtStop) : List (Nat × ExEnt) :=
  (j.exch.zipIdx.filter fun e => decide (e.1.stop = a.ordinal) && match j.bucket with
    | some b => decide (e.1.buckets / 2 ^ b % 2 = 1)
    | none => false).map fun e => (e.2, e.1)

/-- Have the exchanges of the stop completed here? -/
def exchDone (j : Job) (a : AtStop) : Bool := !a.exBusy && decide ((stopEntries j a).length ≤ a.exNext)

/-- The leader's RELEASE once every member has arrived and the exchanges have completed (R520). -/
def leaderRelease (id : Nat) (s : State) : State :=
  match getJob s id with
  | some j =>
    match j.atStop with
    | some a =>
      let all := (List.range (treeSize j - 1)).all fun r => j.arrived.contains (r + 1, a.k)
      if !a.released && decide (treeRank j = 0) && all && exchDone j a then
        msgTo j 0xFE { TMsg.blank with typ := 6, kind := 2, id := a.k }
          (putJob { j with atStop := some { a with released := true }, arrived := j.arrived.filter fun x => !decide (x.2 = a.k) } s)
      else s
    | none => s
  | none => s

/-! ### Outputs (R465, R539) -/

/-- A record reserved at once: PART 1 of another module's request (R484, R489). -/
def reservePart (j : Job) (r : Req) (s : State) : State :=
  { s with meter := meterFlags (reserve s.meter
      { index := 0, kind := 0, ticket := r.ticket, job := j.id, status := 0, flags := 4, rows := r.dims.getD 0 0, start := r.tick,
        stop := timeNow s, step := some (j.id, j.steps), cats := Cats.zero, dev := 0, backstamp := [] }) }

/-- One request's output at the end of its step. -/
def returnOutput (j : Job) (s : State) (r : Req) : State :=
  if r.orphan then { s with box := { s.box with orphans := sat16 s.box.orphans 1 } }
  else if r.rank ≠ treeRank j then reservePart j r s
  else if r.inFailed then s
  else
    let n := r.dims.getD 0 0 * j.outRow
    let q := unitRead (.host r.port) j.id (j.pkg.arenaVa + j.pkg.inMax + r.row0 * j.outRow) n s
    let s1 := q.2
    if !portPresent (getHost s r.port) then finishReq j.id j.steps r 4 0 [] true s
    else if q.1.any (·.2) then finishReq j.id j.steps r 7 0 [] true s1
    else
      let out := q.1.map (·.1)
      finishReq j.id j.steps r 0 n (backstamp j r.inDigest out) true (emit [.hostWrite r.port r.outAddr out] s1)

/-- The outputs of a step that has reached its final stop; a pair's primary waits for the partner's equal digest (R465, R520, R545). -/
def returnOutputs (id : Nat) (s : State) : State :=
  match getJob s id with
  | some j =>
    match j.atStop with
    | some a =>
      let agreed := match j.pair with
        | some p => !p.primary || !p.mine.any fun m => decide (m.1 = j.steps)
        | none => true
      if a.final && !a.outDone && a.released && exchDone j a && agreed then
        modJob id (fun j => { j with atStop := some { a with outDone := true }, sel := [], bucket := none })
          (j.sel.foldl (returnOutput j) s)
      else s
    | none => s
  | none => s

/-! ### Sheds (R434) -/

/-- The free pages of the partitions in service, lowest first (R536). -/
def freeSavePages (s : State) (n : Nat) : List Nat :=
  let used := usedPages s.hbm ++ savePages s
  (((List.range 8).filter (partInService s)).flatMap fun p =>
    ((List.range partFree).map (p * partPages + ·)).filter fun q => !used.contains q).take n

/-- The device save of a job at stop k, in the pages given: the first holds header and selection, the others one core record
each (R536). -/
def writeDevSave (j : Job) (k : Nat) (pages : List Nat) (s : State) : State :=
  let s1 := atCores (jobSites j) readForSave s
  let cs := (jobSites j).map fun x => saveCore (getCore s1 x)
  let now := timeNow s
  let d : DevSave := { stop := k, steps := j.steps, tick := now, bucket := j.bucket, ordinal := j.ordinal
                       sel := j.sel.map fun r => (r.ticket, r.row0, r.dims.getD 0 0), cores := cs, pages := pages, valid := true }
  let put := fun (s : State) (w : Nat × List Byte) => unitWriteDev (boxUnit s) (w.1 * 0x400000) w.2 s
  let recs := cs.zipIdx.map fun c => (pages.getD (c.2 + 1) 0, coreRecord j.pkg.vw c.2 c.1)
  let s2 := ((pages.getD 0 0, saveHeader j true k 0 now ++ selBytes j.sel) :: recs).foldl put s1
  modJob j.id (fun j => { j with devSave := some d, recoveries := 0, lastSame := false })
    { s2 with box := { s2.box with saves := sat16 s2.box.saves 1 } }

/-- A cluster that sheds is gated, and its sites are fenced for its cool-down, once no job is placed on it that waits for its
save (R434, R436). -/
def gateCluster (k : Nat) (s : State) : State :=
  if decide ((getCluster s k).thermState = 1) && !(s.jobs.any fun j => j.place.isSome && j.shed.contains k) then
    fenceSites 3 (clusterSites k) (modCluster k (startCool (timeNow s)) s)
  else s

/-- The state of a job at the stop of its device save, in a new placement (R434, R538). -/
def restoreDev (j : Job) (d : DevSave) (s : State) : State :=
  let b := match d.bucket with
    | some b => (j.pkg.buckets[b]?).map fun e => (b, e.inBytes, e.outBytes)
    | none => none
  let s1 := (j.table.zip d.cores).foldl (fun s x => atCore x.1.site (restoreCore x.2 b) s) s
  let a : AtStop := { k := d.stop, ordinal := d.ordinal, final := d.bucket.isNone, exNext := j.exch.length, exBusy := false,
                      outDone := true, released := true }
  modJob j.id (fun j => { j with
    atStop := some a, dispatched := true, resumed := true, stopCount := d.stop, steps := d.steps, ordinal := d.ordinal, shed := []
    devSave := some { d with pages := [] } })
    { s1 with box := { s1.box with resumes := sat16 s1.box.resumes 1 } }

/-- A job that waits without placement after its shed is readmitted and resumed as soon as a placement qualifies (R434). -/
def reviveShed (id : Nat) (s : State) : State :=
  match getJob s id with
  | some j =>
    match j.devSave with
    | some d =>
      let waits := j.shed.any fun k => decide ((getCluster s k).thermState = 1)
      if j.place.isNone && d.valid && (decide (j.st = 1) || decide (j.st = 5)) && !waits then
        match placeJob j s with
        | some r => restoreDev r.1 d r.2
        | none => s
      else s
    | none => s
  | none => s

/-- Every job that waits for a placement after a shed. -/
def reviveSheds (s : State) : State := (s.jobs.map (·.id)).foldl (fun s i => reviveShed i s) s

/-- A job with shed clusters at stop k: saved, its placement retired, the clusters gated, every such job readmitted; with too few
free pages it waits (R434, R536). -/
def shedJob (id k : Nat) (s : State) : State :=
  match getJob s id with
  | some j =>
    let n := (jobSites j).length + 1
    let pages := freeSavePages s n
    if pages.length < n then s
    else
      let s1 := unplaceJob id (writeDevSave j k pages s)
      reviveSheds (j.shed.foldl (fun s c => gateCluster c s) s1)
  | none => s

/-! ### Retirement and the end of a stop -/

/-- RETIRE_JOB takes effect (R456, R516). -/
def retireJob (id : Nat) (s : State) : State :=
  match getJob s id with
  | some j =>
    let s1 := modJob id (fun j => { j with retire := [] }) s
    let s2 := (j.saves.map (·.cmd)).foldl (fun s c => endPart j c 3 0 [] s) (endRequests id 3 s1)
    let s3 := clearSuspect id (releaseJob id (unplaceJob id (modJob id (fun j => { j with saves := [] }) s2)))
    let s4 := j.retire.foldl (fun s c => endPart j c 0 0 [] s)
      (modJob id (fun j => { j with ended := true, st := 0, suspect := false, devSave := none, shed := [] }) s3)
    match getJob s4 id with
    | some x => reviveSheds (reportFrom (wanted s) (if x.waits.isEmpty then dropJob id s4 else s4))
    | none => reviveSheds (reportFrom (wanted s) s4)
  | none => s

/-- What follows at a stop whose exchanges and outputs are done: a save that waits keeps the job there; then a shed, a retirement,
the halt, or the release to continue the step (R190, R434, R456, R522). -/
def settleStop (id : Nat) (s : State) : State :=
  match getJob s id with
  | some j =>
    match j.atStop with
    | some a =>
      if !(a.released && exchDone j a && a.outDone) || (j.saves.any fun w => decide (w.stop = a.k)) then s
      else if !j.shed.isEmpty then shedJob id a.k s
      else
        if !j.retire.isEmpty && (a.final || j.halted) then retireJob id s
        else if j.halted || a.final then s else releaseJobCores id s
    | none => s
  | none => s

/-- Everything that a job at its stop can go on to. -/
def advanceStop (id : Nat) (s : State) : State := settleStop id (returnOutputs id (leaderRelease id s))

/-! ### The yard (R461 to R463) -/

/-- Does the job stand where the yard may start a step: admitted and not dispatched, or at a stop between steps with nothing
else to be done there (R456, R462, R530, R570)? -/
def yardOpen (s : State) (j : Job) : Bool :=
  jobAdmitted j && jobRuns j && !j.loading && j.shed.isEmpty && j.retire.isEmpty && !j.halted && j.resuming.isNone && arbsTaken s j &&
  (!j.suspect || decide (s.box.replaying = some j.id)) &&
  match j.atStop with
  | none => !j.dispatched
  | some a => a.final && a.outDone && a.released && !j.saves.any fun w => decide (w.stop = a.k)

/-- The yard's selection, and whether it ended at a request that did not fit (R462). -/
def yardSelect (s : State) (j : Job) : List Req × Bool :=
  selectStep j.pkg (fun r => !decide (r.rank = treeRank j) || cachedReq s r) j.ready []

end Sys2Proof.Machine
end

