-- ==== Sys2Proof/Machine/RecoveryOps.lean ====
section
/-!
DEFINITION. Sys2Proof/Machine/RecoveryOps.lean: what the signal box does about faults: reports of core faults, hangs, core
deaths, crash dumps, the recovery halt, and the recovery of a job (R549 to R575, R628, R632).
-/

namespace Sys2Proof.Machine

/-! ### Crash dumps (R575) -/

/-- The device physical address of dump slot i of partition q (assumption 130). -/
def dumpAddr (q i : Nat) : Nat := q * partBytes + partFree * 0x400000 + 0x20800000 + i * 0x800000

/-- The next dump slot, taken. -/
def takeSlot (s : State) : Nat × State :=
  (s.errlog.dumpSlot, { s with errlog := { s.errlog with
    dumps := sat16 s.errlog.dumps 1, dumpSlot := (s.errlog.dumpSlot + 1) % 16 } })

/-- A dump reaches slot i of partition (p + 4) mod 8, and waits for its copy to flash. -/
def storeDump (p i : Nat) (bytes : List Byte) (s : State) : State :=
  unitWriteDev (boxUnit s) (dumpAddr ((p + 4) % 8) i) bytes
    { s with errlog := { s.errlog with dumpsUnsaved := s.errlog.dumpsUnsaved ++ [bytes] } }

/-- The sites of a core-fault dump: the faulting core, then the other cores of its region in vcid order, 511 in all. -/
def dumpSites (j : Job) (site : Nat) : List Nat :=
  match siteIndex j.table site with
  | some i =>
    match regionOf j.pkg (i % max 1 j.pkg.vw) (i / max 1 j.pkg.vw) with
    | some r =>
      let rest := (jobSites j).zipIdx.filter fun x =>
        !decide (x.1 = site) && inRegion r (x.2 % max 1 j.pkg.vw) (x.2 / max 1 j.pkg.vw)
      (site :: rest.map (·.1)).take 511
    | none => [site]
  | none => [site]

/-- The records of the cores of some sites. -/
def dumpRecs (s : State) (sites : List Nat) : List (List Byte) := sites.map fun x => dumpRecord (getCore s x)

/-! ### The recovery halt (R628) -/

/-- A recovery halt reaches a core: issue stops, what is queued is discarded, what has started goes on. -/
def haltForRecovery (c : Core) : Core :=
  { c with
    stream := { c.stream with
      state := if c.stream.state = .faulted then .faulted else .halted, haltEn := true, stopKind := .none }
    queue := [], qmat := [], qxfer := [], qsync := [] }

/-- What has not completed in a core after 2^20 cc is abandoned: acknowledgements and a barrier's release are no longer waited for,
and what the slab ports and the vector engine still hold of it is gone. -/
def abandonWork (c : Core) : Core :=
  { c with
    started := [], matrix := { c.matrix with load := none, streams := [] }
    vec := { c.vec with alu := none, load := none, store := none }
    xfer := { c.xfer with
      jobs := [], outs := c.xfer.outs.filter (·.own.isNone), haloOuts := c.xfer.haloOuts.filter (·.own.isNone)
      ins := c.xfer.ins.filter (!·.own), haloIns := c.xfer.haloIns.filter (!·.own) }
    sync := { c.sync with waiting := none }, out := c.out.filter fun p => decide (p.typ = .control) }

/-- What has not completed in the job's cores 2^20 cc after their halt is abandoned; a packet being injected ends with an ABORT
tail. -/
def abandonJob (j : Job) (s : State) : State :=
  let t := atCores (jobSites j) abandonWork s
  { t with mesh := (jobSites j).foldl (fun m x => stopFeeds x m) t.mesh }

/-- Has everything that the core started come to its end? -/
def workDone (c : Core) : Bool :=
  c.started.isEmpty && c.xfer.jobs.isEmpty && c.matrix.load.isNone && c.matrix.streams.isEmpty && c.sync.waiting.isNone

/-- Saves that wait at a job that a recovery or a reset halts are abandoned (R568, R632). -/
def abandonSaves (id : Nat) (s : State) : State :=
  match getJob s id with
  | some j => j.saves.foldl (fun s w => endPart j w.cmd 3 0 [] s) (putJob { j with saves := [] } s)
  | none => s

/-- The requests of a step that has not ended return to the front of the ready list in acceptance order, with their tickets and the
input digests kept with them; the step's energy goes to the house account (R483, R541, R555). -/
def requeue (id : Nat) (s : State) : State :=
  match getJob s id with
  | some j =>
    let back := (j.sel.filter fun r => !r.inFailed && !r.orphan && decide (treeRank j = 0 ∨ r.rank = treeRank j)).map fun r => { r with row0 := 0 }
    let front := back.foldl (fun l r => insertReq r l) []
    { putJob { j with
        ready := front ++ j.ready, sel := [], bucket := none, loading := false, awaitRows := [], atStop := none, early := []
        arrived := [], collect := none } s with
      meter := abandonStep s.meter id (if j.atStop.any fun a => a.final && !a.outDone then some j.steps else none) }
  | none => s

/-- Every core of the job is halted (R555, R565). -/
def haltJob (id : Nat) (s : State) : State :=
  match getJob s id with
  | some j =>
    let s1 := atCores (jobSites j) haltForRecovery (putJob { j with st := 2, haltOver := false } s)
    requeue id (abandonSaves id s1)
  | none => s

/-! ### Causes (R550, R558) -/

/-- The status with which a fault ends the job instead of a recovery, if it does: the same fault again from the same checkpoint, or a
fourth recovery from it (R558). -/
def faultEnds (j : Job) (code vcid icount : Nat) : Option Nat :=
  if code ≠ 0 ∧ j.lastSame ∧ j.lastCode = code ∧ j.lastVcid = vcid ∧ j.lastIcount = icount then some (if code = 3 then 8 else 3)
  else if j.recoveries ≥ 3 then some 3
  else none

/-- The job ends with RELOAD_NEEDED or another status (R558, R559). -/
def endBy (id status : Nat) (s : State) : State := if status = 8 then reloadJob id s else endJob id status none true s

/-- Does a fault in the job's cores start something: it is placed, runs, replays or waits in RESUME_WAIT, and no recovery is due? -/
def mayRecover (j : Job) : Bool :=
  !j.ended && j.place.isSome && (decide (j.st = 1) || decide (j.st = 3) || decide (j.st = 5)) && j.cause.isNone

/-- A recovery of the job is due, or the job ends (R555, R558). -/
def causeJob (id : Nat) (c : Cause) (s : State) : State :=
  match getJob s id with
  | some j =>
    if mayRecover j then
      match faultEnds j c.code c.vcid c.icount with
      | some st => endBy id st s
      | none => putJob { j with cause := some c } s
    else s
  | none => s

/-- A cause without a core fault. -/
def Cause.plain : Cause := { code := 0, vcid := 0, icount := 0, site := none, seq := 0, dump := none, told := false }

/-! ### Hangs (R563, R565, R570) -/

/-- A partition is to be reset; a reset of it that is due or under way takes in the new one (R565, R568). -/
def addReset (p : Nat) (hang : Bool) (only : Option Nat) (s : State) : State :=
  if s.box.partsOut.contains p then s
  else if s.box.resets.any fun r => decide (r.part = p) then
    { s with box := { s.box with resets := s.box.resets.map fun r =>
        if r.part = p ∧ !r.begun then { r with hang := r.hang || hang } else r } }
  else { s with box := { s.box with resets := s.box.resets ++ [{ part := p, begun := false, hang := hang, only := only, jobs := [] }] } }

/-- The partitions that hold cores of a job. -/
def jobParts (j : Job) : List Nat := (List.range 8).filter fun p => (jobSites j).any fun x => decide (siteField x = p)

/-- A replay fails: a dump, the job quarantined, its partitions reset again with it as the only suspect, and the other suspects back
in normal service (R570). -/
def replayFail (id : Nat) (s : State) : State :=
  match getJob s id with
  | some j =>
    let t := takeSlot (haltJob id s)
    let seq := t.2.errlog.nextSeq
    let s1 := logEvent { LogEvent.of 7 with job := id, stop := j.stopCount, dump := t.1 } t.2
    let sites := (jobSites j).take 511
    let s2 := storeDump (siteField (sites.headD 0)) t.1 (dumpBytes seq 7 0xFF (timeNow s) [id] [] (dumpRecs s1 sites)) s1
    let s3 := unplaceJob id (endRequests id 3 s2)
    let s4 := modJob id (fun j => { j with st := 6, cause := none, shed := [] }) s3
    let s5 := { s4 with
      jobs := s4.jobs.map fun x => if x.id = id then x else { x with suspect := false }
      box := { s4.box with suspects := [id], replaying := none, replayBad := true }
      errlog := { s4.errlog with quarantines := sat16 s4.errlog.quarantines 1 } }
    (jobParts j).foldl (fun s p => addReset p true (some id) s) s5
  | none => s

/-- A hang of the job: its partitions are reset, or its replay fails (R565, R570). -/
def hangJob (id : Nat) (c : Cause) (s : State) : State :=
  match getJob s id with
  | some j =>
    if !mayRecover j then s
    else if s.box.replaying = some id ∧ j.st = 5 then replayFail id s
    else (jobParts j).foldl (fun s p => addReset p true none s) (putJob { j with cause := some c } s)
  | none => s

/-! ### Fault reports -/

/-- A core's fault report reaches the signal box: it is logged, and the job recovers, ends, or its partitions are reset (R550, R555,
R563, R575). -/
def reportFault (site code icount : Nat) (s : State) : State :=
  let c := getCore s site
  let vcid := coreVcid c.place
  let ev := { LogEvent.of 1 with code := code, vcid := vcid, icount := icount, unit := if code = 4 then unitCore site else 0 }
  match if c.place.placed then getJob s c.place.job else none with
  | none => logEvent ev s
  | some j =>
    let e := { ev with job := j.id, stop := j.stopCount }
    let cause : Cause := { Cause.plain with code := code, vcid := vcid, icount := icount }
    if !mayRecover j then logEvent e s
    else if code = 3 ∨ code = 4 ∨ code = 11 then
      match faultEnds j code vcid icount with
      | some st => endBy j.id st (logEvent e s)
      | none =>
        let t := takeSlot s
        causeJob j.id { cause with site := some site, seq := t.2.errlog.nextSeq, dump := some t.1 } (logEvent { e with dump := t.1 } t.2)
    else if code = 5 ∨ code = 6 then hangJob j.id cause (logEvent e s)
    else endJob j.id 3 none true (logEvent e s)

/-- The ids of the jobs with a core at one of the sites. -/
def jobsAt (s : State) (sites : List Nat) : List Nat :=
  (s.jobs.filter fun j => !j.ended && (jobSites j).any sites.contains).map (·.id)

/-- A cluster has gone dark: its sites are fenced, its ports closed, what its cores held is gone; its jobs recover (R405, R407,
R561). -/
def clusterDeath (k : Nat) (s : State) : State :=
  let ids := jobsAt s (clusterSites k)
  let s1 := updateSpares (darkSites k s)
  let s2 := match ids with
    | [] => s1
    | i :: _ => logEvent { LogEvent.of 4 with job := i } s1
  ids.foldl (fun s i => causeJob i Cause.plain s) s2

/-! ### The recovery of a job (R555 to R560) -/

/-- Is a partition that holds a core of the job, or for `pages` one of its pages, to be reset or in reset? -/
def resetNear (s : State) (j : Job) (pages : Bool) : Bool :=
  s.box.resets.any fun r =>
    (jobParts j).contains r.part ||
    (pages && (runEntries s.hbm j.id).any fun e => entValid (pageEntry s.hbm e) && decide (entPage (pageEntry s.hbm e) / partPages = r.part))

/-- Steps 1 to 3 of a recovery: the halt, the dump, the requests back, the count and the log; a job of several modules tells its tree
(R555, R558, R560, R575). -/
def startRecovery (j : Job) (c : Cause) (s : State) : State :=
  match faultEnds j c.code c.vcid c.icount with
  | some st => endBy j.id st s
  | none =>
    let s1 := if j.st = 2 then s else haltJob j.id s
    let s2 := match c.site, c.dump with
      | some x, some i =>
        storeDump (siteField x) i (dumpBytes c.seq 1 0xFF (timeNow s) [j.id] [] (dumpRecs s1 (dumpSites j x))) s1
      | _, _ => s1
    let s3 := logEvent { LogEvent.of 2 with
      job := j.id, code := c.code, vcid := if c.code = 0 then 0xFFFFFFFF else c.vcid, stop := j.stopCount, icount := c.icount } s2
    let s4 := { s3 with errlog := { s3.errlog with recoveries := sat16 s3.errlog.recoveries 1 } }
    let s5 := modJob j.id (fun j => { j with
      st := 2, cause := none, recoveries := min 255 (j.recoveries + 1), lastCode := c.code, lastVcid := c.vcid, lastIcount := c.icount
      lastSame := true }) s4
    if treeSize j > 1 ∧ !c.told then
      msgTo j 0xFE { TMsg.blank with typ := 5, kind := 0, inl := madeDesc 4 j.id } s5
    else s5

/-- The state of a job that goes on after its recovery. -/
def liveSt (j : Job) : Nat := if j.suspect then 5 else 1

/-- A restart from admission: all its memory zero, no step taken; CRAZED stays on the pages that have it (R367, R527, R557). -/
def restartJob (j : Job) (s : State) : State :=
  match placeJob { j with st := liveSt j, steps := 0, stopCount := 0, ordinal := 0, dispatched := false, resumed := false, atStop := none
                          shed := [], cause := none, haltOver := false, replayStop := j.resetMark
                          wtDigest := List.replicate 32 0#8, stepWt := List.replicate 32 0#8 } s with
  | none => endJob j.id 6 none true s
  | some r => { r.2 with hbm := zeroJobPages r.2.hbm j.id }

/-- Has the job a page with W set outside its step arena (R557)? -/
def holdsState (s : State) (j : Job) : Bool :=
  (List.range j.pages).any fun p =>
    (match entryIndex s.hbm j.id (p * 0x400000) with
      | some i => entW (pageEntry s.hbm i)
      | none => false) &&
    !(decide (p * 0x400000 < j.pkg.arenaVa + j.pkg.inMax + j.pkg.outMax) && decide (j.pkg.arenaVa < (p + 1) * 0x400000))

/-! ### Tests of clusters and cores (R403, R406, R415, R581, R582) -/

/-- Slices that the fault history keeps out of service (Table 19.6). -/
def sliceOut (s : State) (k i : Nat) : Bool := s.history.permanent.contains (unitSlice k i)

/-- A cluster's four slices are tested at its power-up: its regulator starts with three good ones, and each failure is an event. -/
def testCluster (tests : List SliceTest) (s : State) (k : Nat) : State :=
  let good := match tests.find? fun t => decide (t.cluster = k) with
    | some t => t.good
    | none => 0xF#4
  let ok := (List.range 4).foldl (fun (m : BitVec 4) i => if good.getLsbD i && !sliceOut s k i then setField m i 1 1 else m) 0#4
  let bad := (List.range 4).filter fun i => !good.getLsbD i && !sliceOut s k i
  let s1 := modCluster k (fun c => powerCluster { c with sliceFails := sat16 c.sliceFails bad.length } ok) s
  histEvents (bad.map (unitSlice k)) s1

/-- A core fails slab BIST or the witness self-test: fenced until the next module reset, and entered in the fault history. -/
def failCore (s : State) (t : CoreTest) : State :=
  let us := t.banks.map (unitBank t.site) ++ (if t.witness then [unitCore t.site] else [])
  let s1 := { s with box := { s.box with kiln := if s.box.kiln.contains t.site then s.box.kiln else s.box.kiln ++ [t.site] } }
  histEvents us (fenceSites 1 [t.site] s1)

/-- A temporary fence of a site ends: its cluster is on and not cooling, and nothing else keeps it out (R296, R328). -/
def endFence (s : State) (x : Nat) : State :=
  if coreLive s x && decide ((getCluster s (siteCluster x)).thermState ≤ 1) && !s.box.kiln.contains x && !permanentSite s x then
    openPort x (putCore x { getCore s x with fenced := false } s)
  else s

end Sys2Proof.Machine
end

