-- ==== Sys2Proof/Machine/PowerCmds.lean ====
section
/-!
DEFINITION. Sys2Proof/Machine/PowerCmds.lean: feeds, rails, slices, core waves, estimates, the cap, temperatures and the critical
trip (R392 to R440).
-/

namespace Sys2Proof.Machine

/-! ### Feeds (R392 to R397) -/

/-- A change of the feeds, while the power stage is on a feed. -/
def onFeeds (f : Feeds → Feeds) (s : State) : State :=
  if s.boot.feedGood then { s with power := { s.power with feeds := f s.power.feeds } } else s

/-- FEED_A_LOW (R393). -/
def execFeedALow (aMv bMv : Nat) (s : State) : Out := answer true (onFeeds (fun f => feedALow f aMv bMv) s)

/-- FEED_A_RECOVERED (R395). -/
def execFeedARecovered (aMv bMv : Nat) (s : State) : Out := answer true (onFeeds (fun f => feedARecovered f aMv bMv) s)

/-- FEED_B_LOW (R396). -/
def execFeedBLow (aMv bMv : Nat) (s : State) : Out := answer true (onFeeds (fun f => feedBLow f aMv bMv) s)

/-- Every rail goes off and the module starts again from step 1 once a feed is good (R397, R402, R587); counted in OFF. `gasp` says
that R397 was the cause. -/
def powerOff (gasp : Bool) (s : State) : State :=
  let t := allRailsOff s
  { t with
    power := { t.power with feeds := { t.power.feeds with lastGasp := gasp, off := sat16 t.power.feeds.off 1 } }
    boot := { t.boot with feedGood := false, box2 := false } }

/-- Both feeds are below 10.2 V for 5 µs: a last record, and the power-off (R397). -/
def feedsGone (aMv bMv : Nat) (s : State) : State :=
  let t := lastGasp 1 s
  powerOff true { t with power := { t.power with feeds := readFeeds t.power.feeds aMv bMv } }

/-- BOTH_FEEDS_LOW (R397). -/
def execBothFeedsLow (aMv bMv : Nat) (s : State) : Out :=
  answer true (if s.boot.feedGood && bothLow aMv bMv then feedsGone aMv bMv s else s)

/-! ### The cap (R423 to R429) -/

/-- CAP_CHANGE: the cap in effect is formed again (R423, R424, R426). -/
def execCapChange (s : State) : Out :=
  answer true
    (if isReady s.boot then
      reporting (fun s => { s with power := capChange s.power (imageVals s) s.fuses.grade s.clock }) s
    else s)

/-- HOST_CAP takes a value (R423). -/
def setHostCap (watts : Nat) (s : State) : State :=
  { s with power := { s.power with pm := { s.power.pm with hostCap := watts % 65536 } } }

/-- HOST_CAP_WRITE, through the mailbox (R423). -/
def execHostCapWrite (watts : Nat) (s : State) : Out := answer true (if s.boot.box2 then setHostCap watts s else s)

/-- POWER_AVERAGES: 100 µs of measured feed power (R424 to R427). -/
def execPowerAverages (watts : Nat) (s : State) : Out :=
  answer true
    (if isReady s.boot then
      reporting (fun s => { s with power := powerAverages s.power (imageVals s) s.fuses.grade s.clock watts }) s
    else s)

/-! ### Rails and clusters (R402 to R418) -/

/-- The clusters of a field. -/
def fieldClusters (f : Nat) : List Nat := (List.range 640).filter fun k => decide (clusterField k = f)

/-- Is the cluster powering or on? -/
def clusterUp (s : State) (k : Nat) : Bool :=
  decide ((getCluster s k).state = 1) || decide ((getCluster s k).state = 2)

/-- A field rail has run out of phases: its clusters go dark, its channel controllers and PHYs lose their supply with the requests that
wait there, and its partition is handled as a reset one that does not return (R27, R400, R402). The requests are answered FENCED, as
in a reset (R565). DEDUCED (assumption 120). -/
def fieldRailLost (f : Nat) (s : State) : State :=
  let up := (fieldClusters f).filter (clusterUp s)
  addReset f false none (up.foldl (fun s k => clusterDeath k s) (dropRequests f { s with power := darkRail s.power f }))

/-- Is phase i of a rail that is on in service? -/
def phaseLive (r : Rail) (mesh : Bool) (i : Nat) : Bool :=
  if mesh then r.meshOn && decide (i < 8) && r.meshPh.getLsbD i else r.fieldOn && decide (i < 24) && r.fieldPh.getLsbD i

/-- A phase fails: disconnected, counted, entered, with what follows when too few are left (R402). -/
def railPhaseFail (f : Nat) (mesh : Bool) (i : Nat) (s : State) : State :=
  if !phaseLive (getRail s.power f) mesh i then s
  else
    let s1 := histEvent (unitPhase f mesh i) { s with power := modRail s.power f fun r => phaseFail r mesh i }
    let n := failedPhases (getRail s1.power f) mesh
    if mesh then (if n > 4 then powerOff false s1 else s1)
    else if n > 2 then fieldRailLost f s1
    else s1

/-- RAIL_PHASE_FAIL (R402). -/
def execRailPhaseFail (field : Nat) (meshRail : Bool) (phase : Nat) (s : State) : Out :=
  answer (instrOk (.railPhaseFail field meshRail phase)) (railPhaseFail field meshRail phase s)

/-- Slices of a cluster that runs fail (R403 to R405). -/
def slicesFail (k : Nat) (slices : List Nat) (s : State) : State :=
  if !clusterUp s k then s
  else
    let r := sliceFail (getCluster s k) slices
    let s1 := histEvents (r.2.map (unitSlice k)) (modCluster k (fun _ => r.1) s)
    if r.1.state = 3 then clusterDeath k s1 else s1

/-- SLICE_FAIL (R403). -/
def execSliceFail (cluster : Nat) (slices : List Nat) (s : State) : Out :=
  answer (instrOk (.sliceFail cluster slices)) (slicesFail cluster slices s)

/-- CLUSTER_SHORT: more than 30 A for over 1 µs (R413). -/
def execClusterShort (cluster : Nat) (s : State) : Out :=
  answer (clusterOk cluster)
    (if clusterUp s cluster then clusterDeath cluster (modCluster cluster shortCluster s) else s)

/-- A field rail comes up with the phases that the fault history leaves it; with more than two out it stays off (R402, Table 19.6). -/
def startFieldRail (s : State) (f : Nat) : State :=
  let ph := (List.range 24).foldl (fun (m : BitVec 24) i =>
    if s.history.permanent.contains (unitPhase f false i) then m else setField m i 1 1) 0#24
  let s1 := { s with power := modRail s.power f fun r => { r with fieldPh := ph, fieldOn := true } }
  if failedPhases (getRail s1.power f) false > 2 then { s1 with power := darkRail s1.power f } else s1

/-- The clusters of cluster row r in every field: those of core rows 2r and 2r + 1. -/
def waveClusters (r : Nat) : List Nat := (List.range 640).filter fun k => decide (k / 32 % 10 = r)

/-- The wave of a north row: the regulators of its clusters whose field rail is on start, and settle before it; a cluster that stays
dark is fenced (R405, R406, R415, R416). -/
def northWave (r : Nat) (tests : List SliceTest) (s : State) : State :=
  let ks := waveClusters r
  let s1 := (ks.filter fun k => (getRail s.power (clusterField k)).fieldOn).foldl (testCluster tests) s
  fenceSites 2 ((ks.filter fun k => !decide ((getCluster s1 k).state = 1)).flatMap clusterSites) s1

/-- Wave w of the power-up of all fields: with row 0 the field rails come up; a cluster's power-up takes the waves of its two rows
(R415, R416, R581). -/
def coreWave (w : Nat) (tests : List SliceTest) (s : State) : State :=
  let s1 := if w = 0 then (List.range 8).foldl startFieldRail s else s
  let s2 := if w % 2 = 0 then northWave (w / 2) tests s1 else (waveClusters (w / 2)).foldl (fun s k => modCluster k clusterOn s) s1
  { s2 with boot := { s2.boot with wavesDone := w + 1 } }

/-- CORE_WAVE: the next wave of step 5, in all eight fields (R415, R581). The waves of a partition reset are part of its end. -/
def execCoreWave (row : Nat) (fields : List Nat) (tests : List SliceTest) (s : State) : Out :=
  answer (instrOk (.coreWave row fields tests))
    (if s.boot.phase = 5 ∧ row = s.boot.wavesDone ∧ (List.range 8).all fields.contains then coreWave row tests s else s)

/-- CRACK_SUSPECT (R417, R418). -/
def execCrackSuspect (cluster : Nat) (s : State) : Out :=
  answer (clusterOk cluster)
    (if (getCluster s cluster).state = 2 then updateSpares (histEvent (unitCluster cluster) (modCluster cluster crackCluster s)) else s)

/-! ### Estimates (R420 to R422, R479) -/

/-- Do the power manager and the regulators of the cluster work: its field rail is on? -/
def estimating (s : State) (k : Nat) : Bool := (getRail s.power (clusterField k)).fieldOn

/-- The energy of a core's activity by category, after the gain (R479, Table 16.1). -/
def coreCats (pm : PwrMgr) (a : Activity) : Cats :=
  { compute := withGain pm (a.cols * pm.wCol + a.vec * pm.wVec), memory := withGain pm (a.slab * pm.wSlab)
    links := withGain pm (a.xfer * pm.wXfer), static_ := 0 }

/-- The step that the core placed on a site has in flight (R479). -/
def siteAcc (s : State) (x : Nat) : Option (Nat × Nat) :=
  let p := (getCore s x).place
  if p.placed then inFlight s.meter p.job else none

/-- A site's part of an interval of its cluster: its activity and its share of the static term (R479). -/
def tagSite (k share : Nat) (s : State) (i : Nat) : State :=
  let x := (clusterSites k).getD i 0
  let c := getCore s x
  let acc := ((getCluster s k).accs.getD i none)
  let e := (coreCats s.power.pm c.activity).add { Cats.zero with static_ := share }
  let s1 := putCore x { c with activity := { cols := 0, slab := 0, vec := 0, xfer := 0 } } s
  { s1 with meter := tagAcc s1.meter acc e }

/-- The end of a cluster's 2 µs interval: its estimate, its regulator's sensors, and its terms to their accounts (R408, R409, R420,
R421, R479). -/
def clusterEstimate (k : Nat) (sensors : List Nat) (s : State) : State :=
  let c := getCluster s k
  let pm := s.power.pm
  let act := (clusterSites k).foldl (fun (n : Nat) x => n + activityFj pm (getCore s x).activity) 0
  let st := Config.staticTerm k c.vout c.temp
  let s1 := { s with power := setEstimate s.power (imageVals s).clMax k (act + st) }
  let g := withGain pm st
  let s2 := (List.range 4).foldl (tagSite k (g / 4)) s1
  let s3 := { s2 with meter := tagAcc s2.meter none { Cats.zero with static_ := g % 4 } }
  let s4 := modCluster k (fun c => { c with accs := (clusterSites k).map (siteAcc s3) }) s3
  if c.state = 1 ∨ c.state = 2 then
    modCluster k (fun c => senseCluster c (fieldCc s.mesh (clusterField k)) (fieldRc s (clusterField k)) sensors) s4
  else s4

/-- CLUSTER_ESTIMATE (R420). -/
def execClusterEstimate (cluster : Nat) (sensors : List Nat) (s : State) : Out :=
  answer (clusterOk cluster) (if estimating s cluster then clusterEstimate cluster sensors s else s)

/-- Counts of the jobs named, each weighted by w and given to the job's step in flight when the interval began (R479). -/
def tagCounts (mk : Nat → Cats) (w : Nat) (l : List (Nat × Nat)) (s : State) : State :=
  l.foldl (fun s e =>
    { s with meter := tagAcc s.meter (s.power.pm.accs.find? fun a => decide (a.1 = e.1)) (mk (withGain s.power.pm (e.2 * w))) }) s

/-- The total of some counts. -/
def countSum (l : List (Nat × Nat)) : Nat := l.foldl (fun (n : Nat) e => n + e.2) 0

/-- The die estimate from the HBM grants and mesh flits counted since the last one and the trunk and host flits, and its field and
module terms to their accounts; the counts restart (R420, R479, R480). -/
def dieEstimates (links : List (Nat × Nat)) (s : State) : State :=
  let v := imageVals s
  let hbm := s.hbm.grants
  let flits := s.mesh.flits
  let mem := fun e => { Cats.zero with memory := e }
  let lnk := fun e => { Cats.zero with links := e }
  let s1 := tagCounts lnk v.wLink links (tagCounts lnk v.wFlit flits (tagCounts mem v.wHbm hbm s))
  let s2 := { s1 with meter := tagAcc s1.meter none { Cats.zero with static_ := withGain s.power.pm v.wFixed } }
  let pm := dieEstimate s2.power.pm v (countSum hbm) (countSum flits) (countSum links)
  { s2 with
    hbm := { s2.hbm with grants := [] }
    mesh := { s2.mesh with flits := [] }
    power := { s2.power with pm := { pm with accs := (s2.meter.steps.filter (·.running)).map fun a => (a.job, a.step) } } }

/-- Does the power manager run: a signal box has been chosen, and the module is neither stopped nor off (assumption 128)? -/
def managerRuns (s : State) : Bool := s.boot.box2 && s.boot.feedGood && !s.tripped && decide (s.boot.phase ≠ 9)

/-- The trunk and host flits of an interval by job, those of the signal box under a job id that names none (R420, R479). -/
def linkCounts (trunkFlits hostFlits : List (Nat × Nat)) (boxFlits : Nat) : List (Nat × Nat) := trunkFlits ++ hostFlits ++ [(32, boxFlits)]

/-- DIE_ESTIMATE: the trunk and the host flits of 4 µs by job, and those of packets from the signal box (R420). -/
def execDieEstimate (trunkFlits hostFlits : List (Nat × Nat)) (boxFlits : Nat) (s : State) : Out :=
  answer true (if managerRuns s then dieEstimates (linkCounts trunkFlits hostFlits boxFlits) s else s)

/-- RECONCILE_GAIN: the measured µJ of a millisecond (R422). -/
def execReconcileGain (measured : Nat) (s : State) : Out :=
  answer true
    (if managerRuns s then { s with power := { s.power with pm := reconcile s.power.pm (measured * 1000000000) } } else s)

/-! ### Temperatures (R430 to R438) -/

/-- A cluster starts to shed: each job with a core there is bound for its next stop; one that has not started a step moves at once,
and a cluster with none is gated at once (R433, R434, R437). -/
def shedCluster (s : State) (k : Nat) : State :=
  let ids := jobsAt s (clusterSites k)
  let s1 := ids.foldl (fun s i => modJob i (fun j => { j with shed := if j.shed.contains k then j.shed else j.shed ++ [k] }) s) s
  if ids.isEmpty then gateCluster k s1
  else ids.foldl (fun s i =>
    match getJob s i with
    | some j =>
      if !jobRuns j || j.loading then s
      else if j.atStop.isSome then advanceStop i s
      else if !j.dispatched then shedJob i 0 s
      else s
    | none => s) s1

/-- A reading of sensors, those of dark clusters among them (R430, R431, R433). -/
def thermalReading (temps : List (Nat × Nat)) (s : State) : State :=
  let r := readTemps s.power s.clock.div temps
  r.2.foldl shedCluster { s with power := r.1 }

/-- THERMAL_READING (R430). -/
def execThermalReading (temps : List (Nat × Nat)) (s : State) : Out :=
  answer (instrOk (.thermalReading temps)) (if managerRuns s then reporting (thermalReading temps) s else s)

/-- THERMAL_DIVIDER_STEP (R431). -/
def execThermalDividerStep (s : State) : Out :=
  answer true (reporting (fun s => { s with power := thermalStep s.power s.fuses.grade }) s)

/-- The 30 s of a cool-down have passed (R296, R434, R436). -/
def coolDownEnd (k : Nat) (s : State) : State :=
  let r := endCool (getCluster s k)
  let s1 := modCluster k (fun _ => r.1) (reachTick (getCluster s k).coolEnd s)
  if r.2 then reviveSheds (updateSpares ((clusterSites k).foldl endFence s1))
  else { s1 with power := { s1.power with therm := { s1.power.therm with extensions := sat16 s1.power.therm.extensions 1 } } }

/-- COOL_DOWN_END (R436). -/
def execCoolDownEnd (cluster : Nat) (s : State) : Out :=
  answer (clusterOk cluster) (if (getCluster s cluster).thermState ≥ 2 then coolDownEnd cluster s else s)

/-- A comparator trips: a last record, every rail off, TRIPPED set (R438). -/
def criticalTrip (s : State) : State := { allRailsOff (lastGasp 3 s) with tripped := true }

/-- CRITICAL_TRIP (R438). -/
def execCriticalTrip (s : State) : Out :=
  answer true (if s.boot.standby && s.boot.feedGood && !s.tripped then criticalTrip s else s)

end Sys2Proof.Machine
end

