-- ==== Sys2Proof/Machine/BootCmds.lean ====
section
/-!
DEFINITION. Sys2Proof/Machine/BootCmds.lean: bring-up: feeds, signal box, image, bisque firing, core self-tests, HBM training, glaze
firing, READY, stops; module reset; the flash switch and the loss of the standby plane (R577 to R593, R612, R626).
-/

namespace Sys2Proof.Machine

/-! ### Stops and steps 1 to 3 (R577 to R579, R586 to R589) -/

/-- A step fails: every rail off, PHASE STOPPED with its cause, a boot record, which for cause WIRE names the links; the host ports
stay as far as they came once step 3 has completed (R36, R586). DESIGN CHOICE: the record is where the links are reported
(assumption 115). -/
def bootStopAt (cause : Nat) (links : List Nat) (s : State) : State :=
  let t := allRailsOff s
  let b := s.boot
  { t with
    hosts := if 4 ≤ b.phase then s.hosts else t.hosts
    boot := { t.boot with
      phase := 9, lastPhase := b.phase, cause := cause
      records := if b.box2 then b.records ++ [{ phase := b.phase, cause := cause, links := links }] else b.records } }

/-- A step fails for a cause that names no link. -/
def bootStop (cause : Nat) (s : State) : State := bootStopAt cause [] s

/-- Step 3 starts, or waits in reset; after a trip or a loss of the root clock only a module reset leads on (R578, R587, R592). -/
def afterStep2 (b : Boot) (barred : Bool) : Boot :=
  if barred then { b with phase := 0 }
  else if b.inReset then { b with phase := 1 }
  else { b with phase := 3, checkB := false }

/-- Has a trip or a loss of the root clock ended the run of the module until its reset (R375, R438, R587)? -/
def barred (s : State) : Bool := s.tripped || s.clock.lost

/-- A feed is good: the standby plane is up, the flash switch opens, the address strap is sampled, step 1 runs (R578, R603, R612,
R613). -/
def startFeed (aMv bMv strap : Nat) (s : State) : State :=
  let f := readFeeds s.power.feeds aMv bMv
  { s with
    power := { s.power with feeds := { f with onB := !f.aGood } }
    boot := { s.boot with standby := true, feedGood := true, smbAddr := strap % 8, flashClosed := false, phase := 0 } }

/-- FEED_GOOD (R578, R587). -/
def execFeedGood (aMv bMv strap : Nat) (s : State) : Out :=
  answer (instrOk (.feedGood aMv bMv strap))
    (if !s.boot.feedGood && (decide (aMv ≥ 10800) || decide (bMv ≥ 10800)) then startFeed aMv bMv strap s else s)

/-- Step 2: signal box A unless it fails its ROM self-test, then B; with neither NO_BOX (R579). -/
def chooseBox (aOk bOk : Bool) (s : State) : State :=
  if aOk || bOk then { s with boot := afterStep2 { s.boot with box2 := true, boxB := !aOk } (barred s) }
  else { s with boot := { s.boot with noBox := true } }

/-- SIGNAL_BOX_SELF_TEST (R579). -/
def execSignalBoxSelfTest (aOk bOk : Bool) (s : State) : Out :=
  answer true
    (if s.boot.feedGood && !s.boot.box2 && !s.boot.noBox && decide (s.boot.phase ≠ 9) then chooseBox aOk bOk s else s)

/-- The first byte of an image copy in flash (Table 20.3). -/
def copyBase (copyB : Bool) : Nat := if copyB then 0x10000000 else 0

/-- A copy is checked: accepted, or rejected; with both rejected the module stops (R589). -/
def checkImage (copyB readOk sigOk : Bool) (v : ImageVals) (s : State) : State :=
  let h := flashBytes s.flash (copyBase copyB) 0x300
  let r := imageResult h readOk sigOk s.fuses
  let b := if copyB then { s.boot with bResult := r } else { s.boot with aResult := r }
  if r = 1 then
    let ver := fieldLE h 0x10 4
    { s with
      boot := { b with phase := 4, copyB := copyB, version := ver, image := some { v with version := ver } }
      trunks := (List.range 12).foldl (fun m n => smMod TPort.reset m n fun t => { t with present := t.rawPresent }) s.trunks }
  else if copyB then bootStop 1 { s with boot := b }
  else { s with boot := { b with checkB := true } }

/-- IMAGE_CHECK: copy A first, copy B once A is rejected. `values` are the values that an accepted copy holds (R589, assumption 16). -/
def execImageCheck (copyB readOk sigOk : Bool) (values : ImageVals) (s : State) : Out :=
  answer true (if s.boot.phase = 3 ∧ copyB = s.boot.checkB then checkImage copyB readOk sigOk values s else s)

/-! ### Bisque firing (R580) -/

/-- The mesh rails come up with the phases that the fault history leaves them (R401, Table 19.6). -/
def startMeshRails (s : State) : State :=
  let ph := fun (f : Nat) => (List.range 8).foldl (fun (m : BitVec 8) i =>
    if s.history.permanent.contains (unitPhase f true i) then m else setField m i 1 1) 0#8
  { s with power := (List.range 8).foldl (fun p f => modRail p f fun r => { r with meshPh := ph f, meshOn := true }) s.power }

/-- Is every mesh rail within its failed phases (R402)? -/
def meshRailsOk (s : State) : Bool := (List.range 8).all fun f => decide (failedPhases (getRail s.power f) true ≤ 4)

/-- The permanent data banks of a site. -/
def permanentBanks (h : History) (site : Nat) : List Nat :=
  (List.range 32).filter fun b => h.permanent.contains (unitBank site b)

/-- The sites at which the fault history or the image names a slab bank. -/
def bankSites (v : ImageVals) (h : History) : List Nat :=
  (v.badBanks.map (fun (x : Nat × Nat) => x.1) ++ (h.permanent.filter fun u => decide (u / 2 ^ 28 = 2)).map (· % 2 ^ 12)).eraseDups

/-- The logical bank that the spare bank of a site takes: as test assigned it, else the lowest bank that is bad or permanent (R134). -/
def spareOf (fu : Fuses) (v : ImageVals) (h : History) (site : Nat) : Option Nat :=
  match fu.spares.find? fun (x : Nat × Nat) => decide (x.1 = site) with
  | some x => some x.2
  | none => ((v.badBanks.filter fun (x : Nat × Nat) => decide (x.1 = site)).map (fun (x : Nat × Nat) => x.2) ++ permanentBanks h site).min?

/-- Spare banks are assigned (R134). -/
def assignSpares (v : ImageVals) (s : State) : State :=
  ((s.fuses.spares.map (·.1) ++ bankSites v s.history).eraseDups.filter siteOk).foldl (fun s x =>
    let c := getCore s x
    putCore x { c with slab := { c.slab with spare := spareOf s.fuses v s.history x } } s) s

/-- Sites whose bad banks the spare cannot all stand for. -/
def bankFences (fu : Fuses) (v : ImageVals) (h : History) : List Nat :=
  (bankSites v h).filter fun x => (v.badBanks.any fun b => decide (b.1 = x) && !decide (spareOf fu v h x = some b.2))

/-- The cores to fence for pairs of sites that choose_route refuses with NOROUTE. Such a pair has bypassed routers at both turn points
(R314, R316). -/
def routeFences (m : Mesh) (byp : List Nat) : List Nat :=
  (byp.flatMap fun a => byp.filterMap fun b =>
    let src := siteY a * 64 + siteX b
    let dst := siteY b * 64 + siteX a
    if bypassed m (siteX src) (siteY src) || bypassed m (siteX dst) (siteY dst) then none
    else match chooseRoute m src dst with
      | .refuse 4 => some (if edgeEntry dst then src else dst)
      | _ => none).eraseDups

/-- The routers of a field's outer row in column group g (R25). -/
def groupRouters (f g : Nat) : List Nat :=
  let y := if f < 4 then 0 else 39
  [y * 64 + 16 * (f % 4) + 2 * g, y * 64 + 16 * (f % 4) + 2 * g + 1]

/-- Is an edge unit without an unbypassed router (R318)? -/
def edgeCut (byp : List Nat) : Bool :=
  ((List.range 8).any fun f => (List.range 8).any fun g => (groupRouters f g).all byp.contains) ||
  sideUnits.any fun u => (unitRouters u).all byp.contains

/-- The bypass map is loaded; every local port stays closed until its core has been tested (R312, R332). -/
def loadBypass (byp : List Nat) (m : Mesh) : Mesh :=
  { m with ports := (List.range 2560).map fun x =>
      (x, { getPort m x with bypass := byp.contains x, closed := true, reason := if byp.contains x then 5 else 4 }) }

/-- The route table with every pair of two fields enabled (R314). -/
def enableRoutes (m : Mesh) : Mesh :=
  (List.range 8).foldl (fun m f => modFieldMesh m f fun x => { x with route := 0x0101010101010101#64 ^^^ (1#64 <<< (8 * f)) }) m

/-- The lane of a router that link l leaves by: l is (site x 4 + direction) x 2 + lane, and a horizontal link has one lane (R303). -/
def linkLane (l : Nat) : Nat :=
  match l / 2 % 4, l % 2 with
  | 0, a => a
  | 1, 0 => 2
  | 2, a => 3 + a
  | 3, 0 => 5
  | _, _ => 7

/-- Does link l exist? -/
def linkExists (l : Nat) : Bool := siteOk (l / 8) && laneExists (l / 8) (linkLane l)

/-- The failed wire groups of link l, each once. -/
def linkGroups (gs : List (Nat × Nat)) (l : Nat) : List Nat :=
  ((gs.filter fun g => decide (g.1 = l) && decide (g.2 ≤ 32)).map (·.2)).eraseDups

/-- The links with more than one failed wire group, which the spare cannot cover (R36, R321). -/
def brokenLinks (gs : List (Nat × Nat)) : List Nat :=
  ((gs.map (·.1)).eraseDups).filter fun l => linkExists l && decide (2 ≤ (linkGroups gs l).length)

/-- The repair of link l: USED and the failed group, whose logical groups from it to 31 shift by one onto the spare. Group 32 is the
spare itself, and a lane that has lost only that needs no repair. DEDUCED (assumption 114). -/
def linkRepair (gs : List (Nat × Nat)) (l : Nat) : Option Nat :=
  match linkGroups gs l with
  | [g] => if linkExists l && decide (g < 32) then some g else none
  | _ => none

/-- MESH_REPAIR of outgoing link k = site x 4 + direction (R321, R332). -/
def repairWord (gs : List (Nat × Nat)) (k : Nat) : W32 :=
  let half := fun (l used lo : Nat) (w : W32) => match linkRepair gs l with
    | some g => setField (setField w used 1 1) lo 5 g
    | none => w
  half (2 * k + 1) 15 8 (half (2 * k) 31 24 0#32)

/-- Wire groups are repaired (R321). -/
def loadRepairs (gs : List (Nat × Nat)) (m : Mesh) : Mesh :=
  { m with repairs := ((gs.map (·.1 / 2)).eraseDups).foldl (fun r k => smSet 0#32 r k (repairWord gs k)) [] }

/-- The field clock generators start: the arbiters of the routers and of the channel controllers stand at slot 0, and the crossings
are calibrated (R346, R381, R580). -/
def startGenerators (s : State) : State :=
  { s with
    mesh := { s.mesh with arbs := smMap ArbBank.reset (fun _ b => { b with ptr := 0 }) s.mesh.arbs, ccs := [], crossings := [] }
    hbm := { s.hbm with arbs := smMap ArbBank.reset (fun _ b => { b with ptr := 0 }) s.hbm.arbs } }

/-- CRACK_SUSPECT events of a cluster in the fault history (R419). -/
def crackCount (h : History) (k : Nat) : Nat := min 3 (h.records.filter fun r => decide (r.1 = unitCluster k)).length

/-- The clocks start at divider 16, and the time counter with them (R374, R388) (assumption 127). -/
def startClocks (pllB : Bool) (s : State) : State :=
  startGenerators { s with
    clock := { s.clock with locked := true, selB := pllB, div := 16, fastest := s.fuses.grade.fastest }
    boot := { s.boot with pllB := pllB } }

/-- The registers that bisque firing loads (R580). -/
def bisqueLoads (v : ImageVals) (s : State) : State :=
  let s1 := { s with
    errlog := { s.errlog with nextSeq := s.errlog.flashSeq }
    history := { s.history with time := s.history.savedTime }
    meter := { s.meter with idPub := s.fuses.idPub }
    clock := { s.clock with monTh := v.monTh, droopTh := v.droopTh } }
  let hit := (List.range 640).filter fun k => decide (crackCount s.history k > 0)
  let s2 := hit.foldl (fun s k => modCluster k (fun c => { c with crackEvents := crackCount s.history k }) s) s1
  updateSpares { s2 with power := loadTargets s2.power v 16 }

/-- Bisque firing in its order, with the stops of Table 20.2 (R580). -/
def bisque (found : BisqueIn) (s : State) : State :=
  let v := imageVals s
  let s1 := startMeshRails s
  if !found.meshOk || !meshRailsOk s1 then bootStop 5 s
  else
    let byp := ((v.badRouters ++ found.routers).filter siteOk).eraseDups
    let s2 := assignSpares v { s1 with
      mesh := loadBypass byp s1.mesh
      box := { s1.box with
        kiln := ((s1.box.kiln ++ s1.fuses.badSites ++ v.badSites ++ byp ++ bankFences s1.fuses v s1.history).filter siteOk).eraseDups } }
    if !found.pllA && !found.pllB then bootStop 2 s
    else if !(brokenLinks found.groups).isEmpty then bootStopAt 3 (brokenLinks found.groups) s
    else if edgeCut byp then bootStop 4 s
    else
      let s3 := startClocks (!found.pllA) s2
      let m := enableRoutes (loadRepairs found.groups s3.mesh)
      let fences := (routeFences m byp).filter fun x => !s3.box.kiln.contains x
      let s4 := { s3 with mesh := m, box := { s3.box with kiln := s3.box.kiln ++ fences } }
      let s5 := bisqueLoads v s4
      { s5 with boot := { s5.boot with phase := 5 } }

/-- BISQUE_FIRING (R580). -/
def execBisqueFiring (found : BisqueIn) (s : State) : Out := answer true (if s.boot.phase = 4 then bisque found s else s)

/-! ### Step 5: self-tests (R581, R582) -/

/-- The sites of local core row r in every field. -/
def waveSites (r : Nat) : List Nat := (List.range 2560).filter fun x => decide (siteY x % 20 = r)

/-- A core that has passed its tests opens its port, unless the kiln map or a permanent unit keeps its site out (R328, R582). -/
def passCore (s : State) (x : Nat) : State :=
  if !coreLive s x || bypassed s.mesh (siteX x) (siteY x) then s
  else if s.box.kiln.contains x || permanentSite s x then closePort 1 x s
  else openPort x s

/-- The self-tests at the end of the next wave (R581, R582). -/
def selfTests (failed : List CoreTest) (s : State) : State :=
  let r := s.boot.testsDone
  let bad := (failed.filter fun t => decide (siteY t.site % 20 = r) && siteOk t.site && coreLive s t.site).eraseDups
  let s1 := bad.foldl failCore s
  let s2 := (waveSites r).foldl passCore s1
  let n := (bad.map (·.site)).eraseDups.length
  let b := { s2.boot with testsDone := r + 1, fenced := min 0xFFF (s2.boot.fenced + n), phase := if r = 19 then 6 else 5 }
  updateSpares { s2 with boot := b }

/-- CORE_SELF_TEST: at the end of a wave, the cores of the wave (R581). -/
def execCoreSelfTest (failed : List CoreTest) (s : State) : Out :=
  answer (instrOk (.coreSelfTest failed))
    (if s.boot.phase = 5 ∧ s.boot.testsDone < s.boot.wavesDone then selfTests failed s else s)

/-! ### HBM training (R583) -/

/-- Is a stack's partition out: its field rail is off, or one of its stacks still fails? -/
def trainFails (failed : List (Nat × List Nat)) (s : State) (p : Nat) : Bool :=
  (failed.any fun f => decide (f.1 / 2 = p)) || !(getRail s.power p).fieldOn

/-- Every stack is trained; a partition with a stack that still fails is held out of service (R583). -/
def trainHbm (temps : List Nat) (failed : List (Nat × List Nat)) (s : State) : State :=
  let out := (List.range 8).filter fun p => trainFails failed s p && !s.box.partsOut.contains p
  let h := (List.range 16).foldl (fun h k =>
    let bad := failed.any fun f => decide (f.1 = k)
    let t := temps.getD k 0 % 256
    setStack h k { getStack h k with state := if bad then 4 else 2, trainTemp := t, temp := t }) s.hbm
  let us := failed.flatMap fun f => f.2.map fun c => unitChan (f.1 / 2 * 64 + 32 * (f.1 % 2) + c % 32)
  let s1 := histEvents us { s with hbm := h, box := { s.box with partsOut := s.box.partsOut ++ out } }
  let s2 := out.foldl (fun s _ => logEvent (LogEvent.of 6) s) s1
  let lost := (List.range 4).any fun p => s2.box.partsOut.contains p && s2.box.partsOut.contains (p + 4)
  if lost then bootStop 6 s2 else updateSpares { s2 with boot := { s2.boot with phase := 7 } }

/-- HBM_TRAINING: the temperature of each stack, and the stacks that failed training and its retries, with their channels (R583). -/
def execHbmTraining (temps : List Nat) (failed : List (Nat × List Nat)) (s : State) : Out :=
  answer (instrOk (.hbmTraining temps failed)) (if s.boot.phase = 6 then trainHbm temps failed s else s)

/-! ### Glaze firing and READY (R584, R585) -/

/-- The RESIDENT section of the copy in use. -/
def residentBytes (s : State) : List Byte :=
  let a := copyBase s.boot.copyB
  match (imageSections (flashBytes s.flash a 0x300)).find? fun x => decide (x.typ = 7) with
  | some x => flashBytes s.flash (a + x.off) x.len
  | none => []

/-- The device-reserved entries, all other entries invalid, and the RESIDENT section in every partition in service (R365, R584). -/
def glazeHbm (s : State) : State :=
  let b := residentBytes s
  let h := reservedEntries { s.hbm with entries := [], runs := [], rate := (imageVals s).hbmRate }
  (List.range 8).foldl (fun s p => unitWriteDev (boxUnit s) (p * partBytes + partFree * 0x400000 + 656 * 0x100000) b s)
    { s with hbm := h }

/-- The timetables of Table 10.2 in every set, committed and taken (R350). -/
def glazeArbs (s : State) : State :=
  let s1 := { s with
    mesh := { s.mesh with arbs := (List.range 8).foldl (fun m f => smMod ArbBank.reset m f (bankDefaults · routerDefault)) s.mesh.arbs }
    hbm := { s.hbm with arbs := (List.range 8).foldl (fun m f => smMod ArbBank.reset m f (bankDefaults · hbmDefault)) s.hbm.arbs }
    trunks := (List.range 12).foldl (fun m n =>
      smMod TPort.reset m n fun t => { t with
        arb := commitVals t.arb trunkDefault, arbInst := { t.arbInst with gsg := 0 } }) s.trunks }
  ((List.range 2560).filter (coreLive s)).foldl (fun s x => putCore x (slabDefaults (getCore s x)) s) s1

/-- The values of the DEFAULTS, CALIB and CERT sections (R584). -/
def glazeValues (s : State) : State :=
  let v := imageVals s
  let esc := fun (m : Mesh) (f : Nat) =>
    modFieldMesh m f fun x => { x with route := x.route ||| (v.escs.getD f 0#64 &&& 0x0202020202020202#64) }
  { s with
    mesh := (List.range 8).foldl esc s.mesh
    power := { s.power with
      feeds := { s.power.feeds with bLimit := v.bLimit % 65536 }
      pm := { s.power.pm with
        fastPct := v.fastPct % 256, wCol := v.wCol % 65536, wSlab := v.wSlab % 65536, wVec := v.wVec % 65536, wXfer := v.wXfer % 65536 } }
    meter := { s.meter with hUj := v.meterCfg / 2 ^ 32 % 65536, attrPpm := v.meterCfg % 2 ^ 32, cert := padTo 4096 v.cert } }

/-- Glaze firing (R584). -/
def glaze (s : State) : State :=
  let s1 := glazeValues (glazeArbs (glazeHbm s))
  updateSpares { s1 with queues := { s1.queues with states := [] }, boot := { s1.boot with glazed := true } }

/-- GLAZE_FIRING (R584). -/
def execGlazeFiring (s : State) : Out := answer true (if s.boot.phase = 7 ∧ !s.boot.glazed then glaze s else s)

/-- READY is reached: the ledger epoch starts, the power manager goes on from divider 16 (R423, R426, R491, R584, R585). -/
def becomeReady (ms : Nat) (s : State) : State :=
  let p := s.power
  { s with
    boot := { s.boot with phase := 8, readyMs := min ms 0xFFFFFFFF }
    clock := ownMaster s.clock
    meter := meterFlags (startEpoch s.meter (timeNow s))
    power := { p with
      feeds := { p.feeds with lastGasp := false }
      pm := { p.pm with capDiv := s.clock.div, capW := min (capInEffect p s.fuses.grade) 0xFFFF } } }

/-- READY, `ms` after the first good feed (R585). -/
def execReady (ms : Nat) (s : State) : Out :=
  answer true (if s.boot.phase = 7 ∧ s.boot.glazed then becomeReady ms s else s)

/-- BOOT_STEP_TIMEOUT: the step in progress has run past its limit (Table 20.1, R577, R586). -/
def execBootStepTimeout (s : State) : Out :=
  answer true
    (let b := s.boot
     let early := decide (b.phase = 0) && b.feedGood && !b.box2 && !b.noBox
     if early || (decide (3 ≤ b.phase) && decide (b.phase ≤ 7)) then bootStop 7 s else s)

/-! ### Module reset and the standby plane (R592, R593, R612, R626) -/

/-- MOD_RESET_N is low for so many µs: a short pulse is ignored and counted; a reset within the 1 ms of the one before is part of it
(R592, R593). -/
def resetLow (us : Nat) (s : State) : State :=
  let b := s.boot
  if us < 10 then { s with boot := { b with ignored := sat16 b.ignored 1 } }
  else if b.inReset && decide (b.resets > 0) && b.held then { s with boot := { b with coalesced := sat16 b.coalesced 1 } }
  else moduleReset s

/-- MOD_RESET_LOW (R592, R593). -/
def execModResetLow (us : Nat) (s : State) : Out := answer true (if s.boot.standby then resetLow us s else s)

/-- MOD_RESET_N has been high for 1 ms: step 3 starts once step 2 has completed (R592). -/
def resetRelease (s : State) : State :=
  let b := { s.boot with inReset := false, held := false }
  { s with boot := if b.box2 && decide (b.phase = 1) then afterStep2 b (barred s) else b }

/-- MOD_RESET_RELEASE (R592). -/
def execModResetRelease (s : State) : Out := answer true (if s.boot.standby && s.boot.inReset then resetRelease s else s)

/-- FLASH_SWITCH: FLASH_VCC in mV. Closed only with both feeds absent and FLASH_VCC within its range (R612). -/
def execFlashSwitch (vccMv : Nat) (s : State) : Out :=
  let f := s.power.feeds
  let close := !f.aGood && !f.bGood && decide (1710 ≤ vccMv) && decide (vccMv ≤ 1890)
  answer true { s with boot := { s.boot with flashClosed := close } }

/-- The standby plane goes down: only fuses and flash keep what they hold (R605, R626). -/
def planeLoss (s : State) : State :=
  { State.reset with
    pending := s.pending
    boot := { Boot.reset with standby := false, records := s.boot.records, flashClosed := s.boot.flashClosed }
    meter := { Meter.reset with flash := s.meter.flash }
    hosts := resetHosts s
    trunks := resetTrunks s
    errlog := { ErrLog.reset with flashDumps := s.errlog.flashDumps, flashSeq := s.errlog.flashSeq }
    history := { s.history with time := 0, query := 0 }
    jtag := { Jtag.reset with locked := s.jtag.locked }
    flash := s.flash
    fuses := s.fuses
    out := s.out
    free := s.free }

/-- STANDBY_PLANE_LOSS: both feeds are gone past the holdup (R397, R605, R626). -/
def execStandbyPlaneLoss (s : State) : Out := answer true (if s.boot.standby then planeLoss s else s)

end Sys2Proof.Machine
end

