-- ==== Sys2Proof/Machine/ClockCmds.lean ====
section
/-!
DEFINITION. Sys2Proof/Machine/ClockCmds.lean: stretches, divider changes, loss of the root clock and the slewing of the time
counter (R373 to R391).
-/

namespace Sys2Proof.Machine

/-- A report on a divider change that FREQ_SET asked for: to the leader; a leader whose own change is cancelled sends a new
FREQ_SET (R387). -/
def tellLeader (job : Option Nat) (kind tick div : Nat) (s : State) : State :=
  match job.bind fun i => getJob s i with
  | some j =>
    if j.ended then s
    else if treeRank j ≠ 0 then msgTo j 0 { TMsg.blank with typ := 4, kind := kind, id := tick, arg := div } s
    else if kind = 3 then decideFreq j.id true s
    else s
  | none => s

/-- A step of the clocks, and what follows where it applies or cancels the pending change: the voltage targets of a larger divider,
and the report of a deferred or cancelled change (R386, R387, R410). -/
def clockStep (f : Clock → Clock) (s : State) : State :=
  let k := s.clock
  let k1 := f k
  let s1 := { s with clock := k1 }
  match k.pending with
  | none => s1
  | some p =>
    if k1.applied ≠ k.applied then
      let s2 := if p.target > k.div then loadVolts p.target s1 else s1
      if k.deferred then tellLeader p.job 2 k1.appliedAt p.target s2 else s2
    else if k.deferred && !k1.deferred then tellLeader p.job 3 p.tick p.target s1
    else s1

/-- A droop detector of a cluster, or the margin monitor of a core, trips: 2 rc or 1 rc of stretch for its field. `periods` are the
stretched periods that the generator has counted since the last such event (R377 to R379, R386). -/
def marginTrip (droop : Bool) (unit periods : Nat) (s : State) : State :=
  let k := if droop then unit else siteCluster unit
  if s.clock.locked && sensorsLive s k then
    { s with clock := tripClock s.clock (clusterField k) (if droop then unit else 640 + unit) (if droop then 2 else 1) periods }
  else s

/-- MARGIN_TRIP (R378). -/
def execMarginTrip (droop : Bool) (unit periods : Nat) (s : State) : Out :=
  answer (instrOk (.marginTrip droop unit periods)) (marginTrip droop unit periods s)

/-- STRETCH_END: 64 cc after the last sensor of the field has cleared (R378, R386). -/
def execStretchEnd (field periods : Nat) (s : State) : Out :=
  answer (fieldOk field)
    (if (getFieldClk s.clock field).depth > 0 then clockStep (fun k => endStretch k field periods) s else s)

/-- DIVIDER_ARM: a write of CLOCK.DIV_SCHED with ARM 1 and the TARGET given; the tick is that of CLOCK.DIV_TICK (R384). -/
def execDividerArm (target : Nat) (s : State) : Out := answer true (scheduleDiv (target % 32) s.clock.tick none s)

/-- DIVIDER_SWITCH: the time counter reaches the tick of the pending change (R385, R386). -/
def execDividerSwitch (s : State) : Out := answer true (clockStep switchDivider s)

/-- DIVIDER_DEFER_TIMEOUT: 40,000 tt after the tick of a change that is still deferred (R386). -/
def execDividerDeferTimeout (s : State) : Out := answer true (clockStep deferTimeout s)

/-- The selected PLL loses lock, or REFCLK stops: the field rails go off with a last record (R375). -/
def rootLost (s : State) : State :=
  let t := allRailsOff (lastGasp 2 s)
  { t with
    power := { t.power with rails := smMap Rail.reset (fun _ r => { r with fieldOn := false }) s.power.rails }
    clock := { t.clock with lost := true } }

/-- ROOT_CLOCK_LOST (R375). -/
def execRootClockLost (s : State) : Out := answer true (if s.clock.locked then rootLost s else s)

/-- TIME_SLEW: one tt adds 2 where the module is behind its master, or 0 where it is ahead (R389). -/
def execTimeSlew (ticks : Nat) (s : State) : Out :=
  let o := s.clock.offsetPs.toInt
  answer (instrOk (.timeSlew ticks))
    (if (o > 0 ∧ ticks = 2) ∨ (o < 0 ∧ ticks = 0) then { s with clock := slewClock s.clock ticks } else s)

end Sys2Proof.Machine
end

