-- ==== Sys2Proof/Machine/Stalls.lean ====
section
/-!
DEFINITION. Sys2Proof/Machine/Stalls.lean: the stall limits of one core (R182 to R184).
-/

namespace Sys2Proof.Machine

/-- Does the transfer at the head of its queue wait for credits: it has its admission and lacks one (R179)? -/
def creditless (c : Core) (q : QEntry) : Bool :=
  q.admitted && match xferArgs q with
    | some a => !creditsHeld c (creditPairs c a)
    | none => false

/-- The instruction of an engine whose stall timer runs: a started BARRIER, or the head of the queue when its wait slot fails R172
or it lacks credits (R182). -/
def engineWaits (c : Core) (e : Engine) : Option QEntry :=
  match e, c.sync.waiting with
  | .sync, some w => some w.1.entry
  | _, _ => (engineQueue c e).head?.filter fun q => creditless c q || (!q.admitted && !waitAdmits c (waitField q.insn))

/-- A stall timer at 2^24 cc: SLOT_STALL on the waiting instruction of that engine, or of the issue unit (R182, R183). -/
def slotStall (c : Core) (e : Engine) : Core :=
  if !mayStart c then c
  else match e with
    | .issue =>
      match nextInsn c with
      | .insn i =>
        if opEngine i.op = .issue ∧ !waitAdmits c i.wait then
          coreFault c .slotStall .issue c.stream.pc c.stream.icount else c
      | _ => c
    | _ =>
      match engineWaits c e with
      | some q => entryFault c .slotStall q
      | none => c

/-- A RUNNING core that issued nothing for 2^26 cc: ISSUE_STALL on the instruction next to issue (R184). -/
def issueStall (c : Core) : Core :=
  match nextInsn c with
  | .insn i => if issueReady c i then c else coreFault c .issueStall .issue c.stream.pc c.stream.icount
  | _ => c

end Sys2Proof.Machine
end

