-- ==== Sys2Proof/Machine/Control.lean ====
section
/-!
DEFINITION. Sys2Proof/Machine/Control.lean: control and address instructions, issue, completion, slots
and stalls (R151 to R212).
-/

namespace Sys2Proof.Machine

/-- The core of a site issues what is next when `sel` accepts it (R152, R153). -/
def issueOn (sel : Core → NextInsn → Bool) (site : Nat) (s : State) : Out :=
  onCore site (fun c => issueIf (sel c) (timeNow s) c) s

/-- An instruction of opcode byte b issues. -/
def issueOp (b : BitVec 8) (site : Nat) (s : State) : Out := issueOn (fun _ => selOp b) site s

/-- NOP issues with no effect but its WAIT and POST (R205). -/
def execNop (site : Nat) (s : State) : Out := issueOp 0x00#8 site s

/-- STOP issues: the core enters STOPPING (R188). -/
def execStop (site : Nat) (s : State) : Out := issueOp 0x08#8 site s

/-- HALT issues: the core drains (R193). -/
def execHalt (site : Nat) (s : State) : Out := issueOp 0x09#8 site s

/-- TIME issues (R209). -/
def execTime (site : Nat) (s : State) : Out := issueOp 0x0B#8 site s

/-- MARK issues (R210). -/
def execMark (site : Nat) (s : State) : Out := issueOp 0x0C#8 site s

/-- SET issues (R212). -/
def execSet (site : Nat) (s : State) : Out := issueOp 0x20#8 site s

/-- SETHI issues (R212). -/
def execSethi (site : Nat) (s : State) : Out := issueOp 0x21#8 site s

/-- SETS issues (R212). -/
def execSets (site : Nat) (s : State) : Out := issueOp 0x28#8 site s

/-- ADD issues (R211). -/
def execAdd (site : Nat) (s : State) : Out := issueOp 0x22#8 site s

/-- SUB issues (R211). -/
def execSub (site : Nat) (s : State) : Out := issueOp 0x23#8 site s

/-- AND issues (R211). -/
def execAnd (site : Nat) (s : State) : Out := issueOp 0x24#8 site s

/-- OR issues (R211). -/
def execOr (site : Nat) (s : State) : Out := issueOp 0x25#8 site s

/-- SHL issues (R211). -/
def execShl (site : Nat) (s : State) : Out := issueOp 0x26#8 site s

/-- SHR issues (R211). -/
def execShr (site : Nat) (s : State) : Out := issueOp 0x27#8 site s

/-- LOOP issues, or faults LOOP_DEPTH (R165, R206). -/
def execLoop (site : Nat) (s : State) : Out := issueOn (fun c => selLoop 0x01#8 c) site s

/-- LOOPR issues, or faults LOOP_DEPTH (R165, R206). -/
def execLoopr (site : Nat) (s : State) : Out := issueOn (fun c => selLoop 0x02#8 c) site s

/-- The NOTICE that the core of a site is about to issue reaches the regulator of its cluster, in cycles of the cluster's clock
(R185, R208, R411). -/
def takeNoticeOf (sel : NextInsn → Bool) (site : Nat) (s : State) : State :=
  match noticeOf sel (getCore s site) with
  | some n =>
    let f := siteField site
    modCluster (siteCluster site) (fun k => takeNotice k (fieldCc s.mesh f) (fieldRc s f) n.1 n.2) s
  | none => s

/-- NOTICE issues, and its level and delay reach the regulator of its cluster (R185, R208, R411). -/
def execNotice (site : Nat) (s : State) : Out := issueOp 0x0A#8 site (takeNoticeOf (selOp 0x0A#8) site s)

/-- A stopping core that has drained goes on to its arrival (R188). -/
def execStopDrained (site : Nat) (s : State) : Out := onCore site stopDrained s

/-- A core draining for HALT enters HALTED (R193). -/
def execHaltDrained (site : Nat) (s : State) : Out := onCore site haltDrained s

/-- Whatever is next issues, a queued instruction into its queue, or faults at issue (R152, R153, R154). -/
def execInstructionIssue (site : Nat) (s : State) : Out :=
  issueOn (fun _ _ => true) site (takeNoticeOf (fun _ => true) site s)

/-- The oldest stream ends when it is the instruction of that count. -/
def completeStream (icount : Nat) (c : Core) : Core :=
  match c.matrix.streams with
  | j :: _ => if j.st.entry.icount = icount then finishStream c else c
  | [] => c

/-- The started instruction of that count completes, posts and releases (R156). -/
def execInstructionComplete (site icount : Nat) (s : State) : Out :=
  onCore site (fun c => completeStream icount (completeXfer icount (completeStarted icount c))) s

/-- Every slot applies the posts and releases that have reached it (R175). -/
def execSlotUpdate (site : Nat) (s : State) : Out := onCore site updateSlots s

/-- A stall timer reaches 2^24 cc (R182, R183). -/
def execSlotStall (site : Nat) (engine : Engine) (s : State) : Out := onCore site (fun c => slotStall c engine) s

/-- A RUNNING core has issued nothing for 2^26 cc (R184). -/
def execIssueStall (site : Nat) (s : State) : Out := onCore site issueStall s

end Sys2Proof.Machine
end

