-- ==== Sys2Proof/Machine/HbmCmds.lean ====
section
/-!
DEFINITION. Sys2Proof/Machine/HbmCmds.lean: channel controllers and stacks (R355 to R371, R432).
-/

namespace Sys2Proof.Machine

/-- What the stack reports of its on-die ECC for the bursts that a grant reads: a correction, or an uncorrectable read (R359,
HBM_CH). -/
def countOnDie (chan : Nat) (onDie : List (Nat × Bool)) (h : Hbm) : Hbm :=
  onDie.foldl (fun h b =>
    modChan h chan fun c => if b.2 then { c with stackUe := sat16 c.stackUe 1 } else { c with stackCe := sat32 c.stackCe 1 }) h

/-- The bursts (device physical address / 32) reported uncorrectable, of the block whose first burst is `first`; fettling reads that
burst alone. -/
def onDieBad (onDie : List (Nat × Bool)) (first : Nat) : List Nat := (onDie.filter (·.2)).map fun b => first + b.1

/-- The acknowledgement of a write, after the data are stored (R356). -/
def hbmAck (j : HbmJob) : Packet :=
  { Packet.blank with
    typ := .ack, src := j.place, srcEdge := true, dst := j.pkt.src, dstEdge := j.pkt.srcEdge, job := j.pkt.job, tag := j.pkt.tag
    xid := j.pkt.xid }

/-- The rows of a read, to the core that asked; for an XCAST from its entry router to the rectangle, to a single core as a unicast
(R252, R254, R324, R325). -/
def hbmData (j : HbmJob) : Packet :=
  let p := j.pkt
  let rows := rowsOfWords p.side p.count j.words
  let d := { p with typ := .hbmData, src := j.place, srcEdge := true, dstEdge := p.srcEdge, rows := rows, count := rows.length }
  match p.cast with
  | none => { d with dst := p.src }
  | some i =>
    if p.prect.x0 = p.prect.x1 ∧ p.prect.y0 = p.prect.y1 then { d with dst := p.prect.y0 * 64 + p.prect.x0, dstEdge := false }
    else { d with dst := i, dstEdge := false, mcast := true }

/-- The packet that answers a served packet; a write that an ABORT closed has none (R309, R356, R359). -/
def hbmAnswer (j : HbmJob) : Option Packet :=
  match j.pkt.typ with
  | .hbmWrite => if j.pkt.aborted then none else some (hbmAck j)
  | _ => some (hbmData j)

/-- A channel serves its grant, and the packet that this completes is answered. -/
def serveGrant (chan : Nat) (onDie : List (Nat × Bool)) (s : State) : State :=
  if smGet 0 s.hbm.granted chan = 0 then s
  else
    let r := serveChan (timeNow s) (onDieBad onDie) chan (countOnDie chan onDie s.hbm)
    let s1 := flushHbm { s with hbm := r.2 }
    match r.1.bind hbmAnswer with
    | some p => pushEdge p s1
    | none => s1

/-- A channel controller serves the request, or the fettling read, that its arbiter has granted (R356 to R361). -/
def execHbmRequestGrant (channel : Nat) (onDie : List (Nat × Bool)) (s : State) : Out :=
  answer (instrOk (.hbmRequestGrant channel onDie)) (if hbmUp s (channel / 64) then serveGrant channel onDie s else s)

/-- A due refresh command is issued ahead of every requester. It moves no data (R368). -/
def execHbmRefresh (stack channel : Nat) (s : State) : Out := answer (instrOk (.hbmRefresh stack channel)) s

/-- A stack's temperature is read: it may start a retraining, and it sets the grant limit (R368, R369, R432). -/
def readStackTemp (stack temp : Nat) (s : State) : State :=
  let old := getStack s.hbm stack
  let lim := stackLimit old.slow temp
  let s1 := { s with hbm := stackReading stack temp s.hbm }
  let s2 := { s1 with hbm := setStack s1.hbm stack { getStack s1.hbm stack with slow := lim } }
  if lim > old.slow then
    { s2 with power := { s2.power with therm := { s2.power.therm with stackLimits := sat16 s2.power.therm.stackLimits 1 } } }
  else s2

/-- Every 1 ms a stack temperature is read (R368). -/
def execStackTempRead (stack temp : Nat) (s : State) : Out := answer (stackOk stack) (readStackTemp stack temp s)

/-- A write of 1 to FIELDf.HBM_CFG.RETRAIN for a stack (R369). -/
def execHbmCfgRetrain (field stack : Nat) (s : State) : Out :=
  answer (instrOk (.hbmCfgRetrain field stack)) { s with hbm := startRetrain s.hbm (2 * field + stack) }

/-- A retraining, or a retry of it, ends (R371). -/
def execStackRetrainEnd (stack : Nat) (ok : Bool) (stall : Nat) (failing : List Nat) (s : State) : Out :=
  answer (stackOk stack) (atHbm (endRetrain stack ok stall failing) s)

end Sys2Proof.Machine
end

