-- ==== Sys2Proof/Machine/HostCmds.lean ====
section
/-!
DEFINITION. Sys2Proof/Machine/HostCmds.lean: what a host does to its port: doorbells, queue entries and state words, control
queues, rings and completions, and the port's coming and going (R441 to R451, R466 to R475, R596 to R598).
-/

namespace Sys2Proof.Machine

/-! ### Session queues -/

/-- The signal box reads the 64 bytes of entry i of queue q: copy A, or copy B while copy A's partition is in reset (R445). -/
def readEntry (q i : Nat) (s : State) : List Byte × State :=
  let a := entryAddrs q i
  let r := unitReadDev (boxUnit s) (if partInService s (addrPart a.1) then a.1 else a.2) 64 s
  (r.1.map (·.1), r.2)

/-- A unit writes bytes into both copies of queue entries, from device offsets that lie at `a` in copy A and `b` in copy B; a
partition in reset takes its copy back when it returns (R445). -/
def writeCopies (u : SideUnit) (a b : Nat) (l : List Byte) (s : State) : State := unitWriteDev u b l (unitWriteDev u a l s)

/-- What a host reads through BAR2 at a byte offset: copy A, or copy B while copy A's partition is in reset (R445). The table has no row
for a host's read: this is its value. -/
def bar2Read (s : State) (offset n : Nat) : List Byte :=
  let a := entryAddrs (offset / 1024) 0
  let at_ := if partInService s (addrPart a.1) then a.1 else a.2
  (unitReadDev (boxUnit s) (at_ + offset % 1024) n s).1.map (·.1)

/-- One entry of queue q is accepted: it is read, takes its ticket, and the ticket is written back (R447, R449, R458, R481). -/
def acceptEntry (port q : Nat) (s : State) : State :=
  let x := getQ s.queues q
  let t := mkTicket q x.seq port
  let a := entryAddrs q x.seq
  let d := readEntry q x.seq s
  let e : SubEnt := { acc := s.box.acc, ticket := t, queue := q, port := x.port, ring := x.cring, job := x.job, tick := timeNow s,
                      desc := d.1.take 56 ++ List.replicate 8 0#8 }
  let s1 := writeCopies (boxUnit s) (a.1 + 56) (a.2 + 56) (bytesLE 8 t) d.2
  { s1 with
    queues := setQ s1.queues q { x with seq := (x.seq + 1) % 2 ^ 32, outstanding := x.outstanding + 1 }
    meter := openHand s1.meter t
    box := { s1.box with acc := s1.box.acc + 1, subs := s1.box.subs ++ [e] } }

/-- n entries of queue q are accepted in order. -/
def acceptEntries (port q : Nat) : Nat → State → State
  | 0, s => s
  | n + 1, s => acceptEntries port q n (acceptEntry port q s)

/-- A doorbell refused whole (R447, R597). -/
def refuseDoorbell (s : State) : State := { s with queues := { s.queues with refused := sat32 s.queues.refused 1 } }

/-- QUEUE.DOORBELL (R447, R450, R597). -/
def execDoorbell (port : Nat) (value : W64) (s : State) : Out :=
  let q := getField value 44 20
  let n := getField value 0 5
  answer (hostOk port)
    (if isReady s.boot && doorbellOk s.queues q n then
      acceptEntries port q n { s with queues := cacheQueue s.queues q }
    else refuseDoorbell s)

/-- Bytes written from a BAR2 offset on, queue by queue (R445). -/
def writeBar2 (port : Nat) : Nat → Nat → List Byte → State → State
  | 0, _, _, s => s
  | fuel + 1, o, l, s =>
    if l.isEmpty then s
    else
      let n := 1024 - o % 1024
      let a := entryAddrs (o / 1024) 0
      writeBar2 port fuel (o + n) (l.drop n) (writeCopies (.host port) (a.1 + o % 1024) (a.2 + o % 1024) (l.take n) s)

/-- A write through BAR2 (R445, R449). -/
def execQueueEntryWrite (port offset : Nat) (bytes : List Byte) (s : State) : Out :=
  answer (instrOk (.queueEntryWrite port offset bytes))
    (if isReady s.boot then writeBar2 port (bytes.length + 1) offset bytes s else s)

/-- A write to HOSTn.QDESC for the queue that HOSTn.QSEL selects (R446). -/
def execQdescWrite (port : Nat) (value : W64) (s : State) : Out :=
  answer (hostOk port) { s with queues := writeQdesc s.queues (getHost s port).qsel value.toNat }

/-! ### Control queues -/

/-- One control-queue entry is accepted, and its ticket goes into the entry: it waits to start, or completes at once with
FORMAT_REJECTED (R451, R452, R552, Table 15.3). -/
def acceptCtl (port k : Nat) (s : State) (b : HostBuf) : State :=
  let h := getHost s port
  let g := getCq h k
  let r := fillRead 64 b
  let bad := !r.2.isEmpty
  let c : CtlCmd := { ticket := mkTicket k g.seq (14 + port), origin := 14 + port, cq := k, ring := g.cring, desc := r.1, failed := bad
                      data := [], srcId := 0, jkey := 0, rank := 0 }
  let s1 := emit [.hostWrite port (g.base + 64 * g.head + 0x38) (bytesLE 8 c.ticket)]
    (putHost port (setCq h k { g with head := (g.head + 1) % 2 ^ g.log2n, seq := (g.seq + 1) % 2 ^ 32 }) s)
  let op := dfield r.1 0 1
  let job := dfield r.1 2 1
  if bad then finishCmd c 5 0 [] (poisoned 0xFF s1)
  else if ctlDescOk r.1 && (decide (op = 1) || decide (op = 6) || (liveJob s job).isSome) then
    { s1 with box := { s1.box with accepted := s1.box.accepted ++ [c] } }
  else finishCmd c 5 0 [] s1

/-- HOSTn.CQ_DOORBELL: the entries from HEAD to the new tail, read over the port (R451, R597). -/
def execCqDoorbell (port : Nat) (value : W32) (entries : List HostBuf) (s : State) : Out :=
  let k := getField value 26 6
  let g := getCq (getHost s port) k
  answer (hostOk port)
    (if isReady s.boot && g.en then
      ((List.range (cqCount g (getField value 0 16))).map fun i => entries.getD i { bytes := [], failed := [] }).foldl (acceptCtl port k) s
    else s)

/-- A write to the EN word of a control queue (R451). -/
def execCqEnableWrite (port queue : Nat) (value : W64) (s : State) : Out :=
  let h := getHost s port
  answer (instrOk (.cqEnableWrite port queue value)) (putHost port (setCq h queue (writeCqCtl (getCq h queue) value.toNat)) s)

/-! ### Completions -/

/-- The waybill of a completion is reserved: its sequence number (R489). -/
def reserveComp (c : Comp) (s : State) : Nat × State :=
  match c.record with
  | some r => (seqOf s.meter s.meter.reserved, { s with meter := meterFlags (reserve s.meter r) })
  | none => (noWaybill, s)

/-- A completion posted or dropped frees its session-queue entry (R446). -/
def freeComp (c : Comp) (s : State) : State :=
  match c.queue with
  | some q => { s with queues := freeEntry s.queues q }
  | none => s

/-- A completion dropped from its ring: counted, its waybill stands (R469). -/
def dropComp (c : Comp) (s : State) : State :=
  let h := getHost s c.port
  let g := getRing h c.ring
  let s1 := putHost c.port (setRing h c.ring { g with dropped := sat32 g.dropped 1, sinceMark := sat32 g.sinceMark 1 }) s
  freeComp c (reserveComp c { s1 with queues := { s1.queues with dropped := sat32 s1.queues.dropped 1 } }).2

/-- A completion is written to its ring (R466 to R468, R489). -/
def putComp (c : Comp) (s : State) : State :=
  let r := reserveComp c s
  let h := getHost r.2 c.port
  let p := ringPut c.port h c.ring (compBytes c (getRing h c.ring).phase r.1)
  freeComp c (emit p.2 (putHost c.port p.1 r.2))

/-- A completion is posted, held or dropped (R467, R469). -/
def postComp (c : Comp) (s : State) : State :=
  let h := getHost s c.port
  let g := getRing h c.ring
  if !g.en then dropComp c s
  else if g.held.isEmpty && !ringFull g then putComp c s
  else if g.held.length < 4096 then putHost c.port (setRing h c.ring { g with held := g.held ++ [c] }) s
  else dropComp c s

/-- The first held completion of a ring is posted where an entry is free. -/
def postHeld (port r : Nat) (s : State) : State :=
  let h := getHost s port
  let g := getRing h r
  match g.held with
  | c :: rest => if g.en && !ringFull g then putComp c (putHost port (setRing h r { g with held := rest }) s) else s
  | [] => s

/-- The marker of a ring that dropped completions, where it is due and fits (R470). -/
def postMarker (port r : Nat) (s : State) : State :=
  let p := putMarker port (getHost s port) r
  emit p.2 (putHost port p.1 s)

/-- Held completions as entries free, then the marker (R469, R470). -/
def drainRing (port r : Nat) : Nat → State → State
  | 0, s => postMarker port r s
  | n + 1, s => drainRing port r n (postHeld port r s)

/-- Every completion held for a ring is dropped (R469). -/
def dropHeld (port r : Nat) (s : State) : State :=
  let h := getHost s port
  let g := getRing h r
  g.held.foldl (fun s c => dropComp c s) (putHost port (setRing h r { g with held := [] }) s)

/-- A write to the EN word of a completion ring (R469, R470, R475). -/
def execCringEnableWrite (port ring : Nat) (value : W64) (s : State) : Out :=
  let h := getHost s port
  let s1 := putHost port (setRing h ring (writeRingCtl (getRing h ring) value.toNat)) s
  answer (instrOk (.cringEnableWrite port ring value))
    (if (getRing (getHost s1 port) ring).en then postMarker port ring s1 else dropHeld port ring s1)

/-- A write to a ring's HEAD (R466, R469, R470). -/
def execCringHeadWrite (port ring : Nat) (value : W64) (s : State) : Out :=
  let h := getHost s port
  let g := getRing h ring
  answer (instrOk (.cringHeadWrite port ring value))
    (drainRing port ring g.held.length (putHost port (setRing h ring { g with head := getField value 0 16 % ringSize g }) s))

/-- The next completion for a ring: a held one, the marker, or the first that has finished (R467, R469, R470). -/
def nextPost (port ring : Nat) (s : State) : State :=
  let g := getRing (getHost s port) ring
  if g.en && !g.held.isEmpty && !ringFull g then postHeld port ring s
  else if g.en && g.held.isEmpty && decide (g.sinceMark > 0) && !ringFull g then postMarker port ring s
  else
    match s.box.finished.findIdx? fun c => decide (c.port = port) && decide (c.ring = ring) with
    | some i =>
      match s.box.finished[i]? with
      | some c => postComp c { s with box := { s.box with finished := listDel s.box.finished i } }
      | none => s
    | none => s

/-- COMPLETION_POST (R467, R469, R470). -/
def execCompletionPost (port ring : Nat) (s : State) : Out :=
  answer (instrOk (.completionPost port ring)) (nextPost port ring s)

/-- COAL_US after the first unsignalled entry (R468). -/
def execCoalesceTimer (port ring : Nat) (s : State) : Out :=
  let h := getHost s port
  let g := getRing h ring
  answer (instrOk (.coalesceTimer port ring))
    (if g.unsig > 0 ∧ g.coalUs > 0 then
      let r := signalVector port (setRing h ring { g with unsig := 0 }) g.vector
      emit r.2 (putHost port r.1 s)
    else s)

/-! ### The port -/

/-- A port that was present goes away: its rings and control queues are disabled, held completions dropped (R469, R472). -/
def portAway (port : Nat) (s : State) : State :=
  let h := getHost s port
  (h.rings.map (·.1)).foldl (fun s r => dropHeld port r s) (putHost port { disablePort h with gone := sat16 h.gone 1 } s)

/-- The port after a change f of its link state; it goes away where it was present (R471, R472). -/
def changePort (port : Nat) (f : HostPort → HostPort) (s : State) : State :=
  let was := portPresent (getHost s port)
  let s1 := putHost port (f (getHost s port)) s
  if was && !portPresent (getHost s1 port) then portAway port s1 else s1

/-- PERST_N asserted for so many ns: a pulse below 1 µs is ignored (R598, R606). -/
def execPerstAssert (pulse : PerstPulse) (s : State) : Out :=
  answer (hostOk pulse.port)
    (if pulse.ns < 1000 then s
    else changePort pulse.port (fun h => { h with
      perst := true, linkUp := false, d0 := true, waited := false, rate := 0, width := 0, flit := false }) s)

/-- PERST_N deasserted (R596). -/
def execPerstDeassert (port : Nat) (s : State) : Out :=
  answer (hostOk port) (changePort port (fun h => { h with perst := false, waited := false }) s)

/-- The PCIe link goes down (R471). -/
def execHostLinkDown (port : Nat) (s : State) : Out :=
  answer (hostOk port) (changePort port (fun h => { h with linkUp := false, rate := 0, width := 0, flit := false }) s)

/-- Has step 3 of the bring-up completed: also in a module stopped after it (R586, R596)? -/
def imageRead (b : Boot) : Bool :=
  (decide (4 ≤ b.phase) && decide (b.phase ≤ 8)) || (decide (b.phase = 9) && decide (4 ≤ b.lastPhase))

/-- May a host link train: PERST_N deasserted, the module out of reset, its supplies up (R596)? -/
def mayLink (s : State) (port : Nat) : Bool :=
  !(getHost s port).perst && !s.boot.inReset && !s.tripped &&
  ((decide (3 ≤ s.boot.phase) && decide (s.boot.phase ≤ 8)) || imageRead s.boot)

/-- The PCIe link is trained, at a rate, width and mode of Table 15.1 (R441, R471, R596). -/
def execHostLinkUp (port rate width : Nat) (flit : Bool) (s : State) : Out :=
  answer (instrOk (.hostLinkUp port rate width flit))
    (if mayLink s port then changePort port (fun h => { h with linkUp := true, rate := rate, width := width, flit := flit }) s else s)

/-- The identity of a port's function: class code 0x12_0000, vendor and device ID of the Holco image (Table 15.1). -/
def pcieIdent (s : State) : Nat := 0x120000 * 2 ^ 32 + (imageVals s).pcieId % 2 ^ 32

/-- A configuration request: answered with Request Retry Status until 100 ms have passed since PERST_N deassertion and step 3 has
completed (R596). `req.hot` is the power state that a write to the function's power management register asks for: in D3hot the port
goes away, as D0 is the one state supported (R441, R471). -/
def execConfigRequest (port : Nat) (req : ConfigReq) (s : State) : Out :=
  let h := getHost s port
  let w := h.waited || req.waited
  let ok := w && imageRead s.boot
  let d0 := match req.hot with
    | some b => if ok then !b else h.d0
    | none => h.d0
  answer (hostOk port)
    (if h.linkUp && !h.perst then
      emit [.config port (!ok) (if ok then pcieIdent s else 0)] (changePort port (fun h => { h with waited := w, d0 := d0 }) s)
    else s)

end Sys2Proof.Machine
end

