-- ==== Sys2Proof/Machine/JobCmds.lean ====
section
/-!
DEFINITION. Sys2Proof/Machine/JobCmds.lean: the control commands, SUBMIT, the yard, and a job at its stop (R452 to R465, R514 to
R516, R530 to R540).
-/

namespace Sys2Proof.Machine

/-! ### ADMIT_JOB -/

/-- What an ADMIT_JOB buffer holds: the package, and for several modules the members and exchange table (R276, R514). -/
structure AdmitParts where
  pkg : Package
  pkgBytes : List Byte
  members : List (List Byte)
  exch : List ExEnt
  exBytes : List Byte
deriving DecidableEq, Repr

/-- No image entry inside the window's rectangle powers its data banks down (R278). -/
def windowPower (p : Package) (x y w h : Nat) : Bool :=
  !p.compat || (List.range h).all fun j => (List.range w).all fun i =>
    match p.images[(y + j) * p.vw + x + i]? with
    | some e => decide (e.pwr / 16 % 2 = 0)
    | none => true

/-- The buffer cut into its parts, or none where the package or its trailer breaks a limit: FORMAT_REJECTED (R148, R180, R276 to
R278, R453, R514, R516, R542). `own` is this module's id; a leader's must be entry 0. -/
def parseAdmit (d l own : List Byte) (leader : Bool) : Option AdmitParts :=
  let pair := decide (dfield d 1 1 % 2 = 1)
  let multi := decide (l.length ≥ 0x40) && decide (fieldLE l 0xC 2 > 1)
  let mb := if multi then parseMulti l else some { pkg := l, members := [], exch := [], exBytes := [] }
  match mb with
  | none => none
  | some b =>
    match parsePackage b.pkg with
    | none => none
    | some p =>
      let x := dfield d 0x34 1
      let y := dfield d 0x35 1
      let w := dfield d 0x36 1
      let h := dfield d 0x37 1
      if (!pair || decide (p.modules = 1)) && (!multi || (decide (b.members.length = p.modules) && decide (l.length ≤ 2 ^ 30) &&
            (!leader || decide (b.members.getD 0 [] = own)) && b.members.contains own)) &&
          windowOk p (dfield d 0x30 4) x y w h && windowPower p x y w h &&
          admitSizes p (dfield d 0x24 4) (dfield d 0x28 4) (dfield d 0x2C 4) then
        some { pkg := p, pkgBytes := b.pkg, members := b.members, exch := b.exch, exBytes := b.exBytes }
      else none

/-- A job as its admission begins, not yet placed (R453, R514, R518, R540, R542). -/
def newJob (id : Nat) (c : CtlCmd) (a : AdmitParts) (rank jkey : Nat) (up : Option Nat) (downs : List (Nat × Nat)) (pair : Option Pair) : Job :=
  let d := c.desc
  let zero := List.replicate 32 0#8
  { id := id, ended := false, st := 1, auto := decide (dfield d 1 1 / 2 % 2 = 1), suspect := false, recoveries := 0, lastCode := 0
    lastVcid := 0, lastIcount := 0, lastSame := false, pkg := a.pkg, pkgDigest := packageDigest a.pkgBytes a.exBytes, wtDigest := zero
    stepWt := zero, seed := BitVec.ofNat 64 (dfield d 0x18 8), gatherUs := dfield d 0x20 4, inRow := dfield d 0x24 4
    outRow := dfield d 0x28 4, pages := dfield d 0x2C 4, winPages := dfield d 0x30 4
    winRect := (dfield d 0x34 1, dfield d 0x35 1, dfield d 0x36 1, dfield d 0x37 1), place := none, oldPlace := none, table := []
    rank := rank, modules := a.pkg.modules, jkey := jkey, members := a.members, upPort := up, downPorts := downs, exch := a.exch
    steps := 0, stopCount := 0, bucket := none, ordinal := 0, dispatched := false, resumed := false, loading := false, awaitRows := []
    early := [], arrived := [], sel := [], ready := [], gatherDue := false, atStop := none, saves := []
    retire := [], waits := [], ckpt := none, devSave := none, shed := [], cause := none, halted := false, haltOver := false, collect := none, pair := pair
    freqDiv := 0, freqDeferred := false, limits := [], resetMark := 0, replayStop := 0, resuming := none, poisonSeen := false }

/-- The pair state at an admission (R542). -/
def newPair (port : Nat) (primary : Bool) : Pair :=
  { port := port, primary := primary, digest := List.replicate 32 0#8, mine := [], theirs := [], records := [], bad := none }

/-- A package held in the staging range, 256 MiB in each of partitions 0 to 3 or their substitutes (R516). -/
def stagePackage : Nat → Nat → List Byte → State → State
  | 0, _, _, s => s
  | fuel + 1, p, l, s =>
    if l.isEmpty then s
    else
      let q := if partInService s p then p else p + 4
      stagePackage fuel (p + 1) (l.drop 0x10000000)
        (unitWriteDev (boxUnit s) (q * partBytes + partFree * 0x400000 + 0x30000000) (l.take 0x10000000) s)

/-- The tree of an admission: rank, JKEY, parent and child ports, and pair; none where an edge is not an ACTIVE link, or the
module's time is not aligned (R390, R515, R518, R542). -/
def admitTree (s : State) (c : CtlCmd) (a : AdmitParts) : Option (Nat × Nat × Option Nat × List (Nat × Nat) × Option Pair) :=
  let host := decide (c.origin ≥ 14)
  if dfield c.desc 1 1 % 2 = 1 then
    if !s.clock.aligned then none
    else if host then
      let p := dfield c.desc 1 1 / 16
      if p < 12 ∧ (getTrunk s p).st = 7 then some (0, s.box.nextKey, none, [(1, p)], some (newPair p true)) else none
    else some (0, c.jkey, some (c.origin - 2), [], some (newPair (c.origin - 2) false))
  else if a.members.isEmpty then some (0, 0, none, [], none)
  else
    let r := (a.members.findIdx? fun m => decide (m = s.fuses.moduleId)).getD 0
    let t := treeLinks s a.members r
    if !s.clock.aligned then none
    else if host then
      if t.2.length = (kidsOf 0 a.members.length).length then some (0, s.box.nextKey, none, t.2, none) else none
    else if t.1.isSome then some (r, c.jkey, t.1, t.2, none) else none

/-- An ADMIT_JOB whose buffer has been read (R290, R299, R366, R453, R516, R518, R527). -/
def admitWith (c : CtlCmd) (l : List Byte) (s : State) : State :=
  match parseAdmit c.desc l s.fuses.moduleId (decide (c.origin ≥ 14)) with
  | none => finishCmd c 5 0 [] s
  | some a =>
    match admitTree s c a, freeId s with
    | some t, some id =>
      let j := newJob id c a t.1 t.2.1 t.2.2.1 t.2.2.2.1 t.2.2.2.2
      match choosePlace (usable s) (heldPlaces s) a.pkg.vw a.pkg.vh none with
      | none => finishCmd c 6 0 [] s
      | some p =>
        match mapPages s.hbm (savePages s) id j.pages (pageParts s) (placeFields p) with
        | none => finishCmd c 6 0 [] s
        | some h =>
          match placeJob j { s with hbm := zeroJobPages h id } with
          | none => finishCmd c 6 0 [] s
          | some r =>
            if treeSize j > 1 ∧ c.origin ≥ 14 then
              let s1 := stagePackage 5 0 l { r.2 with box := { r.2.box with nextKey := (r.2.box.nextKey + 1) % 2 ^ 32 } }
              multiAnswer id c.ticket 0 0 id [] (forwardCmd r.1 c l s1)
            else if treeSize j > 1 then sendLimit (finishCmd c 0 id [] (stagePackage 5 0 l r.2)) r.1
            else finishCmd c 0 id [] r.2
    | _, _ => finishCmd c 6 0 [] s

/-- ADMIT_JOB starts (R453, R473, R552). -/
def execAdmitJob (ticket : Nat) (buffer : HostBuf) (s : State) : Out :=
  answer true
    (match takeCmd s 1 ticket with
    | none => s
    | some (c, s1) =>
      let n := dfield c.desc 4 4
      if c.origin < 14 then admitWith c (c.data.take n) s1
      else if !cmdPortOk s1 c then finishCmd c 4 0 [] s1
      else
        let r := fillRead n buffer
        if r.2.isEmpty then admitWith c r.1 s1 else finishCmd c 5 0 [] (poisoned 0xFF s1))

/-! ### Commands on an admitted job -/

/-- The admitted job that a command names: by JKEY where it was forwarded, otherwise by id, at the leader of its tree (R452, R516). -/
def cmdJob (s : State) (c : CtlCmd) : Option Job :=
  if c.origin < 14 then (keyJobAt s (c.origin - 2) c.jkey).filter jobAdmitted
  else (liveJob s (dfield c.desc 2 1)).filter fun j => decide (treeRank j = 0)

/-- A command that reaches the leader of several modules goes to every member (R516). -/
def spreadCmd (j : Job) (c : CtlCmd) (s : State) : State := if treeSize j > 1 ∧ c.origin ≥ 14 then forwardCmd j c [] s else s

/-- The pages that bytes v to v + n - 1 touch, and those that they cover wholly. -/
def pagesTouched (v n : Nat) : List Nat := if n = 0 then [] else (List.range ((v % 0x400000 + n + 0x3FFFFF) / 0x400000)).map (v / 0x400000 + ·)
def pagesCovered (v n : Nat) : List Nat := (pagesTouched v n).filter fun p => decide (v ≤ p * 0x400000) && decide ((p + 1) * 0x400000 ≤ v + n)

/-- The entries of job pages. -/
def pageEntries (h : Hbm) (j : Nat) (ps : List Nat) : List Nat := ps.filterMap fun p => entryIndex h j (p * 0x400000)

/-- CRAZED cleared on pages that have been rewritten whole (R367). -/
def clearCrazed (j : Nat) (ps : List Nat) (h : Hbm) : Hbm := modEntries h (pageEntries h j ps) fun e => setField e 62 1 0

/-- The check of R363 for a LOAD_WEIGHTS, which does not ask for W (R454). -/
def loadOk (h : Hbm) (j v n : Nat) : Bool :=
  (pagesTouched v n).all fun p =>
    match entryIndex h j (p * 0x400000) with
    | some i =>
      let e := pageEntry h i
      entValid e && !entDev e && decide (entJob e = j)
    | none => false

/-- Does the range touch the step arena (R286, R454)? -/
def touchesArena (p : Package) (v n : Nat) : Bool := decide (v < p.arenaVa + p.inMax + p.outMax) && decide (p.arenaVa < v + n)

/-- LOAD_WEIGHTS on this module (R367, R454, R473, R540, R552). -/
def loadWeights (j : Job) (c : CtlCmd) (b : HostBuf) (s : State) : State :=
  let v := dfield c.desc 0x18 8
  let n := dfield c.desc 4 4
  let fl := dfield c.desc 1 1
  if !loadOk s.hbm j.id v n || (decide (fl % 2 = 1) && touchesArena j.pkg v n) then endPart j c 5 0 [] s
  else if !cmdPortOk s c then
    endPart j c 4 0 [] (unitWrite (.host (cmdPort s c)) j.id v (b.bytes.take n) (b.failed.filter fun i => decide (i < n)) s)
  else
    let r := fillRead n b
    let s0 := unitWrite (.host (cmdPort s c)) j.id v r.1 r.2 s
    let h1 := clearCrazed j.id (pagesCovered v n) s0.hbm
    let h2 := if fl % 2 = 1 then modEntries h1 (pageEntries h1 j.id (pagesTouched v n)) fun e => setField e 61 1 0 else h1
    let d := nextWtDigest j.wtDigest v n fl r.1 r.2
    let s1 := modJob j.id (fun j => { j with wtDigest := d }) { s0 with hbm := h2 }
    endPart j c 0 0 d (if r.2.isEmpty then s1 else poisoned j.id s1)

/-- Does the LOAD_WEIGHTS change page-map entries: it takes W from a page, or ends the CRAZED of one that it rewrites whole (R367,
R454)? -/
def changesMap (h : Hbm) (j : Job) (c : CtlCmd) : Bool :=
  let v := dfield c.desc 0x18 8
  let n := dfield c.desc 4 4
  (decide (dfield c.desc 1 1 % 2 = 1) && (pageEntries h j.id (pagesTouched v n)).any fun i => entW (pageEntry h i)) ||
  (pageEntries h j.id (pagesCovered v n)).any fun i => (pageEntry h i).getLsbD 62

/-- Does the job run between two stops, where its page-map entries stay as they are (R364)? -/
def mapFixed (j : Job) : Bool := jobRuns j && j.dispatched && j.atStop.isNone

/-- LOAD_WEIGHTS starts (R454). One that changes page-map entries starts only while its job is at a platform stop or runs no step
(R364). DESIGN CHOICE (assumption 109). -/
def execLoadWeights (ticket : Nat) (buffer : HostBuf) (s : State) : Out :=
  answer true
    (match takeCmd s 2 ticket with
    | none => s
    | some (c, s1) =>
      match cmdJob s1 c with
      | none => finishCmd c 5 0 [] s1
      | some j => if mapFixed j && changesMap s.hbm j c then s else loadWeights j c buffer (spreadCmd j c s1))

/-! ### SAVE -/

/-- The pages that a save records: W set, or of the step arena (R531). -/
def recordPages (s : State) (j : Job) : List Nat :=
  (List.range j.pages).filter fun p =>
    (match entryIndex s.hbm j.id (p * 0x400000) with
      | some i => entW (pageEntry s.hbm i)
      | none => false) || touchesArena j.pkg (p * 0x400000) 0x400000

/-- The bytes that a SAVE of the job writes now (R533, R633). -/
def saveNeeds (s : State) (j : Job) (halt : Bool) : Nat :=
  if halt then 4096 + j.pkg.vw * j.pkg.vh * 16384 else saveSize (j.pkg.vw * j.pkg.vh) (recordPages s j).length j.sel.length

/-- A SAVE whose stop is known waits for it (R455). -/
def waitSave (j : Job) (c : CtlCmd) (k : Nat) (halt : Bool) (s : State) : State :=
  let s1 := modJob j.id (fun j => { j with saves := j.saves ++ [{ cmd := c, stop := k, halt := halt }] }) s
  if halt then atCores (jobSites j) (haltCore k) s1 else s1

/-- The checks of a SAVE at its acceptance, and its stop (R455, R530, R533, R632, R633) (assumption 132). -/
def acceptSave (j : Job) (c : CtlCmd) (s : State) : State :=
  let halt := decide (dfield c.desc 1 1 % 2 = 1)
  let stop := dfield c.desc 0x18 4
  if j.st = 2 ∨ (j.st = 3 ∧ j.place.isSome) then
    modJob j.id (fun j => { j with saves := j.saves ++ [{ cmd := c, stop := stop, halt := halt }] }) s
  else if j.place.isNone ∨ j.st = 4 ∨ j.st = 6 ∨ (stop ≠ 0 ∧ stop < j.stopCount) then endPart j c 5 0 [] s
  else
    let need := saveNeeds s j halt
    if dfield c.desc 4 4 < need then endPart j c 5 (ceilDiv need 4096) [] s
    else
      let k := if stop ≠ 0 then stop else match j.atStop with
        | some a => a.k
        | none => j.stopCount + 1
      waitSave j c k halt s

/-- SAVE is accepted (R455, R530). -/
def execSave (ticket : Nat) (s : State) : Out :=
  answer true
    (match takeCmd s 3 ticket with
    | none => s
    | some (c, s1) =>
      match cmdJob s1 c with
      | none => finishCmd c 5 0 [] s1
      | some j => acceptSave j c (spreadCmd j c s1))

/-- The page records of a save, read by a side-band unit. -/
def savePageRecords (u : SideUnit) (s : State) (j : Job) : List Byte × State :=
  (recordPages s j).foldl (fun (acc : List Byte × State) p =>
    let r := unitRead u j.id (p * 0x400000) 0x400000 acc.2
    (acc.1 ++ pageRecord p r.1, r.2)) ([], s)

/-- The bytes of a job's save at stop k, and the state with what its reading counted (Table 18.2). -/
def saveBytes (u : SideUnit) (j : Job) (k : Nat) (s : State) : List Byte × State :=
  let s1 := atCores (jobSites j) readForSave s
  let pg := savePageRecords u s1 j
  let body := saveHeader j false k (recordPages s j).length (timeNow s) ++ selBytes j.sel ++
    (jobSites j).zipIdx.flatMap (fun x => coreRecord j.pkg.vw x.2 (saveCore (getCore s1 x.1))) ++ pg.1
  (body ++ sha256 body, pg.2)

/-- A save, or with HALT a dump, is written at the job's stop (R455, R473, R530 to R535, R633, R634). -/
def writeSave (j : Job) (k ordinal : Nat) (w : SaveReq) (s : State) : State :=
  let c := w.cmd
  let done := fun (s : State) => modJob j.id (fun j => { j with saves := j.saves.filter fun x => !decide (x = w) }) s
  let addr := dfield c.desc 8 8
  let port := cmdPort s c
  if !cmdPortOk s c then
    endPart j c 4 0 [] (modJob j.id (fun j => { j with halted := j.halted || w.halt }) (done s))
  else if w.halt then
    let recs := (jobSites j).map fun x => dumpRecord (getCore s x)
    let s1 := emit [.hostWrite port addr (dumpBytes 0 0 0xFF (timeNow s) [j.id] [] recs)] s
    endPart j c 0 0 [] (modJob j.id (fun j => { j with halted := true }) (done s1))
  else
    let need := saveNeeds s j false
    if dfield c.desc 4 4 < need then endPart j c 5 (ceilDiv need 4096) [] (done s)
    else
      let b := saveBytes (.host port) j k s
      let s1 := emit [.hostWrite port addr b.1] b.2
      let ck : Ckpt := { stop := k, ordinal := ordinal, steps := j.steps, tick := timeNow s, haddr := addr, len := dfield c.desc 4 4,
                         port := port }
      endPart j c 0 0 [] (modJob j.id (fun j => { j with ckpt := some ck, recoveries := 0, lastSame := false })
        (done { s1 with box := { s1.box with saves := sat16 s1.box.saves 1 } }))

/-- SAVE_AT_STOP: the first save that waits for the stop where the job stands (R455, R530). -/
def execSaveAtStop (job : Nat) (s : State) : Out :=
  answer (jobOk job)
    (match getJob s job with
    | none => s
    | some j =>
      match j.atStop with
      | none => s
      | some a =>
        match j.saves.find? fun w => decide (w.stop = a.k) with
        | some w => if jobRuns j && a.released && exchDone j a && a.outDone then advanceStop job (writeSave j a.k a.ordinal w s) else s
        | none => s)

/-! ### RESUME -/

/-- May a RESUME be accepted for the job (R537)? -/
def resumable (j : Job) : Bool :=
  j.resuming.isNone && ((j.place.isSome && !j.dispatched && (decide (j.st = 1) || decide (j.st = 3))) ||
    (j.place.isNone && (decide (j.st = 3) || decide (j.st = 4) || decide (j.st = 6))))

/-- RESUME's checking read (R473, R537, R552). -/
def checkResume (j : Job) (c : CtlCmd) (b : HostBuf) (s : State) : State :=
  if !resumable j then endPart j c 5 0 [] s
  else if !cmdPortOk s c then endPart j c 4 0 [] s
  else
    let placed := if j.place.isSome then some (j, s) else placeJob j s
    match placed with
    | none => endPart j c 6 0 [] s
    | some (j1, s1) =>
      let r := fillRead (dfield c.desc 4 4) b
      let s2 := if r.2.isEmpty then s1 else poisoned j.id s1
      if saveOk j1 { bytes := r.1, failed := r.2 } then
        modJob j.id (fun j => { j with resuming := some c, poisonSeen := !r.2.isEmpty }) s2
      else endPart j c 5 0 [] (if j.place.isSome then s2 else unplaceJob j.id s2)

/-- RESUME (R537). -/
def execResume (ticket : Nat) (buffer : HostBuf) (s : State) : Out :=
  answer true
    (match takeCmd s 4 ticket with
    | none => s
    | some (c, s1) =>
      match cmdJob s1 c with
      | none => finishCmd c 5 0 [] s1
      | some j => checkResume j c buffer (spreadCmd j c s1))

/-- A selected request of a save as the job continues with it: the outstanding request, or one whose output is discarded (R539). -/
def resumedReq (j : Job) (e : Nat × Nat × Nat) : Req :=
  match j.ready.find? fun r => decide (r.ticket = e.1) with
  | some r => { r with row0 := e.2.1, inFailed := false }
  | none =>
    { acc := 0, ticket := e.1, queue := 0, port := 0, ring := 0, dims := [e.2.2, 0, 0, 0], outAddr := 0, outLen := 0, haddr := 0, len := 0,
      tag := 0, tick := 0, rank := treeRank j, row0 := e.2.1, inFailed := false, inDigest := [], orphan := true }

/-- A save requested while the job recovered is judged against the restored stop (R632). -/
def judgeSaves (id k : Nat) (s : State) : State :=
  match getJob s id with
  | some j =>
    j.saves.foldl (fun s w =>
      if w.stop ≠ 0 ∧ w.stop < k then endPart j w.cmd 5 0 [] s
      else
        let next := if j.atStop.isSome then k else k + 1
        waitSave j w.cmd (if w.stop = 0 then next else w.stop) w.halt s) (putJob { j with saves := [] } s)
  | none => s

/-- The state of a save is restored: cores, pages by a side-band unit, counts, selection; every core stands ARRIVED at its stop (R538,
R539). -/
def restoreSave (u : SideUnit) (j : Job) (f : SaveFile) (ordinal : Nat) (s : State) : State :=
  let l := f.bytes
  let bk := fieldLE l 0x1F 1
  let b := (j.pkg.buckets[bk]?).map fun e => (bk, e.inBytes, e.outBytes)
  let k := fieldLE l 0x10 4
  let s1 := j.table.zipIdx.foldl (fun s x => putCore x.1.site (restoreCore (savedCore j f x.2) b (admitCore j x.2 x.1.site (getCore s x.1.site))) s) s
  let s2 := (List.range (saveCounts l).2.1).foldl (fun s i =>
    let p := savedPage f i
    let t := unitWrite u j.id (p.1 * 0x400000) p.2.1 p.2.2 s
    { t with hbm := clearCrazed j.id [p.1] t.hbm }) s1
  let sel := (savedSel l).map (resumedReq j)
  let a : AtStop := { k := k, ordinal := ordinal, final := b.isNone, exNext := j.exch.length, exBusy := false, outDone := true
                      released := true }
  let j1 := { j with
    dispatched := true, resumed := true, stopCount := k, steps := fieldLE l 0x14 4 % 2 ^ 28, bucket := b.map (·.1), ordinal := ordinal
    sel := sel, ready := j.ready.filter fun r => !sel.any fun x => decide (x.ticket = r.ticket)
    atStop := some a, st := if j.suspect then 5 else 1, cause := none, replayStop := j.resetMark, stepWt := j.wtDigest }
  let s3 := putJob j1 { s2 with box := { s2.box with
    resumes := sat16 s2.box.resumes 1
    replaying := if j.suspect && s2.box.replaying.isNone then some j.id else s2.box.replaying } }
  let s4 := match b with
    | some x =>
      let rows := (j.pkg.buckets.getD x.1 { dims := [], inBytes := 0, outBytes := 0 }).dims.getD 0 0
      { s3 with meter := openStep s3.meter j.id j1.steps rows (timeNow s3) (chargedRows (sel.filter fun r => !r.orphan)) }
    | none => s3
  judgeSaves j.id k s4

/-- Where a save's stop lies in its step, when it is the checkpoint that the box still knows; otherwise taken as the first
(assumption 31). -/
def saveOrdinal (j : Job) (l : List Byte) : Nat :=
  match j.ckpt with
  | some c => if c.stop = fieldLE l 0x10 4 ∧ c.steps = fieldLE l 0x14 4 ∧ c.tick = fieldLE l 0x30 8 then c.ordinal else 1
  | none => 1

/-- The restoring read fails: what it restored is void, and the job waits in RESUME_WAIT without placement (R631, R632). -/
def voidRestore (id : Nat) (s : State) : State := 
  refuseSaves id (modJob id (fun j => { j with st := 3, resuming := none }) (unplaceJob id s))

/-- The restoring read of a host RESUME (R473, R538, R539, R631, R634). -/
def restoreResume (j : Job) (c : CtlCmd) (b : HostBuf) (s : State) : State :=
  let r := fillRead (dfield c.desc 4 4) b
  let f : SaveFile := { bytes := r.1, failed := r.2 }
  let s1 := if r.2.isEmpty || j.poisonSeen then s else poisoned j.id s
  if !cmdPortOk s c then endPart j c 4 0 [] (voidRestore j.id s)
  else if !saveOk j f then endPart j c 5 0 [] (voidRestore j.id s1)
  else
    let l := r.1
    let o := saveOrdinal j l
    let ck : Ckpt := { stop := fieldLE l 0x10 4, ordinal := o, steps := fieldLE l 0x14 4, tick := fieldLE l 0x30 8
                       haddr := dfield c.desc 8 8, len := dfield c.desc 4 4, port := cmdPort s c }
    let same := match j.ckpt with
      | some x => decide (x.stop = ck.stop) && decide (x.steps = ck.steps) && decide (x.tick = ck.tick)
      | none => false
    let s2 := restoreSave (.host (cmdPort s c)) { j with resuming := none } f o s1
    let s3 := if same then s2 else modJob j.id (fun j => { j with ckpt := some ck, recoveries := 0, lastSame := false }) s2
    endPart j c 0 0 [] s3

/-- RESUME_RESTORE (R538). -/
def execResumeRestore (job : Nat) (buffer : HostBuf) (s : State) : Out :=
  answer (jobOk job)
    (match getJob s job with
    | some j =>
      match j.resuming with
      | some c => restoreResume j c buffer s
      | none => s
    | none => s)

/-! ### RETIRE_JOB and QUERY -/

/-- RETIRE_JOB is accepted: at once where the job runs no step, otherwise at its next platform stop (R456). -/
def acceptRetire (j : Job) (c : CtlCmd) (s : State) : State :=
  let s1 := modJob j.id (fun j => { j with retire := j.retire ++ [c] }) s
  if j.st = 2 then s1
  else if !jobRuns j ∨ (!j.dispatched ∧ !j.loading) then retireJob j.id s1
  else advanceStop j.id s1

/-- RETIRE_JOB (R456). -/
def execRetireJob (ticket : Nat) (s : State) : Out :=
  answer true
    (match takeCmd s 5 ticket with
    | none => s
    | some (c, s1) =>
      match cmdJob s1 c with
      | none => finishCmd c 5 0 [] s1
      | some j => acceptRetire j c (spreadCmd j c s1))

/-- What a QUERY's record carries: of the module, of the job of an index with its state 0 where there is none, or of a queue (R34,
R457, R519). -/
def queryRec (s : State) (what i : Nat) : QueryRec :=
  match what with
  | 0 => .module s.fuses.grade.code s.clock.div ((s.jobs.filter jobAdmitted).length) (spareCount s)
      ((List.range 128).map fun k => columnSpares (usable s) (k / 16) (k % 16))
  | 1 =>
    match getJob s i with
    | some j => .job i j.st j.stopCount (j.place.map fun p => (p.shared, p.field, p.c0))
    | none => .job i 0 0 none
  | _ => .queue i (readQdesc s.queues i)

/-- QUERY: one record of LEN bytes to HADDR (R457, R473). The spec gives the record's contents and no layout: the message carries the
contents, and the bytes are free values (assumption 12). -/
def execQuery (ticket : Nat) (s : State) : Out :=
  answer true
    (match takeCmd s 6 ticket with
    | none => s
    | some (c, s1) =>
      let n := dfield c.desc 4 4
      if cmdPortOk s1 c then
        finishCmd c 0 0 [] (emit [.hostWrite (cmdPort s1 c) (dfield c.desc 8 8) (openBytes s1 n),
          .query (queryRec s1 (dfield c.desc 0x18 1) (dfield c.desc 0x1C 4))] { s1 with free := s1.free + n })
      else finishCmd c 4 0 [] s1)

/-! ### SUBMIT (R460, R461) -/

/-- The request of an accepted entry. -/
def reqOf (e : SubEnt) (rank : Nat) : Req :=
  { acc := e.acc, ticket := e.ticket, queue := e.queue, port := e.port, ring := e.ring
    dims := (List.range 4).map fun i => dfield e.desc (0x18 + 4 * i) 4, outAddr := dfield e.desc 0x28 8, outLen := dfield e.desc 0x30 4
    haddr := dfield e.desc 8 8, len := dfield e.desc 4 4, tag := dfield e.desc 0x10 8, tick := e.tick, rank := rank, row0 := 0
    inFailed := false, inDigest := [], orphan := false }

/-- The status with which a SUBMIT ends at its acceptance, or none where it becomes ready: the checks of R460 in their order. -/
def submitStatus (s : State) (e : SubEnt) : Option Nat :=
  let r := reqOf e 0
  if !subDescOk e.desc ∨ dfield e.desc 2 1 ≠ e.job then some 5
  else
    match liveJob s e.job with
    | none => some 3
    | some j =>
      if j.st = 6 then some 3
      else if j.st = 4 then some 8
      else if (r.dims.drop j.pkg.ndims).any (fun d => decide (d ≠ 0)) ∨ r.len ≠ r.dims.getD 0 0 * j.inRow ∨
          r.outLen < r.dims.getD 0 0 * j.outRow then some 5
      else if (r.dims.take j.pkg.ndims).any fun d => decide (d = 0) then some 1
      else if (chooseBucket j.pkg r.dims).isNone then some 2
      else none

/-- EMPTY and SHAPE_OVER are counted (R283, R284). -/
def countYard (status : Nat) (s : State) : State :=
  if status = 1 then { s with box := { s.box with empties := sat32 s.box.empties 1 } }
  else if status = 2 then { s with box := { s.box with shapeOver := sat32 s.box.shapeOver 1 } }
  else s

/-- A SUBMIT is checked and becomes ready, announced to the leader of a job of several modules, or completes (R460, R461, R520). -/
def submitEntry (e : SubEnt) (s : State) : State :=
  match submitStatus s e with
  | some st => countYard st (finishReq e.job 0 (reqOf e 0) st 0 [] false s)
  | none =>
    match liveJob s e.job with
    | some j =>
      let r := reqOf e (treeRank j)
      let s1 := putJob { j with ready := insertReq r j.ready } s
      if treeSize j > 1 ∧ treeRank j ≠ 0 then
        msgTo j 0 { TMsg.blank with typ := 5, kind := 1, id := r.ticket, inl := r.dims.flatMap (bytesLE 4) } s1
      else s1
    | none => s

/-- SUBMIT (R460). -/
def execSubmit (ticket : Nat) (s : State) : Out :=
  answer true
    (match s.box.subs.find? fun e => decide (e.ticket = ticket) with
    | some e => submitEntry e { s with box := { s.box with subs := s.box.subs.filter fun x => !decide (x = e) } }
    | none => s)

/-! ### The yard -/

/-- GATHER_US after the oldest ready request (R463). -/
def execYardGatherTimeout (job : Nat) (s : State) : Out :=
  answer (jobOk job) (modJob job (fun j => { j with gatherDue := !j.ready.isEmpty }) s)

/-- The inputs of the module's own requests among `rs`, in order: read, or failed with their port; the requests as they go on
with their bytes and failed offsets (R464, R474, R541, R552). -/
def readInputs (j : Job) : List Req → List HostBuf → State → List (Req × List Byte × List Nat) × State
  | [], _, s => ([], s)
  | r :: rs, bufs, s =>
    if r.rank ≠ treeRank j then
      let q := readInputs j rs bufs s
      ((r, [], []) :: q.1, q.2)
    else if !portPresent (getHost s r.port) then
      let q := readInputs j rs (bufs.drop 1) (finishReq j.id j.steps r 4 0 [] false s)
      (({ r with inFailed := true }, [], []) :: q.1, q.2)
    else
      let b := fillRead r.len (bufs.headD { bytes := [], failed := [] })
      let s1 := if b.2.isEmpty then s else poisoned j.id s
      let q := readInputs j rs (bufs.drop 1) s1
      (({ r with inDigest := inputDigest r.dims b.1 b.2 }, b.1, b.2) :: q.1, q.2)

/-- The ID of a PUSH BROADCAST that carries input rows of a step: no exchange index, which is below 2^32; its ARG names the first row
(assumption 26). -/
def rowsId (step : Nat) : Nat := 2 ^ 32 + step

/-- The rows of one request into the arena, and to every member of a job of several modules (R464, R474, R520). -/
def placeRows (j : Job) (s : State) (x : Req × List Byte × List Nat) : State :=
  let n := x.1.dims.getD 0 0 * j.inRow
  let a := j.pkg.arenaVa + x.1.row0 * j.inRow
  let l := if x.1.inFailed then List.replicate n 0#8 else x.2.1
  let s1 := unitWrite (.host x.1.port) j.id a l x.2.2 s
  let m : TMsg := { TMsg.blank with typ := 7, kind := 1, srcRank := treeRank j, dstRank := 0xFE, jkey := j.jkey, addr := a
                                    id := rowsId (j.steps + 1), arg := x.1.row0, data := l, craz := (x.2.2.map (· / 4)).eraseDups }
  (treePorts j).foldl (fun s p => sendMsg p m false s) s1

/-- The rows of a selection. -/
def selRows (sel : List Req) : Nat := (sel.map fun r => r.dims.getD 0 0).sum

/-- The padding rows of a step in the arena's input part zero: those from the step's D0 up to the bucket's DIM[0] (R285). -/
def padArena (j : Job) (b d0 : Nat) (s : State) : State :=
  match j.pkg.buckets[b]? with
  | some e =>
    unitWrite (boxUnit s) j.id (j.pkg.arenaVa + d0 * j.inRow) (List.replicate ((e.dims.getD 0 0 - d0) * j.inRow) 0#8) [] s
  | none => s

/-- Inputs of the selection are in the arena; the step is dispatched once every row is there (R464, R520). -/
def loadRows (j : Job) (b : Nat) (xs : List (Req × List Byte × List Nat)) (s : State) : State :=
  let own := xs.filter fun x => decide (x.1.rank = treeRank j)
  let s1 := own.foldl (placeRows j) s
  let wait := j.awaitRows.filter fun r => !own.any fun x => decide (x.1.row0 = r)
  let j1 := { j with sel := xs.map (·.1), awaitRows := wait, loading := true, bucket := some b }
  let s2 := putJob j1 s1
  if wait.isEmpty then dispatchStep j.id b s2 else s2

/-- The leader tells every member the bucket and the rows of the step (R520, Table 17.6). -/
def sendDispatch (j : Job) (b : Nat) (sel : List Req) (s : State) : State :=
  if treeSize j > 1 then
    msgTo j 0xFE { TMsg.blank with
      typ := 5, kind := 2, id := min 0xFFFFFFF (j.steps + 1), arg := b
      data := sel.flatMap fun r => bytesLE 8 r.ticket ++ bytesLE 4 r.row0 ++ bytesLE 4 (r.dims.getD 0 0) } s
  else s

/-- The yard of the leader starts a step (R462 to R464, R474, R520). -/
def startStep (j : Job) (inputs : List HostBuf) (s : State) : State :=
  let y := yardSelect s j
  let sel := layRows 0 y.1
  if y.1.isEmpty || !(j.gatherDue || y.2) || !yardOpen s j || !mayDispatch s then s
  else
    match chooseBucket j.pkg (stepShape (sel.map (·.dims))) with
    | none => s
    | some b =>
      let r := readInputs j sel inputs s
      let rest := j.ready.filter fun x => !sel.any fun q => decide (q.ticket = x.ticket)
      if r.1.all fun x => x.1.inFailed then modJob j.id (fun j => { j with ready := rest, gatherDue := gatherOver (timeNow s) { j with ready := rest } }) r.2
      else
        let j1 := { j with ready := rest, awaitRows := sel.map (·.row0) }
        loadRows j1 b r.1 (sendDispatch j b sel (padArena j b (selRows sel) r.2))

/-- A member reads the inputs of its own requests of a step that the leader has named (R520). -/
def memberInputs (j : Job) (b : Nat) (inputs : List HostBuf) (s : State) : State :=
  let due := j.sel.filter fun r => decide (r.rank = treeRank j) && j.awaitRows.contains r.row0
  let r := readInputs j due inputs s
  let upd := fun (x : Req) => match r.1.find? fun q => decide (q.1.ticket = x.ticket) with
    | some q => q
    | none => (x, [], [])
  let s1 := r.1.foldl (placeRows j) r.2
  let wait := j.awaitRows.filter fun n => !r.1.any fun x => decide (x.1.row0 = n)
  let s2 := putJob { j with sel := j.sel.map fun x => (upd x).1, awaitRows := wait } s1
  if wait.isEmpty then dispatchStep j.id b s2 else s2

/-- YARD_INPUT_READ (R464, R520): `inputs` are the reads of this module's own requests in selection order; a step whose inputs are all
there and whose dispatch waits is dispatched (R348, R427). -/
def execYardInputRead (job : Nat) (inputs : List HostBuf) (s : State) : Out :=
  answer (jobOk job)
    (match liveJob s job with
    | none => s
    | some j =>
      if j.loading then
        match j.bucket with
        | some b =>
          if j.awaitRows.isEmpty then dispatchStep job b s else if treeRank j = 0 then s else memberInputs j b inputs s
        | none => s
      else if treeRank j = 0 then startStep j inputs s
      else s)

/-- JOB_AT_STOP: the job arrives at its stop, or goes on from it (R190, R465, R520, R522). -/
def execJobAtStop (job : Nat) (final : Bool) (s : State) : Out :=
  answer (jobOk job)
    (match liveJob s job with
    | none => s
    | some j =>
      if !jobRuns j then reviveShed job s
      else
        match j.atStop with
        | some _ => advanceStop job s
        | none =>
          if j.dispatched then
            match jobStop s j with
            | some k => advanceStop job (enterStop job k final s)
            | none => s
          else s)

end Sys2Proof.Machine
end

