-- ==== Sys2Proof/Machine/MeterCmds.lean ====
section
/-!
DEFINITION. Sys2Proof/Machine/MeterCmds.lean: the end of a metering period, the writing of records, the ledger's flash values, and
the host's read index (R477 to R495).
-/

namespace Sys2Proof.Machine

/-- Ticks of a metering period, and of the 1,000 periods of a HOUSE record (R477, R488). -/
def periodTicks : Nat := 400000

/-- The record flags of a period (Table 16.2). -/
def periodFlags (p : Power) : Nat := (p.feeds.usedB || p.feeds.onB).toNat + 2 * p.pm.reconFault.toNat

/-- The next multiple of 400,000 tt: the end of the current period (R477). -/
def periodEnd (now : Nat) : Nat := (now / periodTicks + 1) * periodTicks

/-- The end of a period whose measured energy is m µJ: reconciled, and at every thousandth a HOUSE record is reserved (R481, R488). -/
def endPeriod (m : Nat) (s : State) : State :=
  let t := periodEnd (timeNow s)
  let k := reconcilePeriod s.meter m (periodFlags s.power)
  let k1 := if t % (1000 * periodTicks) = 0 ∧ isReady s.boot then meterFlags (reserveHouse k (t - 1000 * periodTicks) t) else k
  let s1 := reachTick t s
  { s1 with meter := k1, power := { s1.power with feeds := { s1.power.feeds with usedB := s1.power.feeds.onB } } }

/-- METER_PERIOD_END: `samples` are the raw readings of the period's converters, feed A's and feed B's together (R477, R481)
(assumption 136). -/
def execMeterPeriodEnd (samples : List (FeedSample × FeedSample)) (s : State) : Out :=
  answer true (if s.clock.locked then endPeriod (measuredUj (imageVals s).conv samples) s else s)

/-- A record's bytes go to both copies of its slot (R489, R492). -/
def storeRecord (b : List Byte) (x y : Nat) (s : State) : State :=
  unitWriteDev (boxUnit s) y b (unitWriteDev (boxUnit s) x b s)

/-- WAYBILL_WRITE: the first reserved record is signed and written once its energies are settled (R489 to R493). -/
def execWaybillWrite (s : State) : Out :=
  answer true
    (if isReady s.boot then
      match writeRecord s.meter with
      | some r => storeRecord r.2.1 r.2.2.1 r.2.2.2 { s with meter := r.1 }
      | none => s
    else s)

/-- LEDGER_FLASH_UPDATE: every 10 s (R491). -/
def execLedgerFlashUpdate (s : State) : Out :=
  answer true (if isReady s.boot then { s with meter := saveLedger s.meter false } else s)

/-- LEDGER_READ takes an index (R493). -/
def setLedgerRead (index : Nat) (s : State) : State :=
  { s with meter := meterFlags { s.meter with readIdx := index % 2 ^ 40 } }

/-- LEDGER_READ_WRITE, from a host or the mailbox (R493, R494). -/
def execLedgerReadWrite (index : Nat) (s : State) : Out := answer true (if isReady s.boot then setLedgerRead index s else s)

end Sys2Proof.Machine
end

