-- ==== Sys2Proof/Machine/TrunkOps.lean ====
section
/-!
DEFINITION. Sys2Proof/Machine/TrunkOps.lean: what trunk commands share: the messages of a port's inbox, the identity record and the
time master, and the leaving of a partner (R508 to R519).
-/

namespace Sys2Proof.Machine

/-! ### Messages -/

/-- The places in the inbox of a port of the messages of a type and kind, oldest first. -/
def msgPlaces (t : TPort) (typ kind : Nat) : List Nat :=
  (t.inbox.zipIdx.filter fun m => decide (m.1.typ = typ) && decide (m.1.kind = kind)).map (·.2)

/-- The first message among the places that f accepts, taken from the inbox; f answers none where a message has to wait. -/
def tryMsgs (p : Nat) (f : TMsg → State → Option State) (s : State) : List Nat → State
  | [] => s
  | i :: l =>
    let t := getTrunk s p
    match t.inbox[i]? with
    | some m =>
      match f m (putTrunk p { t with inbox := listDel t.inbox i } s) with
      | some s1 => s1
      | none => tryMsgs p f s l
    | none => s

/-- The meaning of a command that takes a message of a type and kind from a port: the oldest that need not wait; with none it does
nothing. -/
def onMsg (p typ kind : Nat) (f : TMsg → State → Option State) (s : State) : Out :=
  answer (trunkOk p) (tryMsgs p f s (msgPlaces (getTrunk s p) typ kind))

/-- A message is discarded and counted in the LINK.DROPS of the port (R508, R518). -/
def dropMsg (p : Nat) (s : State) : State :=
  let t := getTrunk s p
  putTrunk p { t with drops := sat16 t.drops 1 } s

/-- f with the admitted job that the message's JKEY names; a message that names none is discarded (R518). -/
def withKey (p : Nat) (m : TMsg) (f : Job → State → State) (s : State) : State :=
  match keyJobAt s p m.jkey with
  | some j => f j s
  | none => dropMsg p s

/-- A control message of a job: relayed where it must, and f where it is for this module (R515). -/
def controlMsg (p : Nat) (m : TMsg) (f : Job → State → State) (s : State) : State :=
  withKey p m (fun j s =>
    let r := relayMsg j p m s
    if r.1 then f j r.2 else r.2) s

/-! ### Identity and the time master (R510, R511) -/

/-- A neighbour that an ACTIVE port holds and that may give a time master. -/
def timeNeigh (s : State) (n : Nat) : Option Neigh :=
  let t := getTrunk s n
  if t.st = 7 then t.neigh.filter fun x => decide (x.dist < 15) else none

/-- The lowest module id among the module's own and the masters of its neighbours. -/
def masterId (s : State) : List Byte :=
  (List.range 12).foldl (fun b n =>
    match timeNeigh s n with
    | some x => if idNat x.masterId < idNat b then x.masterId else b
    | none => b) s.fuses.moduleId

/-- The lowest DIST among the neighbours that report the master, with the lowest port that has it. -/
def masterHop (s : State) : Option (Nat × Nat) :=
  let m := masterId s
  (List.range 12).foldl (fun b n =>
    match timeNeigh s n with
    | some x =>
      if x.masterId ≠ m then b
      else match b with
        | some c => if x.dist < c.1 then some (x.dist, n) else b
        | none => some (x.dist, n)
    | none => b) none

/-- The module's time master, its DIST, and its parent port (R511). -/
def timeRole (s : State) : List Byte × Nat × Option Nat :=
  let m := masterId s
  if m = s.fuses.moduleId then (m, 0, none)
  else match masterHop s with
    | some c => (m, c.1 + 1, some c.2)
    | none => (m, 0, none)

/-- The DISCOVER of a port (Table 17.7). -/
def discoverMsg (s : State) (n : Nat) : TMsg :=
  let r := timeRole s
  { TMsg.blank with
    typ := 1, inl := identityBytes s.fuses.moduleId n s.fuses.grade.code (getTrunk s n).width (min 255 r.2.1) s.boot.version r.1 }

/-- Send DISCOVER on a port. -/
def sendDiscover (n : Nat) (s : State) : State := sendMsg n (discoverMsg s n) false s

/-- The master and the parent port chosen anew; every ACTIVE port tells a changed record (R510, R511). -/
def updateMaster (before : List Byte × Nat × Option Nat) (s : State) : State :=
  let r := timeRole s
  let s1 := { s with
    clock := if r.1 = s.fuses.moduleId then ownMaster s.clock else { s.clock with master := false }
    box := { s.box with timeParent := r.2.2 }
    trunks := (List.range 12).foldl (fun m n =>
      smMod TPort.reset m n fun t => { t with parent := decide (r.2.2 = some n) }) s.trunks }
  if before.1 = r.1 ∧ before.2.1 = r.2.1 then s1
  else ((List.range 12).filter fun n => decide ((getTrunk s1 n).st = 7)).foldl (fun s n => sendDiscover n s) s1

/-- A change after which the time master is chosen anew. -/
def mastering (f : State → State) (s : State) : State := updateMaster (timeRole s) (f s)

/-! ### Partners that leave (R517, R519) -/

/-- The partner on a port has left: counted, its neighbour entry gone, and every job with a tree edge there ends (R517). -/
def partnerLeft (p : Nat) (s : State) : State :=
  let t := getTrunk s p
  let ids := (s.jobs.filter fun j => !j.ended && (treePorts j).contains p).map (·.id)
  mastering (fun s =>
    ids.foldl (fun s i => endJob i 3 (some p) false s)
      (putTrunk p { t with leaves := sat16 t.leaves 1, neigh := none } s)) s

/-- t, with the time master chosen anew where port p has come to ACTIVE since s, or left it (R511). -/
def remaster (p : Nat) (s t : State) : State :=
  if ((getTrunk s p).st = 7) = ((getTrunk t p).st = 7) then t else updateMaster (timeRole s) t

/-- A port after a change that may have taken it out of ACTIVE for good (R511, R517, R595). -/
def portChange (p : Nat) (f : TPort → TPort) (s : State) : State :=
  let t := getTrunk s p
  let u := f t
  let s1 := putTrunk p u s
  remaster p s (if portUp t && !portUp u then partnerLeft p s1 else s1)

/-- The meaning of a command on the link of one trunk port, which may begin to retrain: what it sends goes out (R502, R511). -/
def onLink (p : Nat) (f : TPort → TPort × List (List Byte)) (s : State) : Out :=
  let r := f (getTrunk s p)
  answer (trunkOk p) (remaster p s (putFlits p r.2 (putTrunk p r.1 s)))

/-- TRUNKn.CTRL.DISABLE and WIDTH4 take values; a port that is disabled goes to DISABLED (R499). -/
def writeCtrl (p : Nat) (width4 disable : Bool) (s : State) : State :=
  portChange p (fun t =>
    let t1 := { t with width4 := width4, disable := disable }
    if disable && decide (t.st ≠ 0) then portDisabled t1 else t1) s

end Sys2Proof.Machine
end

