-- ==== Sys2Proof/Machine/RegWrite.lean ====
section
/-!
DEFINITION. Sys2Proof/Machine/RegWrite.lean: writes to registers that have no behaviour of their own: their writable fields
take the value written, every other bit and every other register ignores it (R16, R622, R624, R625). Fields whose write has
a command of its own (RELEASE, CLEAR, RES, DUP, SWITCH, COMMIT, ARM, RETRAIN, doorbells, EN and HEAD of rings, EN of control
queues, LEDGER_READ, HOST_CAP from the mailbox) are not written here.
-/

namespace Sys2Proof.Machine

/-- Bits [lo + len - 1 : lo] of a number. -/
def nbits (v lo len : Nat) : Nat := v / 2 ^ lo % 2 ^ len

/-- Bit i of a number. -/
def nbit (v i : Nat) : Bool := decide (v / 2 ^ i % 2 = 1)

/-- A write to offset o of an arbiter set: the shadow fields, not COMMIT. -/
def shadowWrite (a : ArbSet) (o v : Nat) : ArbSet := if o < 0x30 then setWrite a o v else a

/-- A write by the signal box to the word at offset o of a core's register area: v is the word with the bits written merged in,
w the bits written alone. -/
def coreRegWrite (o v w : Nat) (c : Core) : Core :=
  if o = 0x20 then
    { c with stream := { c.stream with
        haltEn := nbit v 62, entryEn := nbit v 61, entry := nbits v 32 13, haltAt := nbits v 0 32 } }
  else if o = 0x408 then
    if nbit w 31 then { c with slab := { c.slab with lastErr := setField c.slab.lastErr 31 1 0 } } else c
  else if o = 0x420 then { c with slab := { c.slab with pwrReq := BitVec.ofNat 36 v } }
  else if 0xA00 ≤ o ∧ o < 0xA40 then { c with arbRd := shadowWrite c.arbRd (o - 0xA00) v }
  else if 0xA40 ≤ o ∧ o < 0xA80 then { c with arbWr := shadowWrite c.arbWr (o - 0xA40) v }
  else c

/-- A write by the signal box to the word at offset o of the blocks SIGNAL, CLOCK, POWER and METER. -/
def boxRegWrite (o v w : Nat) (s : State) : State :=
  if o = 0x104308 then (if nbit w 63 then { s with box := { s.box with lockValid := false } } else s)
  else if o = 0x200018 then { s with clock := { s.clock with target := nbits v 0 5 } }
  else if o = 0x200020 then { s with clock := { s.clock with tick := v % 2 ^ 64 } }
  else if o = 0x300008 then { s with power := { s.power with feeds := { s.power.feeds with bLimit := nbits v 0 16 } } }
  else if 0x301000 ≤ o ∧ o < 0x303800 then
    if o % 16 = 0 then modCluster ((o - 0x301000) / 16) (fun k => { k with target := nbits v 0 10 }) s else s
  else if o = 0x304000 then
    { s with power := { s.power with pm := { s.power.pm with
        fastPct := nbits v 48 8, pin := nbit v 37, pinDiv := nbits v 32 5, hostCap := nbits v 0 16 } } }
  else if o = 0x304020 then
    { s with power := { s.power with pm := { s.power.pm with
        wXfer := nbits v 48 16, wVec := nbits v 32 16, wSlab := nbits v 16 16, wCol := nbits v 0 16 } } }
  else if o = 0x500000 then { s with meter := { s.meter with hUj := nbits v 32 16, attrPpm := nbits v 0 32 } }
  else s

/-- A write by the signal box to the blocks TRUNK, FIELDf, PAGEMAP, ERRLOG and HISTORY. -/
def boxRegWrite2 (o v : Nat) (s : State) : State :=
  if 0x800000 ≤ o ∧ o < 0x8C0000 then
    let n := (o - 0x800000) / 0x10000
    let q := o % 0x10000
    let t := getTrunk s n
    if q = 8 then writeCtrl n (nbit v 1) (nbit v 0) s
    else if 0xF000 ≤ q ∧ q < 0xF040 then putTrunk n { t with arb := shadowWrite t.arb (q - 0xF000) v } s
    else s
  else if 0x1000000 ≤ o ∧ o < 0x9000000 then
    let f := (o - 0x1000000) / 0x1000000
    let q := o % 0x1000000
    if q = 0 then
      atMesh (fun m => modFieldMesh m f fun x => { x with route := BitVec.ofNat 64 v &&& 0x0303030303030303#64 }) s
    else if 0x30000 ≤ q ∧ q < 0x30040 then
      { s with mesh := { s.mesh with arbs := smMod ArbBank.reset s.mesh.arbs f fun b =>
          { b with set_ := shadowWrite b.set_ (q - 0x30000) v } } }
    else if 0x30040 ≤ q ∧ q < 0x30080 then
      { s with hbm := { s.hbm with arbs := smMod ArbBank.reset s.hbm.arbs f fun b =>
          { b with set_ := shadowWrite b.set_ (q - 0x30040) v } } }
    else s
  else if 0x9000000 ≤ o ∧ o < 0x9180000 then
    { s with hbm := { s.hbm with
        entries := smSet 0#64 s.hbm.entries ((o - 0x9000000) / 8) (BitVec.ofNat 64 v &&& 0xF800001F0003FFFF#64) } }
  else if 0x9200000 ≤ o ∧ o < 0x9200100 then
    { s with hbm := { s.hbm with
        runs := smSet 0#64 s.hbm.runs ((o - 0x9200000) / 8) (BitVec.ofNat 64 v &&& 0x8003FFFF0003FFFF#64) } }
  else if o = 0xA000000 then
    { s with errlog := { s.errlog with
        watchdogMs := nbits v 32 16, en1 := nbit v 31, vec1 := nbits v 16 11, en0 := nbit v 15, vec0 := nbits v 0 11 } }
  else if o = 0xB000010 then { s with history := { s.history with query := nbits v 0 32 } }
  else s

/-- A write through port n's BAR0, or by the signal box, to the port's own HOST block at offset q, and to LEDGER_WBASE. -/
def hostRegWrite (n q v : Nat) (s : State) : State :=
  let h := getHost s n
  if q = 0x10 then putHost n { h with qsel := nbits v 0 20 } s
  else if 0x10000 ≤ q ∧ q < 0x12000 then
    let r := (q - 0x10000) / 32
    if q % 32 = 24 then putHost n (setRing h r { getRing h r with base := v / 4096 % 2 ^ 52 * 4096 }) s else s
  else if 0x20000 ≤ q ∧ q < 0x20400 then
    let k := (q - 0x20000) / 16
    if q % 16 = 8 then putHost n (setCq h k { getCq h k with base := v / 4096 % 2 ^ 52 * 4096 }) s else s
  else if 0x40000 ≤ q ∧ q < 0x48000 then
    let i := (q - 0x40000) / 16
    let e := smGet MsixEnt.reset h.msix i
    let e1 : MsixEnt := if q % 16 = 0 then { e with addr := v % 2 ^ 64 / 4 * 4 } else { e with data := nbits v 0 32, mask := nbit v 32 }
    let h1 := { h with msix := smSet MsixEnt.reset h.msix i e1 }
    if smGet false h1.pending i && !e1.mask then
      let r := signalVector n h1 i
      emit r.2 (putHost n r.1 s)
    else putHost n h1 s
  else s

/-- The word as a write leaves it for its RW fields: the bits written over those it keeps. -/
def mergeWrite (old v width hiHalf : Nat) : Nat :=
  if width = 8 then v % 2 ^ 64
  else if hiHalf = 0 then old / 2 ^ 32 * 2 ^ 32 + v % 2 ^ 32
  else old % 2 ^ 32 + v % 2 ^ 32 * 2 ^ 32

/-- The value of a core's register area that the bits not written keep: of an SH register its shadow (R15, R344). -/
def coreKept (c : Core) (o : Nat) : Nat :=
  if o = 0x420 then c.slab.pwrReq.toNat
  else if 0xA00 ≤ o ∧ o < 0xA40 then setShadow c.arbRd (o - 0xA00)
  else if 0xA40 ≤ o ∧ o < 0xA80 then setShadow c.arbWr (o - 0xA40)
  else coreWord c o

/-- The same of the control register space, at offset o of it. -/
def controlKept (s : State) (o : Nat) : Nat :=
  if 0x800000 ≤ o ∧ o < 0x8C0000 ∧ 0xF000 ≤ o % 0x10000 ∧ o % 0x10000 < 0xF040 then
    setShadow (getTrunk s ((o - 0x800000) / 0x10000)).arb (o % 0x10000 - 0xF000)
  else if 0x1000000 ≤ o ∧ o < 0x9000000 ∧ 0x30000 ≤ o % 0x1000000 ∧ o % 0x1000000 < 0x30040 then
    setShadow (smGet ArbBank.reset s.mesh.arbs ((o - 0x1000000) / 0x1000000)).set_ (o % 0x1000000 - 0x30000)
  else if 0x1000000 ≤ o ∧ o < 0x9000000 ∧ 0x30040 ≤ o % 0x1000000 ∧ o % 0x1000000 < 0x30080 then
    setShadow (smGet ArbBank.reset s.hbm.arbs ((o - 0x1000000) / 0x1000000)).set_ (o % 0x1000000 - 0x30040)
  else controlWord s o

/-- What the bits not written keep of the word at a device physical address; none where no register stands. -/
def keptWord (s : State) (a : Nat) : Option Nat :=
  if 0x10000000000 ≤ a ∧ a < 0x10280000000 then
    some (if a % 0x400000 < 0x380000 then 0 else coreKept (getCore s ((a - 0x10000000000) / 0x400000)) (a % 0x400000 - 0x380000))
  else if 0x20000000000 ≤ a ∧ a < 0x2000C000000 then some (controlKept s (a - 0x20000000000))
  else none

/-- A register write from a source at a device physical address (R624, R625). -/
def deviceWrite (src : WriteSrc) (a width v : Nat) (s : State) : State :=
  if ¬((width = 4 ∨ width = 8) ∧ a % width = 0) then s
  else
    match keptWord s (a / 8 * 8) with
    | none => s
    | some old =>
      let hi := a % 8 / 4
      let m := mergeWrite old v width hi
      let w := if width = 8 then v % 2 ^ 64 else v % 2 ^ 32 * 2 ^ (32 * hi)
      if a < 0x20000000000 then
        let site := (a - 0x10000000000) / 0x400000
        let o := a % 0x400000 / 8 * 8
        match src with
        | .box => if o < 0x380000 || windowDark s site then s else putCore site (coreRegWrite (o - 0x380000) m w (getCore s site)) s
        | .bar0 _ => s
      else
        let o := (a - 0x20000000000) / 8 * 8
        if o = 0x500038 then { s with meter := { s.meter with wbase := m % 2 ^ 40 } }
        else
          match src with
          | .bar0 p =>
            let base := 0x700000 + p * 0x80000
            if base ≤ o ∧ o < base + 0x80000 then hostRegWrite p (o - base) m s else s
          | .box =>
            if 0x700000 ≤ o ∧ o < 0x780000 then hostRegWrite 0 (o - 0x700000) m s
            else if 0x780000 ≤ o ∧ o < 0x800000 then hostRegWrite 1 (o - 0x780000) m s
            else if o < 0x700000 then boxRegWrite o m w s
            else boxRegWrite2 o m s

/-! ### The commands -/

/-- A write to a register without behaviour of its own; a changed PIN or PIN_DIV changes what the module asks of its clocks (R429,
R622, R624, R625). -/
def execRegisterWrite (src : WriteSrc) (addr width value : Nat) (s : State) : Out :=
  answer (instrOk (.registerWrite src addr width value)) (reporting (deviceWrite src addr width value) s)

/-- A read through a per-core window, at an offset from the window's base (R622 to R624). Its value goes out. -/
def execCoreWindowRead (site offset width : Nat) (s : State) : Out :=
  answer (siteOk site)
    (emit [.window (if offset < 0x400000 then deviceRead s (0x10000000000 + site * 0x400000 + offset) width else 0)] s)

/-- A write of 1 to CORE.STOP_CTL.RELEASE (R191, R192, R347); the signal box writes it once the core's slab arbiters have taken every
armed commit (R348). -/
def execRelease (site : Nat) (s : State) : Out := onCore site (fun c => if coreArbsTaken c then releaseCore c else c) s

/-- Is the bank the active one? A load of it is refused (R195). -/
def imemActive (bankB : Bool) (c : Core) : Bool := decide (c.stream.bankB = bankB)

/-- A word is loaded into an instruction bank, or the refusal is counted when the bank is the active one (R195). -/
def loadImem (bankB : Bool) (pos : Nat) (word : W64) (c : Core) : Core :=
  let st := c.stream
  if imemActive bankB c then
    { c with stream := { st with imemRefused := sat16 st.imemRefused 1 } }
  else if bankB then { c with stream := { st with imemB := smSet imemEmpty st.imemB pos word } }
  else { c with stream := { st with imemA := smSet imemEmpty st.imemA pos word } }

/-- A write into an instruction bank; a refused one is answered IMEM_ACTIVE (R195). -/
def execImemLoad (site : Nat) (bankB : Bool) (pos : Nat) (word : W64) (s : State) : Out :=
  answer (instrOk (.imemLoad site bankB pos word))
    (emit (if imemActive bankB (getCore s site) then [.imemActive site] else []) (atCore site (loadImem bankB pos word) s))

/-- A write to CORE.IMEM_CTL.SWITCH (R196). -/
def execImemSwitchWrite (site : Nat) (value : Bool) (s : State) : Out :=
  onCore site (fun c => { c with stream := { c.stream with switchReq := value } }) s

end Sys2Proof.Machine
end

