-- ==== Sys2Proof/Machine/MailCmds.lean ====
section
/-!
DEFINITION. Sys2Proof/Machine/MailCmds.lean: the SMBus management mailbox with its flash commands, the Alert Response Address, and
the JTAG port (R613 to R617).
-/

namespace Sys2Proof.Machine

/-! ### The mailbox (R613 to R615) -/

/-- Does the module answer on SMBus and JTAG: step 2 has chosen a signal box (R591, R613, R617)? -/
def answersSmbus (s : State) : Bool := s.boot.standby && s.boot.box2

/-- The mailbox after f. -/
def modMail (f : Mailbox → Mailbox) (s : State) : State := { s with mail := f s.mail }

/-- STATUS.REFUSED is set. -/
def refuseMail (s : State) : State := modMail (fun m => { m with refused := true }) s

/-- STATUS.ERROR is set. -/
def errorMail (s : State) : State := modMail (fun m => { m with error := true }) s

/-- A mailbox command: no answer before the end of step 2, a NACK while BUSY is 1, discarded with ERROR when its PEC fails or its byte
count is not that of Table 21.8 (R613, R614, R616, assumption 24). -/
def mailCmd (pecOk countOk : Bool) (f : State → State) (s : State) : State :=
  if !answersSmbus s then s
  else if s.mail.busy then emit [.nackSmbus] s
  else if !pecOk || !countOk then errorMail s
  else f s

/-- The STATUS byte. -/
def mailStatus (s : State) : Nat :=
  packBits [(0, bit s.mail.busy), (1, bit s.mail.error), (2, bit s.mail.refused), (7, bit (isReady s.boot))]

/-- MAILBOX_STATUS: it answers while BUSY, too, whose bit it shows (R614, assumption 24). -/
def execMailboxStatus (s : State) : Out :=
  answer true
    (if answersSmbus s then
      emit [.smbus [BitVec.ofNat 8 (mailStatus s)]] (modMail (fun m => { m with error := false, refused := false }) s)
    else s)

/-- MAILBOX_ADDR (R614). -/
def execMailboxAddr (bytes : List Byte) (pecOk : Bool) (s : State) : Out :=
  answer true (mailCmd pecOk (decide (bytes.length = 8)) (modMail fun m => { m with addr := ofBytesLE bytes }) s)

/-- MAILBOX_LEN (R614). -/
def execMailboxLen (len : Nat) (pecOk : Bool) (s : State) : Out :=
  answer true (mailCmd pecOk (decide (4 ≤ len) && decide (len ≤ 32)) (modMail fun m => { m with len := len }) s)

/-- The mailbox address advances. -/
def advanceMail (n : Nat) : State → State := modMail fun m => { m with addr := (m.addr + n) % 2 ^ 64 }

/-- METER.LEDGER_READ after a write of width bytes at byte o of the register. -/
def mailLedgerRead (o width v : Nat) (s : State) : State := setLedgerRead (mergeWrite s.meter.readIdx v width (o / 4)) s

/-- The write of v through the mailbox to an allowed register, or none (R615). -/
def mailWrite (a width v : Nat) (s : State) : Option State :=
  let o := a - 0x20000000000
  if a < 0x20000000000 ∨ a % width ≠ 0 then none
  else if o = 0x304000 then some (setHostCap v s)
  else if o / 8 * 8 = 0x500030 then some (mailLedgerRead (o % 8) width v s)
  else if o / 8 * 8 = 0x500038 ∨ o / 8 * 8 = 0xA000000 then some (deviceWrite .box a width v s)
  else if o = 0xB000010 then some (deviceWrite .box a width v s)
  else none

/-- MAILBOX_WRITE (R615). -/
def execMailboxWrite (bytes : List Byte) (pecOk : Bool) (s : State) : Out :=
  let n := bytes.length
  answer true
    (mailCmd pecOk (decide (n = 4) || decide (n = 8)) (fun s =>
      match mailWrite s.mail.addr n (ofBytesLE bytes) s with
      | some t => advanceMail n t
      | none => refuseMail s) s)

/-- May READ read at the address: in the control register space or a per-core window, aligned (R615, R624)? -/
def mailReadable (a : Nat) : Bool :=
  decide (a % 4 = 0) &&
  ((decide (0x10000000000 ≤ a) && decide (a < 0x10280000000)) || (decide (0x20000000000 ≤ a) && decide (a < 0x2000C000000)))

/-- n bytes read by words from an aligned address. -/
def mailBytes (s : State) (a n : Nat) : List Byte :=
  (((List.range 8).flatMap fun i => bytesLE 4 (deviceRead s (a + 4 * i) 4))).take n

/-- What reading them leaves in the units behind the registers: each word of 8 bytes is read once. -/
def mailTouch (a n : Nat) (s : State) : State :=
  (List.range ((a % 8 + n + 7) / 8)).foldl (fun s i => readTouch (a / 8 * 8 + 8 * i) s) s

/-- MAILBOX_READ: LEN bytes at the address, which advances; zeros and REFUSED where nothing may be read (R614, R615, R624). -/
def execMailboxRead (s : State) : Out :=
  answer true
    (mailCmd true true (fun s =>
      let a := s.mail.addr
      let n := s.mail.len
      if mailReadable a then emit [.smbus (mailBytes s a n)] (advanceMail n (mailTouch a n s))
      else emit [.smbus (List.replicate n 0#8)] (refuseMail s)) s)

/-! ### The flash commands (R616) -/

/-- Do n bytes from a flash offset lie in a copy that may be written: the one not in use, or either one in a module stopped with cause
IMAGE (R590, R616)? -/
def copyWritable (b : Boot) (o n : Nat) : Bool :=
  let inCopy := fun (c : Bool) => decide (copyBase c ≤ o) && decide (o + n ≤ copyBase c + 0x10000000)
  if b.phase = 9 ∧ b.cause = 1 then inCopy false || inCopy true else inCopy (!b.copyB)

/-- A flash operation starts: BUSY is set until it finishes. -/
def startFlash (f : SMap Byte → SMap Byte) (s : State) : State := modMail (fun m => { m with busy := true }) { s with flash := f s.flash }

/-- FLASH_ERASE: the sector of the offset (R616). -/
def execFlashErase (bytes : List Byte) (pecOk : Bool) (s : State) : Out :=
  let o := ofBytesLE bytes / 65536 * 65536
  answer true
    (mailCmd pecOk (decide (bytes.length = 4)) (fun s =>
      if copyWritable s.boot o 65536 then startFlash (fun m => flashErase m o 65536) s else refuseMail s) s)

/-- FLASH_WRITE: 128 bytes at the offset (R616). -/
def execFlashWrite (bytes : List Byte) (pecOk : Bool) (s : State) : Out :=
  let o := ofBytesLE (bytes.take 4)
  answer true
    (mailCmd pecOk (decide (bytes.length = 132)) (fun s =>
      if copyWritable s.boot o 128 then startFlash (fun m => flashPut m o (bytes.drop 4)) s else refuseMail s) s)

/-- Is the layout of a flash byte open: fault history, persistent state, or beyond the flash (Table 20.3, assumption 25)? -/
def flashOpen (o : Nat) : Bool := (decide (0x20400000 ≤ o) && decide (o < 0x20610000)) || decide (0x40000000 ≤ o)

/-- The 32 bytes of the flash from an offset on; open ones are free values. -/
def flashRead32 (s : State) (o : Nat) : List Byte :=
  (flashBytes s.flash o 32).zipIdx.zip (openBytes s 32) |>.map fun b => if flashOpen (o + b.1.2) then b.2 else b.1.1

/-- FLASH_READ (R614). -/
def execFlashRead (bytes : List Byte) (pecOk : Bool) (s : State) : Out :=
  answer true
    (mailCmd pecOk (decide (bytes.length = 4)) (fun s =>
      emit [.smbus (flashRead32 s (ofBytesLE bytes))] (drawFree 32 s)) s)

/-- MAILBOX_BUSY_END: the flash operation is done (R616). -/
def execMailboxBusyEnd (s : State) : Out := answer true (modMail (fun m => { m with busy := false }) s)

/-- ALERT_RESPONSE: the target's own address, in the upper seven bits (R613). -/
def execAlertResponse (s : State) : Out :=
  answer true
    (if answersSmbus s && alertAsserted s then emit [.smbus [BitVec.ofNat 8 (2 * (0x58 + s.boot.smbAddr))]] s else s)

/-! ### JTAG (R617) -/

/-- The instruction that takes effect: a locked port knows four (R617). -/
def jtagTake (locked : Bool) : JtagOp → JtagOp
  | .bypass => .bypass
  | .idcode => .idcode
  | .sample => .sample
  | .extest => .extest
  | .other n => if locked then .bypass else .other n

/-- TDO while `bits` are shifted in: the bypass bit or the IDCODE ahead of them; the boundary chain and other registers are open. -/
def jtagOut (s : State) (op : JtagOp) (bits : List Bool) : List Bool :=
  match op with
  | .bypass => (false :: bits).take bits.length
  | .idcode => (idcodeBits ++ bits).take bits.length
  | _ => openBits s bits.length

/-- JTAG_INSTRUCTION: an instruction is loaded, and bits are shifted through the register it selects (R617). -/
def execJtagInstruction (op : JtagOp) (bits : List Bool) (s : State) : Out :=
  let k := jtagTake s.jtag.locked op
  answer true
    (if answersSmbus s then
      emit [.tdo (jtagOut s k bits)] (drawFree bits.length { s with jtag := { s.jtag with ir := k } })
    else s)

end Sys2Proof.Machine
end

