-- ==== Sys2Proof/Machine/MatrixCmds.lean ====
section
/-!
DEFINITION. Sys2Proof/Machine/MatrixCmds.lean: the matrix engine's instructions, columns, monitors and test
injections (R69 to R112).
-/

namespace Sys2Proof.Machine

/-- MMODE starts (R79, R80). -/
def execMmode (site : Nat) (s : State) : Out := onCore site startMmode s

/-- MLOAD starts (R83, R84). -/
def execMload (site : Nat) (s : State) : Out := onCore site startMload s

/-- MLOAD's last row is written (R83, R85). -/
def execMloadComplete (site : Nat) (s : State) : Out := onCore site loadComplete s

/-- MSTREAM starts (R91, R95). -/
def execMstream (site : Nat) (s : State) : Out := onCore site startMstream s

/-- The oldest column in flight accumulates and is checked; `defects` are physical faults that it meets (R105 to R109). -/
def execMstreamColumn (site : Nat) (defects : List Defect) (s : State) : Out := onCore site (runColumn defects) s

/-- The MDRAIN of that count starts; its writes that meet a vector-engine write in their cycle are counted (R100, R221). -/
def execMdrain (site icount : Nat) (s : State) : Out := onCore site (startMdrain icount) s

/-- MCLEAR starts (R103). -/
def execMclear (site : Nat) (s : State) : Out := onCore site startMclear s

/-- A write of 1 to CORE.FMT_MON_CLEAR.CLEAR (R69). -/
def execFmtMonClear (site : Nat) (s : State) : Out := onCore site (fun c => { c with mon := FmtMon.reset }) s

/-- A write of 1 to CORE.MX_WTEST.RES arms one residue injection (R111). -/
def execWtestRes (site : Nat) (s : State) : Out := onCore site (fun c => { c with matrix := { c.matrix with armRes := true } }) s

/-- A write of 1 to CORE.MX_WTEST.DUP arms one duplicate-check injection (R111). -/
def execWtestDup (site : Nat) (s : State) : Out := onCore site (fun c => { c with matrix := { c.matrix with armDup := true } }) s

end Sys2Proof.Machine
end

