-- ==== Sys2Proof/Machine/MeshCmds.lean ====
section
/-!
DEFINITION. Sys2Proof/Machine/MeshCmds.lean: the mesh: injection, flits, forks, local ports, and what a packet does where it
is delivered (R302 to R332, R381 to R383).
-/

namespace Sys2Proof.Machine

/-! ### Injection (R313 to R325) -/

/-- The entry router of an HBM packet of a core: that of the partition of its first byte, in the core's column, and of the core's
own partition for a byte of no page (R318, R355). -/
def hbmEntry (s : State) (p : Packet) : Nat :=
  match hbmTranslate s.hbm p.job p.haddr with
  | some a => entryRouter s.mesh (addrPart a) (siteX p.src % 16)
  | none => entryRouter s.mesh (siteField p.src) (siteX p.src % 16)

/-- The entry router of the signal box; with all four bypassed, which stops the module, one of them (R26, R318). -/
def boxEntry (s : State) : Nat := (unitEntry s.mesh (boxUnit s)).getD ((unitRouters (boxUnit s)).headD 0)

/-- The packet with the routers that DEST and SRC name: an edge unit goes by its entry router (R318). -/
def aimPacket (s : State) (p : Packet) : Packet :=
  match p.typ with
  | .hbmWrite | .hbmRead => { p with dst := hbmEntry s p, dstEdge := true }
  | .control =>
    if p.dst = boxSite then { p with dst := boxEntry s, dstEdge := true }
    else if p.src = boxSite then { p with src := boxEntry s, srcEdge := true }
    else p
  | _ => p

/-- The place at which a packet of a source enters: its core's port, the channel controllers of a router, or a side-band unit. -/
def entryPlace (edge : Bool) (p : Packet) : Nat :=
  if edge then match p.typ with
    | .control => bandPlace p.src
    | _ => hbmPlace p.src
  else p.src

/-- The members of a multicast: sites of PRECT whose cores belong to it (R323). -/
def castSites (s : State) (p : Packet) : List Nat := (rectSitesOf p.prect).filter fun x => castMember (getCore s x) p

/-- Is a field of a member not enabled from the source's field (R314)? A multicast is then refused with NOROUTE. DEDUCED
(assumption 106). -/
def castBarred (s : State) (p : Packet) : Bool :=
  (castSites s p).any fun x => !decide (siteField x = routerField p.src) && decide (getField (getFieldMesh s.mesh (routerField p.src)).route (8 * siteField x) 1 = 0)

/-- The packet on its route, or the status of its refusal (R313, R315): a multicast goes XY. -/
def startRoute (s : State) (p : Packet) : Option Packet × Nat × Mesh :=
  if p.mcast then
    if castBarred s p then
      (none, 4, modFieldMesh s.mesh (routerField p.src) fun f => { f with noroute := sat32 f.noroute 1 })
    else (some { p with order := .xy, yt := 0 }, 0, s.mesh)
  else routePacket p s.mesh

/-- The bytes of a packet's flits, for the estimate (R420) (assumption 125). -/
def packetBytes (p : Packet) : Nat := 128 * (packetFlits p).length

/-- The core of a site counts the bytes of a packet that it injects (R420). -/
def countInject (place : Nat) (p : Packet) (s : State) : State :=
  if isRouter place then
    putCore place (let c := getCore s place
      { c with activity := { c.activity with xfer := c.activity.xfer + packetBytes p } }) s
  else s

/-- One packet enters the mesh at a place on its route, or the place has the NACK of the refusal, whose SRC names the destination that
was refused (R313 to R315). DESIGN CHOICE (assumption 107). -/
def injectOne (place : Nat) (p : Packet) (s : State) : State :=
  match startRoute s p with
  | (some q, _, m) => countInject place q { s with mesh := feedPacket place q m }
  | (none, st, m) =>
    { s with mesh := { m with arrived := m.arrived ++ [{ place := place, pkt := { nackPkt p.dst st p with dst := p.src } }] } }

/-- The router where the tree of a multicast starts: the issuer's, or the entry router for an XCAST from HBM (R324). -/
def treeRoot (p : Packet) : Nat :=
  match p.typ with
  | .hbmRead => p.dst
  | _ => p.src

/-- Is this the packet of an issuing core whose multicast may need a fork at a bypassed router, now or at its entry router
(R325)? -/
def forks (p : Packet) : Bool :=
  match p.typ with
  | .hbmData => false
  | _ => p.mcast || p.cast.isSome

/-- The unicast copies of a multicast that must split: one for each member, for an XCAST from HBM a read (R325). -/
def splitCopies (s : State) (p : Packet) : List Packet :=
  (castSites s p).map fun m =>
    match p.typ with
    | .mcastWrite => { p with typ := .write, mcast := false, dst := m, prect := Rect.zero, vrect := Rect.zero }
    | .hbmRead =>
      let e := (getCore s m).place
      { p with prect := { x0 := siteX m, y0 := siteY m, x1 := siteX m, y1 := siteY m }
               vrect := { x0 := e.vx, y0 := e.vy, x1 := e.vx, y1 := e.vy } }
    | _ => { p with mcast := false, dst := m, prect := Rect.zero, vrect := Rect.zero }

/-- A packet is injected: a multicast that needs a fork at a bypassed router goes as copies (R313, R325). -/
def injectPacket (edge : Bool) (p0 : Packet) (s : State) : State :=
  let p := aimPacket s p0
  let place := entryPlace edge p
  if forks p && mustSplit s.mesh (treeRoot p) p.prect then
    (splitCopies s p).foldl (fun s q => injectOne place q s)
      { s with mesh := modFieldMesh s.mesh (routerField p.src) fun f => { f with mcastSplit := sat32 f.mcastSplit 1 } }
  else injectOne place p s

/-- Packet `index` of an edge unit enters at its entry router (R318, R319). -/
def injectEdge (index : Nat) (s : State) : State :=
  match s.mesh.edge[index]? with
  | some p =>
    if meshUp s (routerField (aimPacket s p).src) then
      injectPacket true p { s with mesh := { s.mesh with edge := listDel s.mesh.edge index } }
    else s
  | none => s

/-- Packet `index` of a core enters at its router through an open port (R313, R328). -/
def injectCore (site index : Nat) (s : State) : State :=
  let c := getCore s site
  match c.out[index]? with
  | some p =>
    if meshUp s (siteField site) && !(getPort s.mesh site).closed then
      injectPacket false p (putCore site { c with out := listDel c.out index } s)
    else s
  | none => s

/-- A source router injects the packet of that index among those its core holds; site 4,096 stands for the edge units (R313). -/
def execPacketInject (site index : Nat) (s : State) : Out :=
  answer (instrOk (.packetInject site index)) (if site = boxSite then injectEdge index s else injectCore site index s)

/-! ### Links -/

/-- The mesh after f at a place, when the routers of its field run. -/
def atPlace (place : Nat) (f : Mesh → Mesh) (s : State) : State := whenUp (meshUp s (routerField place)) (atMesh f) s

/-- A place receives the next flit of an input lane, with the bits that the link inverted: of the data, of the sideband's control
bits, of CCHK, and of the sideband below it (R304 to R309, R320). -/
def execLinkFlitReceive (place lane : Nat) (dataErr : BitVec 1024) (ctlErr : BitVec 12) (cchkErr : BitVec 6) (restErr : BitVec 110)
    (s : State) : Out :=
  answer (laneExists place lane) (atPlace place (receiveLink place lane dataErr (ctlErr ++ (cchkErr ++ restErr))) s)

/-- A crossing that is off its separation recentres after 16 idle entries (R382, R383). -/
def execSeamRecentre (x y lane : Nat) (s : State) : Out :=
  answer (decide (x < 64) && laneExists (placeAt x y) lane) (atPlace (placeAt x y) (recentreSeam (placeAt x y) lane) s)

/-- A VC empty and idle for 64 cc has its credits at full depth again (R307). -/
def execVcCreditReset (place lane vc : Nat) (s : State) : Out :=
  answer (vcOk place lane vc) (atPlace place (resetCredits place lane vc) s)

/-- The open packet of a VC is closed after 64 cc without a flit (R309). -/
def execPacketAbortTimeout (x y lane vc : Nat) (s : State) : Out :=
  answer (decide (x < 64) && vcOk (placeAt x y) lane vc) (atPlace (placeAt x y) (abortVc (placeAt x y) lane vc) s)

/-- A fork drops a branch that has been blocked for 2^20 cc, and sends its DROP_NOTICE (R326). -/
def dropFork (site lane vc : Nat) (port : RPort) (m : Mesh) : Mesh :=
  let r := dropBranch site lane vc port m
  match r.2 with
  | some p => sendFrom site p r.1
  | none => r.1

/-- A fork drops a branch that has been blocked for 2^20 cc (R326). -/
def execForkBranchDrop (site lane vc : Nat) (port : RPort) (s : State) : Out :=
  answer (instrOk (.forkBranchDrop site lane vc port)) (atPlace site (dropFork site lane vc port) s)

/-! ### Local ports (R328 to R330) -/

/-- The local port at column x and row y of a field closes: a packet its core is injecting ends with an ABORT tail, and the rest of one that it is ejecting is consumed
and answered once when it has come (R328 to R330). -/
def execPortClose (field x y reason : Nat) (s : State) : Out :=
  let site := fieldSite field x y
  answer (instrOk (.portClose field x y reason)) (if (getPort s.mesh site).closed then s else closePort reason site s)

/-- Has every cause that closes the port ended (R328): the core not fenced, by the kiln map or a permanent unit neither, its cluster
on, its partition in service? -/
def mayOpen (s : State) (site : Nat) : Bool :=
  !(getPort s.mesh site).bypass && usable s site && coreLive s site && partInService s (siteField site) &&
  decide ((getCore s site).stream.state = .idle) && !s.boot.inReset

/-- A closed local port reopens when its core is IDLE and the cause has ended (R328). -/
def execPortReopen (site : Nat) (s : State) : Out := answer (siteOk site) (if mayOpen s site then openPort site s else s)

/-- The closed port of a site consumes a packet delivered to it (R328, R329). -/
def execPacketToClosedPort (index site : Nat) (s : State) : Out :=
  answer (siteOk site)
    (match s.mesh.arrived[index]? with
    | some a =>
      if decide (a.place = site) && closedFor s site a.pkt then
        closedDrop site a.pkt { s with mesh := { s.mesh with arrived := listDel s.mesh.arrived index } }
      else s
    | none => s)

/-! ### Delivery -/

/-- A packet of one of the types that has come to a core passes its open port and reaches the core; otherwise nothing happens. Each
member of a multicast has a copy of its own (R323). -/
def deliver (types : List PktType) (ok : Packet → Bool) (f : Nat → Packet → Core → Core) (index : Nat) (s : State) : State :=
  match takeArrived types index s with
  | some (a, s1) =>
    if isRouter a.place && ok a.pkt && !closedFor s a.place a.pkt then atCore a.place (f a.place a.pkt) s1 else s
  | none => s

/-- Any packet of the type. -/
def anyPacket (_ : Packet) : Bool := true

/-- A DROP_NOTICE reaches the source of an XCAST (R327). -/
def execDropNotice (index : Nat) (s : State) : Out :=
  answer true (deliver [.dropNotice] anyPacket (fun _ => receiveDrop) index s)

/-- A WRITE packet's rows are stored (R257, R258). -/
def execWritePacket (index : Nat) (s : State) : Out := answer true (deliver [.write] anyPacket receiveWrite index s)

/-- A READ packet is served (R252). -/
def execReadPacket (index : Nat) (s : State) : Out := answer true (deliver [.read] anyPacket receiveRead index s)

/-- READ_DATA rows reach the issuer (R252). -/
def execReadDataPacket (index : Nat) (s : State) : Out :=
  answer true (deliver [.readData] anyPacket (fun _ => receiveData) index s)

/-- An ACK reaches the issuer (R258). -/
def execAckPacket (index : Nat) (s : State) : Out := answer true (deliver [.ack] anyPacket (fun _ => receiveAck) index s)

/-- A NACK at an edge unit, whose packet was refused, is consumed there; any other reaches the issuer. -/
def deliverNack (index : Nat) (s : State) : State :=
  match takeArrived [.nack] index s with
  | some (a, s1) => if isRouter a.place then deliver [.nack] anyPacket (fun _ => receiveNack) index s else s1
  | none => s

/-- A NACK reaches the issuer (R315, R630). -/
def execNackPacket (index : Nat) (s : State) : Out := answer true (deliverNack index s)

/-- A multicast write reaches a member (R323). -/
def execMcastWritePacket (index : Nat) (s : State) : Out := answer true (deliver [.mcastWrite] anyPacket receiveWrite index s)

/-- HBM_DATA of an XGET at its issuer, or of an XCAST at a member (R252, R254). -/
def receiveHbm (site : Nat) (p : Packet) (c : Core) : Core := if p.cast.isSome then receiveWrite site p c else receiveData p c

/-- HBM_DATA reaches the issuer, or a member of a multicast (R252, R254, R359). -/
def execHbmDataPacket (index : Nat) (s : State) : Out := answer true (deliver [.hbmData] anyPacket receiveHbm index s)

/-- A credit reaches a producer (R178, R180). -/
def execCreditPacket (index : Nat) (s : State) : Out :=
  answer true (deliver [.credit] anyPacket (fun _ p => receiveCredit p.src p.slot) index s)

/-- A barrier arrival reaches the region's leader (R267, R268). -/
def execBarrierArrival (index : Nat) (s : State) : Out :=
  answer true (deliver [.barrier] (fun p => !p.release) (fun _ p => tallyArrival p.src p.ident.1 p.ident.2) index s)

/-- A barrier release reaches a core of the region (R267). -/
def execBarrierRelease (index : Nat) (s : State) : Out :=
  answer true (deliver [.barrier] (·.release) (fun _ p => barrierReleased p.ident.1 p.ident.2) index s)

end Sys2Proof.Machine
end

