-- ==== Sys2Proof/Machine/RecoveryCmds.lean ====
section
/-!
DEFINITION. Sys2Proof/Machine/RecoveryCmds.lean: CONTROL packets, recovery, heartbeats, partition resets, suspect replay, the error
log and the fault history (R311, R549 to R576, R628).
-/

namespace Sys2Proof.Machine

/-! ### CONTROL packets -/

/-- A register write that a CONTROL packet carries to a core. -/
def controlWrite (site o v : Nat) (s : State) : State :=
  if 0x380000 ≤ o ∧ ¬windowDark s site then
    let w := coreRegWrite (o - 0x380000) v v
    atCore site (fun c => if o = 0x380020 ∧ nbit v 63 then releaseCore (w c) else w c) s
  else s

/-- A CONTROL packet has come to its place: a fault report or an arrival to the signal box, or a register write to a core, which its
port accepts from the signal box even when it is closed (R188, R198, R311, R328, R623). -/
def takeControl (a : Arrived) (s : State) : State :=
  match a.pkt.ctl with
  | some (.fault code _ _ icount) => if isRouter a.place then s else reportFault a.pkt.src code icount s
  | some (.regWrite o v) =>
    if isRouter a.place && (a.pkt.srcEdge || !closedFor s a.place a.pkt) then controlWrite a.place o v s else s
  | some (.arrival _ _) => s
  | none => s

/-- CONTROL_PACKET (R311). -/
def execControlPacket (index : Nat) (s : State) : Out :=
  answer true
    (match takeArrived [.control] index s with
    | some (a, s1) => takeControl a s1
    | none => s)

/-! ### RECOVERY (R555 to R560) -/

/-- The selection of a device save, and its step's account, in the job that resumes from it (R538, R539). -/
def reselect (id : Nat) (d : DevSave) (s : State) : State :=
  match getJob s id with
  | some j =>
    let sel := d.sel.map (resumedReq j)
    let s1 := putJob { j with
      sel := sel, bucket := d.bucket, ready := j.ready.filter fun r => !sel.any fun x => decide (x.ticket = r.ticket) } s
    match d.bucket.bind fun b => j.pkg.buckets[b]? with
    | some e =>
      { s1 with meter := openStep s1.meter id d.steps (e.dims.getD 0 0) (timeNow s1) (chargedRows (sel.filter fun r => !r.orphan)) }
    | none => s1
  | none => s

/-- The job waits in RESUME_WAIT (R556); a replay that it ran waits with it (R569). -/
def waitResume (id : Nat) (s : State) : State :=
  let s1 := modJob id (fun j => { j with st := 3 }) s
  { s1 with box := { s1.box with replaying := if s1.box.replaying = some id then none else s1.box.replaying } }

/-- The signal box restores the checkpoint itself, from what it reads back of the checkpoint's buffer; a restore that fails leaves the
job in RESUME_WAIT without placement (R537, R538, R556, R631, R632). -/
def autoRestore (j : Job) (ck : Ckpt) (b : HostBuf) (s : State) : State :=
  let r := fillRead ck.len b
  let f : SaveFile := { bytes := r.1, failed := r.2 }
  let s1 := if r.2.isEmpty then s else poisoned j.id s
  if saveOk j f then restoreSave (.host ck.port) j f (saveOrdinal j r.1) s1
  else
    let s2 := waitResume j.id (refuseSaves j.id (unplaceJob j.id s1))
    logEvent { LogEvent.of 2 with job := j.id, code := 5, stop := j.stopCount } s2

/-- Steps 4 and 5 of a recovery: the placement is retired, the job readmitted, and resumed from its device save, its checkpoint or
admission, or left to the host (R434, R555 to R557, R561). -/
def finishRecovery (j : Job) (b : HostBuf) (s : State) : State :=
  let id := j.id
  let s1 := j.shed.foldl (fun s k => gateCluster k s) (modJob id (fun j => { j with shed := [], haltOver := false }) (unplaceJob id s))
  if !j.retire.isEmpty then retireJob id s1
  else
    match getJob s1 id with
    | none => s1
    | some j1 =>
      let dev := j1.devSave.filter fun d => d.valid
      if dev.isNone && j1.ckpt.isNone then
        if holdsState s1 j1 then endJob id 3 none true s1 else judgeSaves id 0 (restartJob j1 s1)
      else
        match placeJob j1 s1 with
        | none => endJob id 6 none true s1
        | some r =>
          match dev, j1.ckpt with
          | some d, _ =>
            if j1.auto then
              judgeSaves id d.stop (reselect id d (modJob id (fun j => { j with st := liveSt j, replayStop := j.resetMark })
                (restoreDev r.1 d r.2)))
            else waitResume id r.2
          | none, some ck =>
            if j1.auto && portPresent (getHost s ck.port) then autoRestore r.1 ck b r.2 else waitResume id r.2
          | none, none => r.2

/-- May the placement of a recovering job be retired: 2^20 cc have passed since its halt, and no partition with its cores or pages is
in reset (R566, R628)? -/
def retirable (s : State) (j : Job) : Bool := (j.place.isNone || j.haltOver) && !resetNear s j true

/-- RECOVERY: what is due of a job's recovery. A suspect's is its replay (R555, R566, R569). -/
def execRecovery (job : Nat) (buffer : HostBuf) (s : State) : Out :=
  answer (jobOk job)
    (match getJob s job with
    | none => s
    | some j =>
      match j.cause with
      | some c => if resetNear s j false || (j.suspect && decide (j.st = 2)) then s else startRecovery j c s
      | none => if j.st = 2 ∧ !j.suspect ∧ retirable s j then finishRecovery j buffer s else s)

/-- RECOVERY_HALT_TIMEOUT: 2^20 cc after the halt (R628). -/
def execRecoveryHaltTimeout (job : Nat) (s : State) : Out :=
  answer (jobOk job)
    (match getJob s job with
    | some j =>
      if j.st = 2 ∧ !j.haltOver then putJob { j with haltOver := true } (abandonJob j s) else s
    | none => s)

/-! ### Heartbeats (R563, R564) -/

/-- The units that missed a heartbeat twice in a row: a unit's count of misses is kept by site, a channel's by 4,096 + n. -/
def missTwice (beats : SMap Nat) (units : List Nat) : List Nat := units.filter fun u => decide (smGet 0 beats u ≥ 1)

/-- HEARTBEAT_TIMER: `silent` placed cores and `silentChannels` did not answer the heartbeat before (R563 to R565). -/
def execHeartbeatTimer (silent silentChannels : List Nat) (s : State) : Out :=
  let cores := silent.filter fun x => siteOk x && (getCore s x).place.placed
  let chans := (silentChannels.filter fun n => decide (n < 512)).map (4096 + ·)
  let units := cores ++ chans
  let hung := missTwice s.box.beats units
  let beats := units.foldl (fun m u => smSet 0 m u (if hung.contains u then 0 else 1)) []
  let s1 := { s with box := { s.box with heartbeat := (s.box.heartbeat + 1) % 2 ^ 64, beats := beats } }
  let s2 := (cores.filter hung.contains).foldl (fun s x => hangJob (getCore s x).place.job Cause.plain s) s1
  answer true ((chans.filter hung.contains).foldl (fun s u => addReset ((u - 4096) / 64) true none s) s2)

/-! ### Partition reset (R565 to R568) -/

/-- A job with a core in a partition that is reset: halted, with a recovery due, and the highest stop count of its cores kept (R565,
R570). -/
def haltForReset (s : State) (id : Nat) : State :=
  match getJob s id with
  | some j =>
    if j.st = 1 ∨ j.st = 3 ∨ j.st = 5 then
      let top := (jobSites j).foldl (fun m x => max m (getCore s x).stream.stopCount) j.stopCount
      haltJob id (putJob { j with resetMark := top, cause := some (j.cause.getD Cause.plain) } s)
    else s
  | none => s

/-- The header bytes of a partition reset's dump: its clusters and channels (Table 19.9). -/
def partHeader (s : State) (p : Nat) : List Byte :=
  (((List.range 640).filter fun k => decide (clusterField k = p)).flatMap fun k =>
    bytesLE 8 (clusterReg s k false) ++ bytesLE 8 (clusterReg s k true)) ++
  (List.range 64).flatMap fun n =>
    bytesLE 8 (fieldWord s p (0x40100 + 16 * n)) ++ bytesLE 8 (fieldWord s p (0x40108 + 16 * n))

/-- The dump and the log entry of a partition reset (R565, R574, R575). -/
def dumpPartition (p : Nat) (ids : List Nat) (s : State) : State :=
  let t := takeSlot s
  let seq := t.2.errlog.nextSeq
  let s1 := logEvent { LogEvent.of 5 with dump := t.1 } t.2
  storeDump p t.1 (dumpBytes seq 5 p (timeNow s) ids (partHeader s p) (dumpRecs s (fieldSites p)))
    { s1 with errlog := { s1.errlog with partResets := sat16 s1.errlog.partResets 1 } }

/-- A device save with a page in the partition is lost; a job that waits without placement for it recovers otherwise (R536, R567). -/
def loseDevSave (p : Nat) (j : Job) : Job :=
  match j.devSave with
  | some d =>
    if d.pages.any fun g => decide (g / partPages = p) then
      let j1 := { j with devSave := some { d with valid := false } }
      if j.place.isNone ∧ (j.st = 1 ∨ j.st = 5) then { j1 with st := 2, cause := some Cause.plain } else j1
    else j
  | none => j

/-- The jobs that become suspects: every job with a core in a partition whose reset a hang caused, or the one job whose replay failed
(R569, R570). -/
def makeSuspects (e : PartRst) (ids : List Nat) (s : State) : State :=
  let new := if e.hang then ids.filter fun i => e.only.isNone || decide (e.only = some i) else []
  let fresh := s.box.suspects.isEmpty && !new.isEmpty
  { s with
    jobs := s.jobs.map fun j => if new.contains j.id then { j with suspect := true } else j
    box := { s.box with
      suspects := s.box.suspects ++ new.filter fun i => !s.box.suspects.contains i
      replayBad := s.box.replayBad && !fresh
      replaying := if s.box.replaying.any ids.contains then none else s.box.replaying } }

/-- The clusters of a partition. -/
def partClusters (p : Nat) : List Nat := (List.range 640).filter fun k => decide (clusterField k = p)

/-- The regulators of a partition are reset; a cluster without its field rail stays dark for that reason (R402, R565, R567). -/
def resetClusters (p : Nat) (s : State) : State :=
  settleSensors ((partClusters p).foldl
    (fun s k => modCluster k (fun c => { outputOff c with state := if c.state = 5 then 5 else 0, sliceOk := 0#4 }) s) s)

/-- Steps 1 to 4 of a partition reset, and the loss of what its cores and regulators held: its ports close and its sites are fenced,
what waits at its channel controllers is answered FENCED (R405, R565 to R569). DEDUCED (assumption 119). -/
def beginReset (e : PartRst) (s : State) : State :=
  let p := e.part
  let ids := (s.jobs.filter fun j => !j.ended && (jobParts j).contains p).map (·.id)
  let e1 := { e with begun := true, jobs := ids }
  let s1 := { s with
    box := { s.box with resets := (s.box.resets.filter fun r => !decide (r.part = p)) ++ [e1] }
    hbm := { s.hbm with resetDue := s.hbm.resetDue.filter fun q => !decide (q = p) } }
  let s2 := ids.foldl haltForReset (dropRequests p (fenceSites 4 (fieldSites p) s1))
  let s3 := dumpPartition p ids s2
  let s4 := (fieldSites p).foldl (fun s x => clearCore x s) { s3 with hbm := crazePartition s3.hbm p }
  let s5 := resetClusters p s4
  makeSuspects e ids { s5 with jobs := s5.jobs.map (loseDevSave p) }

/-- n bytes from device physical address a on as the bytes from b on, each word read once, decoded and counted (R359, R445, R492). A
word that is not listed is zero, and needs no read. -/
def copyRange (now a b n : Nat) (h : Hbm) : Hbm :=
  let src := h.words.filter fun w => decide (b / 8 ≤ w.1) && decide (w.1 < (b + n) / 8)
  let rest := h.words.filter fun w => !(decide (a / 8 ≤ w.1) && decide (w.1 < (a + n) / 8))
  src.foldl (fun h w =>
    let r := hbmReadWord now [] (8 * w.1) h
    hbmWriteWord (8 * w.1 + a - b) r.1.data r.1.crazed r.2) { h with words := rest }

/-- The queue entries, both copies of the ledger and the resident section of a partition's reserved area, from partition p ± 4 (R445,
R492, R565, R584). -/
def restoreCopies (now p : Nat) (h : Hbm) : Hbm :=
  let at_ := fun (p mib : Nat) => p * partBytes + partFree * 0x400000 + mib * 0x100000
  let q := (p + 4) % 8
  copyRange now (at_ p 656) (at_ q 656) 0x7000000
    (copyRange now (at_ p 388) (at_ q 260) 0x8000000
      (copyRange now (at_ p 260) (at_ q 388) 0x8000000 (copyRange now (at_ p 0) (at_ q 0) 0x10400000 h)))

/-- A stack of the partition has been retrained (R371). -/
def retrained (stack : Nat) (h : Hbm) : Hbm :=
  let k := getStack h stack
  setStack h stack { k with state := 2, trainTemp := k.temp, attempts := 0, ceTimes := [], retrains := sat16 k.retrains 1 }

/-- The stacks of partition p whose three attempts at retraining failed stay FAILED, their channels entered in the history; the other
has been retrained (R371). -/
def stacksAfter (p : Nat) (failing : List (Nat × List Nat)) (s : State) : State :=
  let us := (failing.filter fun f => decide (f.1 / 2 = p)).flatMap fun f => f.2.map fun c => unitChan (f.1 / 2 * 64 + 32 * (f.1 % 2) + c % 32)
  let h := [2 * p, 2 * p + 1].foldl (fun h k =>
    let x := getStack h k
    if failing.any fun f => decide (f.1 = k) then
      setStack h k { x with state := 4, attempts := 0, ceTimes := [], retrains := sat16 x.retrains 4 }
    else retrained k h) s.hbm
  histEvents us { s with hbm := h }

/-- Has the job a page with W clear in the partition (R566)? -/
def losesWeights (s : State) (p : Nat) (j : Job) : Bool :=
  !j.ended && (runEntries s.hbm j.id).any fun i =>
    let e := pageEntry s.hbm i
    entValid e && !entW e && decide (entPage e / partPages = p)

/-- What follows for the jobs: one with a page with W clear there ends with RELOAD_NEEDED, every other one that was halted may go on
(Table 19.4). -/
def afterReset (e : PartRst) (s : State) : State :=
  let lost := (s.jobs.filter (losesWeights s e.part)).map (·.id)
  let s1 := e.jobs.foldl (fun s i =>
    match getJob s i with
    | some j => if j.st = 2 then putJob { j with haltOver := true } (abandonJob j s) else s
    | none => s) s
  updateSpares (lost.foldl (fun s i => reloadJob i s) s1)

/-- The partition stays out of service until module reset (R402, R565). -/
def partitionOut (e : PartRst) (s : State) : State :=
  let s1 := { s with box := { s.box with
    resets := s.box.resets.filter fun r => !decide (r.part = e.part), partsOut := s.box.partsOut ++ [e.part] } }
  afterReset e (logEvent (LogEvent.of 6) s1)

/-- Steps 5 and 6 of a partition reset (R349, R371, R406, R415, R565, R581). -/
def endReset (e : PartRst) (tests : List SliceTest) (failed : List CoreTest) (s : State) : State :=
  let p := e.part
  let s1 := (partClusters p).foldl (fun s k => modCluster k clusterOn s) ((partClusters p).foldl (testCluster tests) s)
  let s2 := (fieldSites p).foldl (fun s x => putCore x (slabDefaults { getCore s x with fenced := true }) s) s1
  let s3 := (failed.filter fun t => siteOk t.site && decide (siteField t.site = p) && coreLive s2 t.site).foldl failCore s2
  let s4 := (fieldSites p).foldl (fun s x => endFence (closePort (if coreLive s x then 1 else 2) x s) x) s3
  let s5 := if partInService s4 ((p + 4) % 8) then atHbm (restoreCopies (timeNow s4) p) s4 else s4
  afterReset e { s5 with box := { s5.box with resets := s5.box.resets.filter fun r => !decide (r.part = p) } }

/-- The reset of a partition that is due or under way. -/
def resetOf (s : State) (p : Nat) : Option PartRst :=
  match s.box.resets.find? fun r => decide (r.part = p) with
  | some e => some e
  | none =>
    if s.hbm.resetDue.contains p ∧ !s.box.partsOut.contains p then some { part := p, begun := false, hang := false, only := none, jobs := [] }
    else none

/-- A reset under way ends: its stacks are retrained, and the partition returns unless one of them still fails or its field rail is
off (R371, R402, R565). -/
def finishReset (e : PartRst) (tests : List SliceTest) (failed : List CoreTest) (unstable : List (Nat × List Nat)) (s : State) : State :=
  if !(getRail s.power e.part).fieldOn then partitionOut e s
  else
    let s1 := stacksAfter e.part unstable s
    if unstable.any fun f => decide (f.1 / 2 = e.part) then partitionOut e s1 else endReset e tests failed s1

/-- PARTITION_RESET: a reset that is due begins; one under way ends with what its tests found. `unstable` are the stacks that failed
their retraining and its retries, with their channels (R371, R565). -/
def execPartitionReset (partition : Nat) (tests : List SliceTest) (failed : List CoreTest) (unstable : List (Nat × List Nat))
    (s : State) : Out :=
  answer (fieldOk partition)
    (match resetOf s partition with
    | none => s
    | some e => if e.begun then finishReset e tests failed unstable s else beginReset e s)

/-- PARTITION_RESET_TIMEOUT: 1.5 s have passed (R565). -/
def execPartitionResetTimeout (partition : Nat) (s : State) : Out :=
  answer (fieldOk partition)
    (match resetOf s partition with
    | some e => if e.begun then partitionOut e s else s
    | none => s)

/-! ### Suspect replay (R569, R570) -/

/-- The suspect to act on: the one that replays, while its recovery goes on; else the lowest that may start. -/
def nextSuspect (s : State) : Option Job :=
  let ready := fun (j : Job) => decide (j.st = 2) && retirable s j
  match s.box.replaying with
  | some id => (getJob s id).filter ready
  | none => s.jobs.find? fun j => !j.ended && j.suspect && (ready j || decide (j.st = 5))

/-- A suspect's replay is its recovery; one that the host has resumed meanwhile just replays. -/
def replayJob (j : Job) (b : HostBuf) (s : State) : State :=
  let s1 := { s with box := { s.box with replaying := some j.id } }
  if j.st = 5 then s1
  else
    let s2 := match j.cause with
      | some c => startRecovery j c s1
      | none => s1
    let s3 := match getJob s2 j.id with
      | some k => if k.st = 2 ∧ !k.ended then finishRecovery { k with haltOver := true } b s2 else s2
      | none => s2
    { s3 with box := { s3.box with
        replaying := if (getJob s3 j.id).any fun k => decide (k.st = 5) then s3.box.replaying else none } }

/-- SUSPECT_REPLAY (R569). -/
def execSuspectReplay (buffer : HostBuf) (s : State) : Out :=
  answer true
    (match nextSuspect s with
    | some j => replayJob j buffer s
    | none => s)

/-- REPLAY_WATCHDOG: the replaying job's cores have been released for ERRLOG.CFG.WATCHDOG_MS, and none has arrived (R570). -/
def execReplayWatchdog (job : Nat) (s : State) : Out :=
  answer (jobOk job)
    (match getJob s job with
    | some j =>
      if s.box.replaying = some job ∧ j.st = 5 ∧ j.dispatched ∧ j.atStop.isNone ∧ j.cause.isNone ∧
          ((jobSites j).all fun x => decide (coreStop (getCore s x) = none)) then replayFail job s
      else s
    | none => s)

/-! ### The error log and the fault history in flash (R572, R574, R575) -/

/-- DUMP_FLASH_COPY: the oldest dump not yet in flash goes to the next of the four slots there (R575). -/
def execDumpFlashCopy (s : State) : Out :=
  answer true
    (match s.errlog.dumpsUnsaved with
    | [] => s
    | d :: rest =>
      let a := 0x21000000 + s.errlog.flashDumps % 4 * 0x800000
      { s with
        flash := flashPut (flashErase s.flash a 0x800000) a (d.take 0x800000)
        errlog := { s.errlog with dumpsUnsaved := rest, flashDumps := s.errlog.flashDumps + 1 } })

/-- ERRLOG_FLASH_WRITE: the entries not yet in flash are written (R574). -/
def execErrlogFlashWrite (s : State) : Out :=
  answer true
    (let f := s.errlog.unsaved.foldl (fun m e => flashPut m (0x20000000 + e.1 % 65536 * 64) e.2) s.flash
     if s.errlog.unsaved.isEmpty then s
     else { s with flash := f, errlog := { s.errlog with unsaved := [], flashSeq := s.errlog.nextSeq } })

/-- HISTORY_TIME_TICK: a second of powered time; every tenth is saved to flash (R572). -/
def execHistoryTimeTick (s : State) : Out :=
  answer true
    (if historyLoaded s.boot then
      let t := (s.history.time + 1) % 2 ^ 32
      { s with history := { s.history with time := t, savedTime := if t % 10 = 0 then t else s.history.savedTime } }
    else s)

end Sys2Proof.Machine
end

