-- ==== Sys2Proof/Machine/TrunkCmds.lean ====
section
/-!
DEFINITION. Sys2Proof/Machine/TrunkCmds.lean: training, lanes, flits, presence, discovery, heartbeats and time of the trunk ports
(R496 to R513, R594, R595, R610).
-/

namespace Sys2Proof.Machine

/-! ### Training and lanes -/

/-- May the port leave DISABLED: READY, a partner present, not disabled and not quarantined (R499, R594, R595, R599)? -/
def mayTrain (s : State) (t : TPort) : Bool := isReady s.boot && t.present && !t.disable && !t.quarantined

/-- The lanes that a port may use: those that are not permanent units (Table 19.6). -/
def goodLanes (s : State) (p : Nat) (lanes : BitVec 9) : BitVec 9 :=
  (List.range 9).foldl (fun m i => if s.history.permanent.contains (unitLane p i) then setField m i 1 0 else m) lanes

/-- A port goes from one training state to the next; DISCOVER is sent as IDENTIFY begins, and a port that becomes ACTIVE may bring a new
time master (R499, R503, R510, R511). -/
def trainStep (p : Nat) (lanes : BitVec 9) (presets : List Nat) (rtt peerSeq : Nat) (s : State) : State :=
  let t := getTrunk s p
  let r := trainAdvance t (mayTrain s t) (goodLanes s p lanes) presets rtt peerSeq (timeNow s)
  let s1 := putFlits p r.2 (portChange p (fun _ => r.1) s)
  if t.st = 5 ∧ r.1.st = 6 then sendDiscover p s1 else s1

/-- TRUNK_TRAIN_ADVANCE: what the port finds in its state; `rttNs` and `peerSeq` are what LINK measures and the partner's INIT reports
(R499, R500, R503). -/
def execTrunkTrainAdvance (port : Nat) (lanes : LaneReport) (rttNs peerSeq : Nat) (s : State) : Out :=
  answer (trunkOk port) (trainStep port lanes.lanes lanes.presets rttNs peerSeq s)

/-- TRUNK_TRAIN_TIMEOUT: the training state fails (R499, R595). A port that waits for its next attempt has no timeout. -/
def execTrunkTrainTimeout (port : Nat) (s : State) : Out :=
  let t := getTrunk s port
  answer (trunkOk port)
    (if 1 ≤ t.st ∧ t.st ≤ 6 ∧ !t.waiting then portChange port (lostPort (timeNow s)) s else s)

/-- LANE_FAIL: a logical lane fails, or with `whole` more than 64 codewords across the port are uncorrectable within 1 ms; the
physical lane of a failed logical lane has an event (R501, R502, R571). -/
def execLaneFail (port : Nat) (whole : Bool) (lane : Nat) (s : State) : Out :=
  let t := getTrunk s port
  answer (instrOk (.laneFail port whole lane))
    (if t.st = 7 then
      if whole then remaster port s (putTrunk port (laneFail t none) s)
      else
        match t.map[lane]? with
        | some x => histEvent (unitLane port x) (remaster port s (putTrunk port (laneFail t (some lane)) s))
        | none => s
    else s)

/-- SPARE_SWAP: the named frame starts (R501) (assumption 134). -/
def execSpareSwap (swap : SwapStart) (s : State) : Out :=
  answer (instrOk (.spareSwap swap)) (putTrunk swap.port (swapLane (peerSwap swap.peer (getTrunk s swap.port))) s)

/-- TRUNK_CTRL_RETRAIN (R502). -/
def execTrunkCtrlRetrain (port : Nat) (s : State) : Out := onLink port (fun t => (startTrunkRetrain t true, [])) s

/-- RETRAINING_LIMIT: a retraining has taken more than 100 ms: the partner has left, and the link-layer state restarts empty (R503). -/
def execRetrainingLimit (port : Nat) (s : State) : Out :=
  answer (trunkOk port)
    (if (getTrunk s port).retraining then portChange port (fun t => { clearLink t with retraining := false, ctrlRetrain := false }) s
    else s)

/-- Does the west end of the connector hold the port (R601, R610)? -/
def portWest (p : Nat) : Bool := decide (p < 4)

/-- TRCLK_LOST: TRCLK_E, or TRCLK_W, stops; its ports leave ACTIVE, and those in training fail (R610). -/
def execTrclkLost (east : Bool) (s : State) : Out :=
  answer true
    (((List.range 12).filter fun p => !decide (portWest p = east) && decide ((getTrunk s p).st ≥ 2)).foldl
      (fun s p => portChange p (lostPort (timeNow s)) s) s)

/-! ### Presence and retries (R594, R595) -/

/-- PORT_PRESENT_CHANGE: the input has held its new level, asserted where `present`, for 10 ms. -/
def execPortPresentChange (port : Nat) (present : Bool) (s : State) : Out :=
  answer (trunkOk port)
    (portChange port (fun t => presenceChange { t with rawPresent := present } present (timeNow s)) s)

/-- TRUNK_RETRY_BACKOFF: the retry wait has passed. -/
def execTrunkRetryBackoff (port : Nat) (s : State) : Out := onTrunk port (fun t => ({ t with waiting := false }, [])) s

/-- TRUNK_QUARANTINE_END: the 60 s have passed. -/
def execTrunkQuarantineEnd (port : Nat) (s : State) : Out := onTrunk port (fun t => ({ t with quarantined := false }, [])) s

/-! ### Flits (R504 to R506) -/

/-- The codewords that the lanes have received since the slot before, by their wrong symbols, enter the counters (R498). -/
def countCodewords (errors : List Nat) (t : TPort) : TPort :=
  let n := fun (r : RsResult) => (errors.filter fun e => decide (rsResult e = r)).length
  { t with fecCorr := sat32 t.fecCorr (n .corrected), fecUnc := sat32 t.fecUnc (n .uncorrectable) }

/-- TRUNK_FLIT_RECEIVE: the header and payload bytes and the CRC of a flit slot as the lanes' decoders deliver them, and the number of
wrong symbols in each codeword that came since the slot before (R498, R504 to R506, R508). -/
def execTrunkFlitReceive (port : Nat) (bytes : List Byte) (crc : BitVec 64) (errors : List Nat) (s : State) : Out :=
  onLink port (fun t =>
    let t1 := countCodewords errors t
    if t.st ≥ 6 then receiveTFlit t1 (bytes ++ bytesBE 8 crc.toNat) else (t, [])) s

/-- TRUNK_REPLAY_TIMEOUT: the oldest unacknowledged flit has waited 1 µs and the round trip (R505). -/
def execTrunkReplayTimeout (port : Nat) (s : State) : Out :=
  onLink port (fun t => if t.st ≥ 6 then replayEvent t else (t, [])) s

/-- TRUNK_ACK_TIMER: 100 ns after the first flit not yet acknowledged (R505). -/
def execTrunkAckTimer (port : Nat) (s : State) : Out :=
  onTrunk port (fun t =>
    if t.st ≥ 6 ∧ t.unacked > 0 then
      let r := sendIdle t false
      (r.1, [r.2])
    else (t, [])) s

/-! ### Discovery and heartbeats (R510, R511, R513) -/

/-- A DISCOVER: the neighbour entry takes its record. A partner with another module id than the one held has left, and the link-layer
state restarts empty (R503, R510, R511). -/
def takeDiscover (p : Nat) (m : TMsg) (s : State) : State :=
  let n := parseNeigh m.inl
  let other := match (getTrunk s p).neigh with
    | some x => !decide (x.moduleId = n.moduleId)
    | none => false
  let s1 := if other then
      let q := partnerLeft p s
      putTrunk p (clearLink (getTrunk q p)) q
    else s
  mastering (fun s => putTrunk p { getTrunk s p with neigh := some n } s) s1

/-- DISCOVER (R510). -/
def execDiscover (port : Nat) (s : State) : Out := onMsg port 1 0 (fun m s => some (takeDiscover port m s)) s

/-- DISCOVER_TIMER: every 100 ms while ACTIVE (R510). -/
def execDiscoverTimer (port : Nat) (s : State) : Out :=
  answer (trunkOk port) (if (getTrunk s port).st = 7 then sendDiscover port s else s)

/-- HEARTBEAT: the partner is there (R513). -/
def execHeartbeat (port : Nat) (s : State) : Out := onMsg port 2 0 (fun _ s => some s) s

/-- TRUNK_HEARTBEAT_TIMER: every 1 ms while ACTIVE; ID is the count of heartbeats (R513, Table 17.6). -/
def execTrunkHeartbeatTimer (port : Nat) (s : State) : Out :=
  let t := getTrunk s port
  answer (trunkOk port)
    (if t.st = 7 then
      let n := (t.hbCount + 1) % 2 ^ 64
      sendMsg port { TMsg.blank with typ := 2, id := n } false (putTrunk port { t with hbCount := n } s)
    else s)

/-- HEARTBEAT_TIMEOUT: 5 ms without one while ACTIVE; the partner, which has not yet left, has left (R513, R517). -/
def execHeartbeatTimeout (port : Nat) (s : State) : Out :=
  answer (trunkOk port) (if (getTrunk s port).st = 7 ∧ (getTrunk s port).neigh.isSome then partnerLeft port s else s)

/-! ### Time (R389, R512) -/

/-- The i-th timestamp that a command takes: 32 times the time counter plus the root-cycle phase within the tick, which is a free value
(assumption 3). -/
def timestamp (s : State) (i : Nat) : Nat := (32 * timeNow s + (Config.freeValue (s.free + i)).toNat % 32) % 2 ^ 64

/-- TIME_SYNC_TIMER: every 1 ms TIME REQ goes to the parent port (R512). -/
def execTimeSyncTimer (s : State) : Out :=
  answer true
    (match s.box.timeParent with
    | some p =>
      let t1 := timestamp s 0
      let s1 := drawFree 1 { s with box := { s.box with timeReq := some t1 } }
      sendMsg p { TMsg.blank with typ := 3, id := t1 } false s1
    | none => s)

/-- TIME_REQ: TIME RESP carries the arrival and a departure no earlier (R512). -/
def execTimeReq (port : Nat) (s : State) : Out :=
  onMsg port 3 0 (fun m s =>
    let t2 := timestamp s 0
    let t3 := max t2 (timestamp s 1)
    some (sendMsg port { TMsg.blank with typ := 3, kind := 1, id := m.id, inl := bytesLE 8 t2 ++ bytesLE 8 t3 } false (drawFree 2 s))) s

/-- Half of a difference of root cycles, in ps: a root cycle is 1/32 of a tick of 2,500 ps. -/
def halfRcPs (d : Int) : Int := d * 625 / 16

/-- The measured offset takes effect; a module without a job steps its counter when it exceeds 1 µs (R389, R390, R512). -/
def takeOffset (ps : Int) (s : State) : State :=
  let k := setOffset s.clock ps
  if (s.jobs.any fun j => !j.ended) ∨ ps.natAbs ≤ 1000000 then { s with clock := k }
  else { s with clock := { k with time := ((k.time : Int) + (ps + 1250) / 2500).toNat % 2 ^ 64 } }

/-- TIME_RESP: the answer to this module's own REQ, on its parent port (R512). -/
def execTimeResp (port : Nat) (s : State) : Out :=
  onMsg port 3 1 (fun m s =>
    if s.box.timeParent = some port ∧ s.box.timeReq = some m.id then
      let t1 : Int := m.id
      let t2 : Int := byteField m.inl 0 8
      let t3 : Int := byteField m.inl 8 8
      let t4 : Int := timestamp s 0
      some (takeOffset (halfRcPs ((t2 - t1) - (t4 - t3))) (drawFree 1 { s with box := { s.box with timeReq := none } }))
    else some s) s

end Sys2Proof.Machine
end

