-- ==== Sys2Proof/Machine/TrunkJobCmds.lean ====
section
/-!
DEFINITION. Sys2Proof/Machine/TrunkJobCmds.lean: the messages of jobs over several modules: FREQ_SET, SUBMIT, COMPLETE, PUSH, PULL,
COLLECT and DIGEST, and the exchanges (R387, R508, R509, R515 to R523, R545 to R547, R560).
-/

namespace Sys2Proof.Machine

/-! ### FREQ_SET (R387, R521) -/

/-- FREQ_SET_SET: the member schedules the leader's divider at the tick (R387). -/
def execFreqSetSet (port : Nat) (s : State) : Out :=
  onMsg port 4 0 (fun m s => some (controlMsg port m (fun j s => reporting (takeFreq j.id m.arg m.id) s) s)) s

/-- FREQ_SET_LIMIT: a member's permitted divider, at the leader (R387, R521). -/
def execFreqSetLimit (port : Nat) (s : State) : Out :=
  onMsg port 4 1 (fun m s => some (controlMsg port m (fun j s =>
    reporting (decideFreq j.id false)
      (putJob { j with limits := (j.limits.filter fun l => !decide (l.1 = m.srcRank)) ++ [(m.srcRank, m.arg)] } s)) s)) s

/-- FREQ_SET_APPLIED: a member's deferred change has applied (R387). -/
def execFreqSetApplied (port : Nat) (s : State) : Out :=
  onMsg port 4 2 (fun m s => some (controlMsg port m (fun _ s => s) s)) s

/-- FREQ_SET_CANCELLED: the leader sends a new FREQ_SET (R387). -/
def execFreqSetCancelled (port : Nat) (s : State) : Out :=
  onMsg port 4 3 (fun m s => some (controlMsg port m (fun j s => reporting (decideFreq j.id true) s) s)) s

/-! ### SUBMIT COMMAND (R516, R560) -/

/-- This module's place in the tree of a JKEY, from the port toward the leader or from one below. -/
def relayOf (s : State) (k : Nat) : Option Relay := s.box.relays.find? fun r => decide (r.jkey = k)

/-- A forwarded command is accepted with a ticket of origin p + 2; one that breaks the common rules ends at once (R452, R516). -/
def acceptForward (p : Nat) (m : TMsg) (s : State) : State :=
  let c : CtlCmd := { ticket := mkTicket 0 s.box.acc (p + 2), origin := p + 2, cq := 0, ring := 0, desc := m.inl.take 64, failed := false
                      data := m.data, srcId := m.id, jkey := m.jkey, rank := m.dstRank }
  let s1 := { s with box := { s.box with acc := s.box.acc + 1 } }
  if ctlDescOk c.desc then { s1 with box := { s1.box with accepted := s1.box.accepted ++ [c] } } else finishCmd c 5 0 [] s1

/-- The child port through which a message reaches rank t, in the tree that this module keeps. -/
def relayChild (r : Relay) (t : Nat) : Option Nat :=
  (climbTo r.rank 64 t).bind fun c => (r.downs.find? fun d => decide (d.1 = c)).map (·.2)

/-- A forwarded ADMIT_JOB: a relay holds the package in the staging range and sends it on; the member it is for accepts it. A pair's
partner is rank 1 (R515, R516, R542). -/
def takeAdmit (p : Nat) (m : TMsg) (s : State) : State :=
  let d := m.inl.take 64
  if dfield d 1 1 % 2 = 1 then acceptForward p m s
  else
    match parseMulti (m.data.take (dfield d 4 4)) with
    | none => acceptForward p m s
    | some b =>
      match b.members.findIdx? fun x => decide (x = s.fuses.moduleId) with
      | none => dropMsg p s
      | some r =>
        let y : Relay := { jkey := m.jkey, rank := r, up := p, downs := (treeLinks s b.members r).2 }
        let s1 := { s with box := { s.box with relays := (s.box.relays.filter fun x => !decide (x.jkey = m.jkey)) ++ [y] } }
        if m.dstRank = r then acceptForward p m s1
        else
          match relayChild y m.dstRank with
          | some q => sendMsg q m false (stagePackage 5 0 (m.data.take (dfield d 4 4)) s1)
          | none => dropMsg p s1

/-- A forwarded command other than ADMIT_JOB, at the member it names or on its way (R515, R516). -/
def takeForward (p : Nat) (m : TMsg) (s : State) : State :=
  match keyJobAt s p m.jkey with
  | some j =>
    let r := relayMsg j p m s
    if r.1 then acceptForward p m r.2 else r.2
  | none =>
    match (relayOf s m.jkey).bind fun r => relayChild r m.dstRank with
    | some q => sendMsg q m false s
    | none => dropMsg p s

/-- A member that recovers tells its tree by a RESUME with no buffer for every rank (R560, assumption 34). -/
def isRecoveryCall (m : TMsg) : Bool := decide (m.dstRank = 0xFE) && decide (m.inl.take 64 = madeDesc 4 (dfield m.inl 2 1))

/-- SUBMIT_COMMAND (R516, R560). -/
def execSubmitCommand (port : Nat) (s : State) : Out :=
  onMsg port 5 0 (fun m s =>
    some (if isRecoveryCall m then
        controlMsg port m (fun j s => causeJob j.id { Cause.plain with told := true } s) s
      else if dfield m.inl 0 1 = 1 then takeAdmit port m s
      else takeForward port m s)) s

/-! ### The yard across modules (R520) -/

/-- An announced request as it enters the leader's ready list. -/
def announced (s : State) (m : TMsg) : Req :=
  { acc := s.box.acc, ticket := m.id, queue := m.id / 2 ^ 44, port := 0, ring := 0
    dims := (List.range 4).map fun i => byteField m.inl (4 * i) 4, outAddr := 0, outLen := 0, haddr := 0, len := 0, tag := 0
    tick := timeNow s, rank := m.srcRank, row0 := 0, inFailed := false, inDigest := [], orphan := false }

/-- SUBMIT_ANNOUNCE: a member's request enters the leader's ready list as it arrives (R520). -/
def execSubmitAnnounce (port : Nat) (s : State) : Out :=
  onMsg port 5 1 (fun m s => some (controlMsg port m (fun j s =>
    putJob { j with ready := insertReq (announced s m) j.ready } { s with box := { s.box with acc := s.box.acc + 1 } }) s)) s

/-- A request that the leader has selected, at a member: its own, or another module's (R520). -/
def dispatchedReq (j : Job) (e : List Byte) : Req :=
  match j.ready.find? fun r => decide (r.ticket = byteField e 0 8) with
  | some r => { r with row0 := byteField e 8 4 }
  | none =>
    { acc := 0, ticket := byteField e 0 8, queue := 0, port := 0, ring := 0, dims := [byteField e 12 4, 0, 0, 0], outAddr := 0, outLen := 0
      haddr := 0, len := 0, tag := 0, tick := 0, rank := 0xFF, row0 := byteField e 8 4, inFailed := false, inDigest := [], orphan := false }

/-- The byte offsets of a message's crazed words. -/
def crazOffsets (m : TMsg) : List Nat := m.craz.map (4 * ·)

/-- A message's data into the pages of the job, by the unit of the trunk port that it came by (R358, R509). -/
def writeData (u : SideUnit) (j : Job) (a : Nat) (m : TMsg) (s : State) : State := unitWrite u j.id a m.data (crazOffsets m) s

/-- The unit that moves the data of a job's exchanges where no message names one: that of its first tree port. DESIGN CHOICE
(assumption 101). -/
def dataUnit (s : State) (j : Job) : SideUnit :=
  match treePorts j with
  | p :: _ => .trunk p
  | [] => boxUnit s

/-- The input rows of a request are in the arena; with the last ones the step is dispatched (R520). -/
def rowsArrived (id row0 : Nat) (s : State) : State :=
  match getJob s id with
  | some j =>
    let wait := j.awaitRows.filter fun r => !decide (r = row0)
    let s1 := putJob { j with awaitRows := wait } s
    match j.bucket with
    | some b => if j.loading && wait.isEmpty then dispatchStep id b s1 else s1
    | none => s1
  | none => s

/-- A step that the leader has named: its requests, its bucket, and the rows that came before it (R520). -/
def beginStep (port : Nat) (j : Job) (m : TMsg) (s : State) : State :=
  let es := (List.range (m.data.length / 16)).map fun i => (m.data.drop (16 * i)).take 16
  let sel := es.map (dispatchedReq j)
  let here := j.early.filter fun x => decide (x.id = rowsId m.id)
  let j1 := { j with
    steps := m.id - 1, bucket := some m.arg, sel := sel, ready := j.ready.filter fun r => !sel.any fun x => decide (x.ticket = r.ticket)
    loading := true, awaitRows := sel.map (·.row0), early := j.early.filter fun x => !decide (x.id = rowsId m.id) }
  let s1 := putJob j1 (padArena j m.arg (selRows sel) s)
  here.foldl (fun s x => rowsArrived j.id x.arg (writeData (.trunk port) j1 x.addr x s)) s1

/-- May a member take the next step: as the yard may, but for the retirement and the selection, which are the leader's? -/
def stepOpen (s : State) (j : Job) : Bool :=
  jobRuns j && !j.loading && j.shed.isEmpty && !j.halted && arbsTaken s j &&
  match j.atStop with
  | none => !j.dispatched
  | some a => a.final && a.outDone && a.released && !j.saves.any fun w => decide (w.stop = a.k)

/-- SUBMIT_DISPATCH: a member begins the step once it stands between steps; one that recovers discards it (R520). -/
def execSubmitDispatch (port : Nat) (s : State) : Out :=
  onMsg port 5 2 (fun m s =>
    match keyJobAt s port m.jkey with
    | some j =>
      if j.st ≠ 1 ∧ j.st ≠ 5 then some (controlMsg port m (fun _ s => s) s)
      else if stepOpen s j then some (controlMsg port m (fun j s => beginStep port j m s) s)
      else none
    | none => some (dropMsg port s)) s

/-! ### COMPLETE (R516, R519, R520) -/

/-- The job whose command with the ticket waits for its members' answers, ended ones included (R516). -/
def waitingJob (s : State) (k ticket : Nat) : Option Job :=
  s.jobs.find? fun j => decide (j.jkey = k) && j.waits.any fun w => decide (w.cmd.ticket = ticket)

/-- A member's answer to a forwarded command, at the leader or on its way there (R515, R516). -/
def takeAnswer (p : Nat) (m : TMsg) (s : State) : State :=
  match waitingJob s m.jkey m.id with
  | some j => multiAnswer j.id m.id m.srcRank m.arg (byteField m.inl 32 4) (m.inl.take 32) s
  | none =>
    match (keyJobAt s p m.jkey).bind (·.upPort), relayOf s m.jkey with
    | some q, _ => sendMsg q m false s
    | none, some r => sendMsg r.up m false s
    | none, none => dropMsg p s

/-- COMPLETE_COMMAND (R516). -/
def execCompleteCommand (port : Nat) (s : State) : Out := onMsg port 6 0 (fun m s => some (takeAnswer port m s)) s

/-- COMPLETE_ARRIVED: a member stands at a stop (R520). -/
def execCompleteArrived (port : Nat) (s : State) : Out :=
  onMsg port 6 1 (fun m s => some (controlMsg port m (fun j s =>
    if jobRuns j ∧ ¬j.arrived.contains (m.srcRank, m.id) then
      advanceStop j.id (putJob { j with arrived := j.arrived ++ [(m.srcRank, m.id)] } s)
    else s) s)) s

/-- COMPLETE_RELEASE: the stop's exchanges have completed on every member (R520, R522). -/
def execCompleteRelease (port : Nat) (s : State) : Out :=
  onMsg port 6 2 (fun m s => some (controlMsg port m (fun j s =>
    match j.atStop with
    | some a => if a.k = m.id then advanceStop j.id (putJob { j with atStop := some { a with released := true } } s) else s
    | none => s) s)) s

/-- COMPLETE_JOB_END: the job ends here, too, and the message goes on along the tree (R519). -/
def execCompleteJobEnd (port : Nat) (s : State) : Out :=
  onMsg port 6 3 (fun m s => some (withKey port m (fun j s => endJob j.id m.arg (some port) false s) s)) s

/-- MULTI_ADMIT_TIMEOUT: 10 s after the leader forwarded the admission (R516). -/
def execMultiAdmitTimeout (job : Nat) (s : State) : Out :=
  answer (jobOk job)
    (match getJob s job with
    | some j =>
      match j.waits.find? fun w => decide (w.op = 1) with
      | some w => failAdmission j w 6 s
      | none => s
    | none => s)

/-! ### PUSH and PULL (R508, R509, R515, R522) -/

/-- The exchange entry that the job runs at its stop and that has not yet completed here, with its index (R522). -/
def busyEntry (j : Job) : Option (Nat × ExEnt) :=
  match j.atStop with
  | some a => if a.exBusy then (stopEntries j a)[a.exNext]? else none
  | none => none

/-- The entry in progress is complete on this member; the next may start (R522). -/
def exchDoneHere (id : Nat) (s : State) : State :=
  advanceStop id (modJob id (fun j => { j with
    atStop := j.atStop.map fun a => { a with exBusy := false, exNext := a.exNext + 1 }, collect := none }) s)

/-- A message that breaks R509 writes nothing, and the job ends with FORMAT_REJECTED, told to its sender, too. -/
def refuseData (j : Job) (s : State) : State := endJob j.id 5 none false s

/-- A message of an exchange entry: it waits until the entry runs here, and is discarded where the job does not run. An index that names
no entry is written at once. `f` is what follows the check of R509. -/
def exchMsg (p : Nat) (m : TMsg) (f : Job → State → State) (s : State) : Option State :=
  match keyJobAt s p m.jkey with
  | none => some (dropMsg p s)
  | some j =>
    if !jobRuns j then some s
    else if !rangeOk s.hbm j.id true m.addr m.data.length then some (refuseData j s)
    else if j.exch[m.id]?.isNone then some (writeData (.trunk p) j m.addr m s)
    else if (busyEntry j).any fun e => decide (e.1 = m.id) then some (f j s)
    else none

/-- PUSH_TO (R509, R522). -/
def execPushTo (port : Nat) (s : State) : Out :=
  onMsg port 7 0 (fun m s => exchMsg port m (fun j s => exchDoneHere j.id (writeData (.trunk port) j m.addr m s)) s) s

/-- A PUSH BROADCAST goes on to every tree neighbour but the one it came from (R515). -/
def relayPush (j : Job) (p : Nat) (m : TMsg) (s : State) : State :=
  (treePorts j).foldl (fun s q => if q = p then s else sendMsg q m false s) s

/-- Input rows of a step: into the arena of the step that is being loaded, or kept for one that the leader has not yet named here
(R515, R520). -/
def takeRows (p : Nat) (m : TMsg) (s : State) : State :=
  match keyJobAt s p m.jkey with
  | none => dropMsg p s
  | some j =>
    let s1 := relayPush j p m s
    if !jobRuns j then s1
    else if !rangeOk s1.hbm j.id true m.addr m.data.length then refuseData j s1
    else if j.loading ∧ m.id = rowsId (j.steps + 1) then rowsArrived j.id m.arg (writeData (.trunk p) j m.addr m s1)
    else if m.id > rowsId j.steps then putJob { j with early := j.early ++ [m] } s1
    else s1

/-- PUSH_BROADCAST: rows of a step's input, or a BROADCAST exchange (R509, R515, R520, R522). -/
def execPushBroadcast (port : Nat) (s : State) : Out :=
  onMsg port 7 1 (fun m s =>
    if m.id ≥ 2 ^ 32 then some (takeRows port m s)
    else exchMsg port m (fun j s => exchDoneHere j.id (relayPush j port m (writeData (.trunk port) j m.addr m s))) s) s

/-- Bytes and crazed words of a range of the job's pages, read by a unit. -/
def readData (u : SideUnit) (j : Job) (v n : Nat) (s : State) : List Byte × List Nat × State :=
  let r := unitRead u j.id v n s
  let bad := (List.range (n / 4)).filter fun w => ((r.1.drop (4 * w)).take 4).any (·.2)
  (r.1.map (·.1), bad, r.2)

/-- A PULL REQ: the source range goes back as PULL DATA for the destination that the requester named (R509, Table 17.6). -/
def answerPull (p : Nat) (m : TMsg) (j : Job) (s : State) : State :=
  if rangeOk s.hbm j.id false m.addr m.arg then
    let r := readData (.trunk p) j m.addr m.arg s
    sendMsg p { TMsg.blank with
      typ := 8, kind := 1, srcRank := treeRank j, dstRank := m.srcRank, jkey := j.jkey, id := m.id, addr := byteField m.inl 0 8
      data := r.1, craz := r.2.1 } false r.2.2
  else refuseData j s

/-- PULL_REQ (R509). -/
def execPullReq (port : Nat) (s : State) : Out := onMsg port 8 0 (fun m s => some (withKey port m (answerPull port m) s)) s

/-- PULL_DATA: written at the destination (R508, R509). -/
def execPullData (port : Nat) (s : State) : Out :=
  onMsg port 8 1 (fun m s => some (withKey port m (fun j s =>
    if rangeOk s.hbm j.id true m.addr m.data.length then writeData (.trunk port) j m.addr m s else refuseData j s) s)) s

/-! ### COLLECT (R523) -/

/-- FP32 elements of bytes, and bytes of elements. -/
def toElems (l : List Byte) : List W32 := (List.range (l.length / 4)).map fun i => BitVec.ofNat 32 (byteField l (4 * i) 4)
def ofElems (l : List W32) : List Byte := l.flatMap fun w => bytesLE 4 w.toNat

/-- The COLLECT message of an entry with the elements and crazed words given. -/
def collectMsg (j : Job) (i : Nat) (e : ExEnt) (kind : Nat) (c : Collect) : TMsg :=
  { TMsg.blank with
    typ := 9, kind := kind, srcRank := treeRank j, jkey := j.jkey, id := i, addr := e.dst, data := ofElems c.acc, craz := c.craz }

/-- The children of this rank. -/
def kidRanks (j : Job) : List Nat := kidsOf (treeRank j) (treeSize j)

/-- A partial with every child added: up to the parent, or at rank 0 the sum, written and sent down (R523). -/
def collectOn (j : Job) (i : Nat) (e : ExEnt) (c : Collect) (s : State) : State :=
  let fast := decide (e.mode = 0)
  if !(kidRanks j).all fun r => c.kids.contains r then putJob { j with collect := some c } s
  else if treeRank j = 0 then
    let m := collectMsg j i e 1 c
    exchDoneHere j.id (j.downPorts.foldl (fun s d => sendMsg d.2 { m with dstRank := d.1 } fast s) (writeData (dataUnit s j) j e.dst m s))
  else
    j.upPort.toList.foldl (fun s q => sendMsg q { collectMsg j i e 0 c with dstRank := rankParent (treeRank j) } fast s)
      (putJob { j with collect := none } s)

/-- May a child's partial be added now: its turn in ordered mode, any not yet added in fast mode (R523)? -/
def kidTurn (j : Job) (e : ExEnt) (c : Collect) (r : Nat) : Bool :=
  let left := (kidRanks j).filter fun x => !c.kids.contains x
  if e.mode = 1 then decide (left.head? = some r) else left.contains r

/-- The partial with a child's added (R55, R56, R523). -/
def addPartial (c : Collect) (r : Nat) (m : TMsg) : Collect :=
  { c with acc := (c.acc.zip (toElems m.data)).map (fun x => fpAdd x.1 x.2), craz := (c.craz ++ m.craz).eraseDups, kids := c.kids ++ [r] }

/-- A message of a COLLECT that runs here, with its entry; it waits for the entry, and is discarded where the job does not run or the
index names no COLLECT (R509, R522). -/
def withCollect (p : Nat) (m : TMsg) (f : Job → ExEnt → State → Option State) (s : State) : Option State :=
  match keyJobAt s p m.jkey with
  | none => some (dropMsg p s)
  | some j =>
    if !jobRuns j then some s
    else if !rangeOk s.hbm j.id true m.addr m.data.length then some (refuseData j s)
    else if !j.exch[m.id]?.any fun e => decide (e.op = 3) then some s
    else
      match busyEntry j with
      | some e => if e.1 = m.id then f j e.2 s else none
      | none => none

/-- COLLECT_UP: a child's partial, in its turn (R523). -/
def execCollectUp (port : Nat) (s : State) : Out :=
  onMsg port 9 0 (fun m s => withCollect port m (fun j e s =>
    match j.collect with
    | some c => if kidTurn j e c m.srcRank then some (collectOn j m.id e (addPartial c m.srcRank m) s) else none
    | none => none) s) s

/-- COLLECT_DOWN: the sum of rank 0 is written and goes on down (R523). -/
def execCollectDown (port : Nat) (s : State) : Out :=
  onMsg port 9 1 (fun m s => withCollect port m (fun j e s =>
    if j.collect.isNone ∧ treeRank j ≠ 0 then
      some (exchDoneHere j.id (j.downPorts.foldl
        (fun s d => sendMsg d.2 { m with srcRank := treeRank j, dstRank := d.1 } (decide (e.mode = 0)) s) (writeData (.trunk port) j m.addr m s)))
    else none) s) s

/-! ### Exchanges (R522) -/

/-- The entry starts on this member (R522, Table 17.8). -/
def startEntry (j : Job) (a : AtStop) (i : Nat) (e : ExEnt) (s : State) : State :=
  let s1 := putJob { j with atStop := some { a with exBusy := true } } s
  let me := treeRank j
  if e.op = 3 then
    let r := readData (dataUnit s j) j e.src e.bytes s1
    match getJob r.2.2 j.id with
    | some j1 => collectOn j1 i e { entry := i, acc := toElems r.1, craz := r.2.1, kids := [] } r.2.2
    | none => r.2.2
  else if e.from_ = me then
    let r := readData (dataUnit s j) j e.src e.bytes s1
    let m : TMsg := { TMsg.blank with
      typ := 7, kind := e.op - 1, srcRank := me, dstRank := if e.op = 1 then e.to_ else 0xFE, jkey := j.jkey, id := i, addr := e.dst
      data := r.1, craz := r.2.1 }
    let ports := if e.op = 1 then (portTo j e.to_).toList else treePorts j
    exchDoneHere j.id (ports.foldl (fun s q => sendMsg q m false s) r.2.2)
  else if e.op = 2 ∨ e.to_ = me then s1
  else exchDoneHere j.id s1

/-- EXCHANGE_ENTRY: the next matching entry of the job's stop starts (R522). -/
def execExchangeEntry (job : Nat) (s : State) : Out :=
  answer (jobOk job)
    (match liveJob s job with
    | some j =>
      match j.atStop with
      | some a =>
        match (stopEntries j a)[a.exNext]? with
        | some e => if jobRuns j && !a.exBusy then startEntry j a e.1 e.2 s else s
        | none => s
      | none => s
    | none => s)

/-! ### DIGEST (R544 to R547) -/

/-- The lowest vcid whose stop record differs: records of 20 bytes in ascending vcid order (R544, R546). -/
def firstDiffer (a b : List Byte) : Option Nat :=
  ((List.range (a.length / 20)).find? fun i => decide ((a.drop (20 * i)).take 20 ≠ (b.drop (20 * i)).take 20)).map fun i => byteField a (20 * i) 4

/-- The partner's stop records of the differing stop: LOCK_MISMATCH and its log entry (R546). -/
def takeRecords (j : Job) (q : Pair) (bad : Nat × Nat) (m : TMsg) (s : State) : State :=
  match q.records.find? fun r => decide (r.1 = bad.2) with
  | some r =>
    match firstDiffer r.2 m.data with
    | some v =>
      logEvent { LogEvent.of 0xB with job := j.id, vcid := v, stop := bad.2 }
        { s with box := { s.box with lockValid := true, lockStep := bad.1, lockStop := bad.2, lockVcid := v } }
    | none => s
  | none => s

/-- DIGEST: the partner's step digest, or after a mismatch its stop records (R545, R546). -/
def execDigest (port : Nat) (s : State) : Out :=
  onMsg port 10 0 (fun m s =>
    match keyJobAt s port m.jkey with
    | none => some (dropMsg port s)
    | some j =>
      match j.pair with
      | none => some (controlMsg port m (fun _ s => s) s)
      | some q =>
        if m.data.isEmpty then
          some (advanceStop j.id (compareDigests j.id
            (putJob { j with pair := some { q with theirs := q.theirs ++ [(m.id, m.inl.take 32)] } } s)))
        else q.bad.map fun bad => takeRecords j q bad m s) s

/-- DIGEST_TIMEOUT: 1 s after the module's own DIGEST, which is still unmatched (R547). -/
def execDigestTimeout (job : Nat) (s : State) : Out :=
  answer (jobOk job)
    (match (getJob s job).filter fun j => !j.ended with
    | some j =>
      match j.pair with
      | some q => if !q.mine.isEmpty && q.theirs.isEmpty then partnerLeft q.port s else s
      | none => s
    | none => s)

end Sys2Proof.Machine
end

