-- ==== Sys2Proof/Machine/VectorCmds.lean ====
section
/-!
DEFINITION. Sys2Proof/Machine/VectorCmds.lean: the vector engine's instructions at the head of their queue (R213 to R239).
-/

namespace Sys2Proof.Machine

/-- The vector instruction of opcode byte b at the head of its queue starts: what it reads now, and what it accesses in the slab by its grants (R155, R217, R232). -/
def startOn (b : BitVec 8) (site : Nat) (s : State) : Out := onCore site (startVector b) s

/-- VADD (R223). -/
def execVadd (site : Nat) (s : State) : Out := startOn 0x40#8 site s

/-- VSUB (R223). -/
def execVsub (site : Nat) (s : State) : Out := startOn 0x41#8 site s

/-- VMUL (R223). -/
def execVmul (site : Nat) (s : State) : Out := startOn 0x42#8 site s

/-- VFMA (R224). -/
def execVfma (site : Nat) (s : State) : Out := startOn 0x43#8 site s

/-- VMAX (R224). -/
def execVmax (site : Nat) (s : State) : Out := startOn 0x44#8 site s

/-- VMIN (R224). -/
def execVmin (site : Nat) (s : State) : Out := startOn 0x45#8 site s

/-- VCMP (R224). -/
def execVcmp (site : Nat) (s : State) : Out := startOn 0x46#8 site s

/-- VSEL (R223). -/
def execVsel (site : Nat) (s : State) : Out := startOn 0x47#8 site s

/-- VAND (R223). -/
def execVand (site : Nat) (s : State) : Out := startOn 0x48#8 site s

/-- VOR (R223). -/
def execVor (site : Nat) (s : State) : Out := startOn 0x49#8 site s

/-- VXOR (R223). -/
def execVxor (site : Nat) (s : State) : Out := startOn 0x4A#8 site s

/-- VTRANS (R225). -/
def execVtrans (site : Nat) (s : State) : Out := startOn 0x4B#8 site s

/-- VRED (R226). -/
def execVred (site : Nat) (s : State) : Out := startOn 0x4C#8 site s

/-- VMOV (R230). -/
def execVmov (site : Nat) (s : State) : Out := startOn 0x50#8 site s

/-- VSPLAT (R223). -/
def execVsplat (site : Nat) (s : State) : Out := startOn 0x51#8 site s

/-- VBCAST (R231). -/
def execVbcast (site : Nat) (s : State) : Out := startOn 0x52#8 site s

/-- VPERM (R227). -/
def execVperm (site : Nat) (s : State) : Out := startOn 0x53#8 site s

/-- VQUANT (R228). -/
def execVquant (site : Nat) (s : State) : Out := startOn 0x54#8 site s

/-- VDEQ (R229). -/
def execVdeq (site : Nat) (s : State) : Out := startOn 0x55#8 site s

/-- VLDR (R233). -/
def execVldr (site : Nat) (s : State) : Out := startOn 0x60#8 site s

/-- VLDC (R233). -/
def execVldc (site : Nat) (s : State) : Out := startOn 0x61#8 site s

/-- VLDN (R233). -/
def execVldn (site : Nat) (s : State) : Out := startOn 0x62#8 site s

/-- VSTR (R233). -/
def execVstr (site : Nat) (s : State) : Out := startOn 0x68#8 site s

/-- VSTC (R233). -/
def execVstc (site : Nat) (s : State) : Out := startOn 0x69#8 site s

/-- VSTN (R233). -/
def execVstn (site : Nat) (s : State) : Out := startOn 0x6A#8 site s

end Sys2Proof.Machine
end

