-- ==== Sys2Proof/Machine/XferCmds.lean ====
section
/-!
DEFINITION. Sys2Proof/Machine/XferCmds.lean: the transfer and sync engines' instructions (R248 to R271).
-/

namespace Sys2Proof.Machine

/-- What the page map answers to a transfer of job j on n bytes from address v on: the fault SLAB_RANGE, counted, when it is not
covered (R255, R363). -/
def pageCheck (h : Hbm) (j v n : Nat) (write : Bool) : Option (FaultCode × Bool) :=
  if rangeOk h j write v n then none else some (.slabRange, true)

/-- The partition of job j's address v. -/
def partOf (h : Hbm) (j v : Nat) : Nat :=
  match hbmTranslate h j v with
  | some a => addrPart a
  | none => 0

/-- The transfer of function f at the head of the transfer queue: its admission, its wait for credits, its start (R155, R179,
R251 to R258). -/
def xferOn (f : XferFn) (site : Nat) (s : State) : Out :=
  let c := getCore s site
  let r := startXfer (pageCheck s.hbm c.place.job) (partOf s.hbm c.place.job) f c
  let s1 := atCore site (fun _ => r.1) s
  answer (siteOk site) (if r.2 then { s1 with hbm := countViolation s1.hbm } else s1)

/-- XGET (R252). -/
def execXget (site : Nat) (s : State) : Out := xferOn .xget site s

/-- XPUT (R251). -/
def execXput (site : Nat) (s : State) : Out := xferOn .xput site s

/-- XHALO (R253). -/
def execXhalo (site : Nat) (s : State) : Out := xferOn .xhalo site s

/-- XCAST (R254). -/
def execXcast (site : Nat) (s : State) : Out := xferOn .xcast site s

/-- SSET (R261 to R263). -/
def execSset (site : Nat) (s : State) : Out := onCore site startSset s

/-- SWAIT (R264). -/
def execSwait (site : Nat) (s : State) : Out := onCore site startSwait s

/-- SPOST (R265). -/
def execSpost (site : Nat) (s : State) : Out := onCore site startSpost s

/-- SFREE (R265). -/
def execSfree (site : Nat) (s : State) : Out := onCore site startSfree s

/-- BARRIER starts (R266, R267). -/
def execBarrier (site : Nat) (s : State) : Out := onCore site startBarrier s

end Sys2Proof.Machine
end

