-- ==== Sys2Proof/Machine/Dispatch.lean ====
section
/-!
DEFINITION. Sys2Proof/Machine/Dispatch.lean: the effect of a command on everything but the queue: one arm for each
constructor, a direct call of its meaning.
-/

namespace Sys2Proof.Machine

def exec (i : Instr) (s : State) : Host.Outcome State Fault Refusal :=
  match i with
  | .nop site => Sys2Proof.Machine.execNop site s
  | .loop site => Sys2Proof.Machine.execLoop site s
  | .loopr site => Sys2Proof.Machine.execLoopr site s
  | .stop site => Sys2Proof.Machine.execStop site s
  | .stopDrained site => Sys2Proof.Machine.execStopDrained site s
  | .halt site => Sys2Proof.Machine.execHalt site s
  | .haltDrained site => Sys2Proof.Machine.execHaltDrained site s
  | .notice site => Sys2Proof.Machine.execNotice site s
  | .time site => Sys2Proof.Machine.execTime site s
  | .mark site => Sys2Proof.Machine.execMark site s
  | .set site => Sys2Proof.Machine.execSet site s
  | .sethi site => Sys2Proof.Machine.execSethi site s
  | .sets site => Sys2Proof.Machine.execSets site s
  | .add site => Sys2Proof.Machine.execAdd site s
  | .sub site => Sys2Proof.Machine.execSub site s
  | .and site => Sys2Proof.Machine.execAnd site s
  | .or site => Sys2Proof.Machine.execOr site s
  | .shl site => Sys2Proof.Machine.execShl site s
  | .shr site => Sys2Proof.Machine.execShr site s
  | .instructionIssue site => Sys2Proof.Machine.execInstructionIssue site s
  | .instructionComplete site icount => Sys2Proof.Machine.execInstructionComplete site icount s
  | .slotUpdate site => Sys2Proof.Machine.execSlotUpdate site s
  | .slotStall site engine => Sys2Proof.Machine.execSlotStall site engine s
  | .issueStall site => Sys2Proof.Machine.execIssueStall site s
  | .vadd site => Sys2Proof.Machine.execVadd site s
  | .vsub site => Sys2Proof.Machine.execVsub site s
  | .vmul site => Sys2Proof.Machine.execVmul site s
  | .vfma site => Sys2Proof.Machine.execVfma site s
  | .vmax site => Sys2Proof.Machine.execVmax site s
  | .vmin site => Sys2Proof.Machine.execVmin site s
  | .vcmp site => Sys2Proof.Machine.execVcmp site s
  | .vsel site => Sys2Proof.Machine.execVsel site s
  | .vand site => Sys2Proof.Machine.execVand site s
  | .vor site => Sys2Proof.Machine.execVor site s
  | .vxor site => Sys2Proof.Machine.execVxor site s
  | .vtrans site => Sys2Proof.Machine.execVtrans site s
  | .vred site => Sys2Proof.Machine.execVred site s
  | .vmov site => Sys2Proof.Machine.execVmov site s
  | .vsplat site => Sys2Proof.Machine.execVsplat site s
  | .vbcast site => Sys2Proof.Machine.execVbcast site s
  | .vperm site => Sys2Proof.Machine.execVperm site s
  | .vquant site => Sys2Proof.Machine.execVquant site s
  | .vdeq site => Sys2Proof.Machine.execVdeq site s
  | .vldr site => Sys2Proof.Machine.execVldr site s
  | .vldc site => Sys2Proof.Machine.execVldc site s
  | .vldn site => Sys2Proof.Machine.execVldn site s
  | .vstr site => Sys2Proof.Machine.execVstr site s
  | .vstc site => Sys2Proof.Machine.execVstc site s
  | .vstn site => Sys2Proof.Machine.execVstn site s
  | .mmode site => Sys2Proof.Machine.execMmode site s
  | .mload site => Sys2Proof.Machine.execMload site s
  | .mloadComplete site => Sys2Proof.Machine.execMloadComplete site s
  | .mstream site => Sys2Proof.Machine.execMstream site s
  | .mstreamColumn site defects => Sys2Proof.Machine.execMstreamColumn site defects s
  | .mdrain site icount => Sys2Proof.Machine.execMdrain site icount s
  | .mclear site => Sys2Proof.Machine.execMclear site s
  | .xget site => Sys2Proof.Machine.execXget site s
  | .xput site => Sys2Proof.Machine.execXput site s
  | .xhalo site => Sys2Proof.Machine.execXhalo site s
  | .xcast site => Sys2Proof.Machine.execXcast site s
  | .sset site => Sys2Proof.Machine.execSset site s
  | .swait site => Sys2Proof.Machine.execSwait site s
  | .spost site => Sys2Proof.Machine.execSpost site s
  | .sfree site => Sys2Proof.Machine.execSfree site s
  | .barrier site => Sys2Proof.Machine.execBarrier site s
  | .release site => Sys2Proof.Machine.execRelease site s
  | .fmtMonClear site => Sys2Proof.Machine.execFmtMonClear site s
  | .wtestRes site => Sys2Proof.Machine.execWtestRes site s
  | .wtestDup site => Sys2Proof.Machine.execWtestDup site s
  | .imemLoad site bankB pos word => Sys2Proof.Machine.execImemLoad site bankB pos word s
  | .imemSwitchWrite site value => Sys2Proof.Machine.execImemSwitchWrite site value s
  | .coreWindowRead site offset width => Sys2Proof.Machine.execCoreWindowRead site offset width s
  | .registerWrite src addr width value => Sys2Proof.Machine.execRegisterWrite src addr width value s
  | .arbiterGrant kind n => Sys2Proof.Machine.execArbiterGrant kind n s
  | .fettleDue site => Sys2Proof.Machine.execFettleDue site s
  | .arbCommit arb => Sys2Proof.Machine.execArbCommit arb s
  | .arbCommitTake arb => Sys2Proof.Machine.execArbCommitTake arb s
  | .bankClose site bank => Sys2Proof.Machine.execBankClose site bank s
  | .bankPowerUpDone site bank => Sys2Proof.Machine.execBankPowerUpDone site bank s
  | .packetInject site index => Sys2Proof.Machine.execPacketInject site index s
  | .linkFlitReceive place lane dataErr ctlErr cchkErr restErr => Sys2Proof.Machine.execLinkFlitReceive place lane dataErr ctlErr cchkErr restErr s
  | .seamRecentre x y lane => Sys2Proof.Machine.execSeamRecentre x y lane s
  | .vcCreditReset place lane vc => Sys2Proof.Machine.execVcCreditReset place lane vc s
  | .packetAbortTimeout x y lane vc => Sys2Proof.Machine.execPacketAbortTimeout x y lane vc s
  | .forkBranchDrop site lane vc port => Sys2Proof.Machine.execForkBranchDrop site lane vc port s
  | .dropNotice index => Sys2Proof.Machine.execDropNotice index s
  | .portClose field x y reason => Sys2Proof.Machine.execPortClose field x y reason s
  | .portReopen site => Sys2Proof.Machine.execPortReopen site s
  | .packetToClosedPort index site => Sys2Proof.Machine.execPacketToClosedPort index site s
  | .writePacket index => Sys2Proof.Machine.execWritePacket index s
  | .readPacket index => Sys2Proof.Machine.execReadPacket index s
  | .readDataPacket index => Sys2Proof.Machine.execReadDataPacket index s
  | .ackPacket index => Sys2Proof.Machine.execAckPacket index s
  | .nackPacket index => Sys2Proof.Machine.execNackPacket index s
  | .mcastWritePacket index => Sys2Proof.Machine.execMcastWritePacket index s
  | .hbmDataPacket index => Sys2Proof.Machine.execHbmDataPacket index s
  | .creditPacket index => Sys2Proof.Machine.execCreditPacket index s
  | .barrierArrival index => Sys2Proof.Machine.execBarrierArrival index s
  | .barrierRelease index => Sys2Proof.Machine.execBarrierRelease index s
  | .controlPacket index => Sys2Proof.Machine.execControlPacket index s
  | .hbmRequestGrant channel onDie => Sys2Proof.Machine.execHbmRequestGrant channel onDie s
  | .hbmRefresh stack channel => Sys2Proof.Machine.execHbmRefresh stack channel s
  | .stackTempRead stack temp => Sys2Proof.Machine.execStackTempRead stack temp s
  | .hbmCfgRetrain field stack => Sys2Proof.Machine.execHbmCfgRetrain field stack s
  | .stackRetrainEnd stack ok stall failing => Sys2Proof.Machine.execStackRetrainEnd stack ok stall failing s
  | .marginTrip droop unit periods => Sys2Proof.Machine.execMarginTrip droop unit periods s
  | .stretchEnd field periods => Sys2Proof.Machine.execStretchEnd field periods s
  | .dividerArm target => Sys2Proof.Machine.execDividerArm target s
  | .dividerSwitch => Sys2Proof.Machine.execDividerSwitch s
  | .dividerDeferTimeout => Sys2Proof.Machine.execDividerDeferTimeout s
  | .rootClockLost => Sys2Proof.Machine.execRootClockLost s
  | .timeSlew ticks => Sys2Proof.Machine.execTimeSlew ticks s
  | .feedALow aMv bMv => Sys2Proof.Machine.execFeedALow aMv bMv s
  | .feedARecovered aMv bMv => Sys2Proof.Machine.execFeedARecovered aMv bMv s
  | .feedBLow aMv bMv => Sys2Proof.Machine.execFeedBLow aMv bMv s
  | .bothFeedsLow aMv bMv => Sys2Proof.Machine.execBothFeedsLow aMv bMv s
  | .capChange => Sys2Proof.Machine.execCapChange s
  | .hostCapWrite watts => Sys2Proof.Machine.execHostCapWrite watts s
  | .railPhaseFail field meshRail phase => Sys2Proof.Machine.execRailPhaseFail field meshRail phase s
  | .sliceFail cluster slices => Sys2Proof.Machine.execSliceFail cluster slices s
  | .clusterShort cluster => Sys2Proof.Machine.execClusterShort cluster s
  | .coreWave row fields tests => Sys2Proof.Machine.execCoreWave row fields tests s
  | .crackSuspect cluster => Sys2Proof.Machine.execCrackSuspect cluster s
  | .clusterEstimate cluster sensors => Sys2Proof.Machine.execClusterEstimate cluster sensors s
  | .dieEstimate trunkFlits hostFlits boxFlits => Sys2Proof.Machine.execDieEstimate trunkFlits hostFlits boxFlits s
  | .reconcileGain measured => Sys2Proof.Machine.execReconcileGain measured s
  | .powerAverages watts => Sys2Proof.Machine.execPowerAverages watts s
  | .thermalReading temps => Sys2Proof.Machine.execThermalReading temps s
  | .thermalDividerStep => Sys2Proof.Machine.execThermalDividerStep s
  | .coolDownEnd cluster => Sys2Proof.Machine.execCoolDownEnd cluster s
  | .criticalTrip => Sys2Proof.Machine.execCriticalTrip s
  | .meterPeriodEnd samples => Sys2Proof.Machine.execMeterPeriodEnd samples s
  | .waybillWrite => Sys2Proof.Machine.execWaybillWrite s
  | .ledgerFlashUpdate => Sys2Proof.Machine.execLedgerFlashUpdate s
  | .ledgerReadWrite index => Sys2Proof.Machine.execLedgerReadWrite index s
  | .doorbell port value => Sys2Proof.Machine.execDoorbell port value s
  | .queueEntryWrite port offset bytes => Sys2Proof.Machine.execQueueEntryWrite port offset bytes s
  | .qdescWrite port value => Sys2Proof.Machine.execQdescWrite port value s
  | .cqDoorbell port value entries => Sys2Proof.Machine.execCqDoorbell port value entries s
  | .cqEnableWrite port queue value => Sys2Proof.Machine.execCqEnableWrite port queue value s
  | .cringEnableWrite port ring value => Sys2Proof.Machine.execCringEnableWrite port ring value s
  | .cringHeadWrite port ring value => Sys2Proof.Machine.execCringHeadWrite port ring value s
  | .admitJob ticket buffer => Sys2Proof.Machine.execAdmitJob ticket buffer s
  | .loadWeights ticket buffer => Sys2Proof.Machine.execLoadWeights ticket buffer s
  | .save ticket => Sys2Proof.Machine.execSave ticket s
  | .saveAtStop job => Sys2Proof.Machine.execSaveAtStop job s
  | .resume ticket buffer => Sys2Proof.Machine.execResume ticket buffer s
  | .resumeRestore job buffer => Sys2Proof.Machine.execResumeRestore job buffer s
  | .retireJob ticket => Sys2Proof.Machine.execRetireJob ticket s
  | .query ticket => Sys2Proof.Machine.execQuery ticket s
  | .submit ticket => Sys2Proof.Machine.execSubmit ticket s
  | .yardGatherTimeout job => Sys2Proof.Machine.execYardGatherTimeout job s
  | .yardInputRead job inputs => Sys2Proof.Machine.execYardInputRead job inputs s
  | .jobAtStop job final => Sys2Proof.Machine.execJobAtStop job final s
  | .completionPost port ring => Sys2Proof.Machine.execCompletionPost port ring s
  | .coalesceTimer port ring => Sys2Proof.Machine.execCoalesceTimer port ring s
  | .perstAssert pulse => Sys2Proof.Machine.execPerstAssert pulse s
  | .perstDeassert port => Sys2Proof.Machine.execPerstDeassert port s
  | .configRequest port req => Sys2Proof.Machine.execConfigRequest port req s
  | .trunkTrainAdvance port lanes rttNs peerSeq => Sys2Proof.Machine.execTrunkTrainAdvance port lanes rttNs peerSeq s
  | .trunkTrainTimeout port => Sys2Proof.Machine.execTrunkTrainTimeout port s
  | .laneFail port whole lane => Sys2Proof.Machine.execLaneFail port whole lane s
  | .spareSwap swap => Sys2Proof.Machine.execSpareSwap swap s
  | .trunkCtrlRetrain port => Sys2Proof.Machine.execTrunkCtrlRetrain port s
  | .trunkFlitReceive port bytes crc errors => Sys2Proof.Machine.execTrunkFlitReceive port bytes crc errors s
  | .trunkReplayTimeout port => Sys2Proof.Machine.execTrunkReplayTimeout port s
  | .trunkAckTimer port => Sys2Proof.Machine.execTrunkAckTimer port s
  | .trclkLost east => Sys2Proof.Machine.execTrclkLost east s
  | .discover port => Sys2Proof.Machine.execDiscover port s
  | .discoverTimer port => Sys2Proof.Machine.execDiscoverTimer port s
  | .heartbeat port => Sys2Proof.Machine.execHeartbeat port s
  | .trunkHeartbeatTimer port => Sys2Proof.Machine.execTrunkHeartbeatTimer port s
  | .heartbeatTimeout port => Sys2Proof.Machine.execHeartbeatTimeout port s
  | .timeSyncTimer => Sys2Proof.Machine.execTimeSyncTimer s
  | .timeReq port => Sys2Proof.Machine.execTimeReq port s
  | .timeResp port => Sys2Proof.Machine.execTimeResp port s
  | .freqSetSet port => Sys2Proof.Machine.execFreqSetSet port s
  | .freqSetLimit port => Sys2Proof.Machine.execFreqSetLimit port s
  | .freqSetApplied port => Sys2Proof.Machine.execFreqSetApplied port s
  | .freqSetCancelled port => Sys2Proof.Machine.execFreqSetCancelled port s
  | .submitCommand port => Sys2Proof.Machine.execSubmitCommand port s
  | .submitAnnounce port => Sys2Proof.Machine.execSubmitAnnounce port s
  | .submitDispatch port => Sys2Proof.Machine.execSubmitDispatch port s
  | .completeCommand port => Sys2Proof.Machine.execCompleteCommand port s
  | .completeArrived port => Sys2Proof.Machine.execCompleteArrived port s
  | .completeRelease port => Sys2Proof.Machine.execCompleteRelease port s
  | .completeJobEnd port => Sys2Proof.Machine.execCompleteJobEnd port s
  | .multiAdmitTimeout job => Sys2Proof.Machine.execMultiAdmitTimeout job s
  | .pushTo port => Sys2Proof.Machine.execPushTo port s
  | .pushBroadcast port => Sys2Proof.Machine.execPushBroadcast port s
  | .pullReq port => Sys2Proof.Machine.execPullReq port s
  | .pullData port => Sys2Proof.Machine.execPullData port s
  | .collectUp port => Sys2Proof.Machine.execCollectUp port s
  | .collectDown port => Sys2Proof.Machine.execCollectDown port s
  | .exchangeEntry job => Sys2Proof.Machine.execExchangeEntry job s
  | .digest port => Sys2Proof.Machine.execDigest port s
  | .digestTimeout job => Sys2Proof.Machine.execDigestTimeout job s
  | .recovery job buffer => Sys2Proof.Machine.execRecovery job buffer s
  | .recoveryHaltTimeout job => Sys2Proof.Machine.execRecoveryHaltTimeout job s
  | .dumpFlashCopy => Sys2Proof.Machine.execDumpFlashCopy s
  | .errlogFlashWrite => Sys2Proof.Machine.execErrlogFlashWrite s
  | .heartbeatTimer silent silentChannels => Sys2Proof.Machine.execHeartbeatTimer silent silentChannels s
  | .partitionReset partition tests failed unstable => Sys2Proof.Machine.execPartitionReset partition tests failed unstable s
  | .partitionResetTimeout partition => Sys2Proof.Machine.execPartitionResetTimeout partition s
  | .suspectReplay buffer => Sys2Proof.Machine.execSuspectReplay buffer s
  | .replayWatchdog job => Sys2Proof.Machine.execReplayWatchdog job s
  | .historyTimeTick => Sys2Proof.Machine.execHistoryTimeTick s
  | .feedGood aMv bMv strap => Sys2Proof.Machine.execFeedGood aMv bMv strap s
  | .signalBoxSelfTest aOk bOk => Sys2Proof.Machine.execSignalBoxSelfTest aOk bOk s
  | .imageCheck copyB readOk sigOk values => Sys2Proof.Machine.execImageCheck copyB readOk sigOk values s
  | .bisqueFiring found => Sys2Proof.Machine.execBisqueFiring found s
  | .coreSelfTest failed => Sys2Proof.Machine.execCoreSelfTest failed s
  | .hbmTraining temps failed => Sys2Proof.Machine.execHbmTraining temps failed s
  | .glazeFiring => Sys2Proof.Machine.execGlazeFiring s
  | .ready ms => Sys2Proof.Machine.execReady ms s
  | .bootStepTimeout => Sys2Proof.Machine.execBootStepTimeout s
  | .modResetLow us => Sys2Proof.Machine.execModResetLow us s
  | .modResetRelease => Sys2Proof.Machine.execModResetRelease s
  | .portPresentChange port present => Sys2Proof.Machine.execPortPresentChange port present s
  | .trunkRetryBackoff port => Sys2Proof.Machine.execTrunkRetryBackoff port s
  | .trunkQuarantineEnd port => Sys2Proof.Machine.execTrunkQuarantineEnd port s
  | .flashSwitch vccMv => Sys2Proof.Machine.execFlashSwitch vccMv s
  | .mailboxStatus => Sys2Proof.Machine.execMailboxStatus s
  | .mailboxAddr bytes pecOk => Sys2Proof.Machine.execMailboxAddr bytes pecOk s
  | .mailboxWrite bytes pecOk => Sys2Proof.Machine.execMailboxWrite bytes pecOk s
  | .mailboxLen len pecOk => Sys2Proof.Machine.execMailboxLen len pecOk s
  | .mailboxRead => Sys2Proof.Machine.execMailboxRead s
  | .flashErase bytes pecOk => Sys2Proof.Machine.execFlashErase bytes pecOk s
  | .flashWrite bytes pecOk => Sys2Proof.Machine.execFlashWrite bytes pecOk s
  | .flashRead bytes pecOk => Sys2Proof.Machine.execFlashRead bytes pecOk s
  | .alertResponse => Sys2Proof.Machine.execAlertResponse s
  | .hostLinkDown port => Sys2Proof.Machine.execHostLinkDown port s
  | .hostLinkUp port rate width flit => Sys2Proof.Machine.execHostLinkUp port rate width flit s
  | .jtagInstruction op bits => Sys2Proof.Machine.execJtagInstruction op bits s
  | .mailboxBusyEnd => Sys2Proof.Machine.execMailboxBusyEnd s
  | .standbyPlaneLoss => Sys2Proof.Machine.execStandbyPlaneLoss s
  | .retrainingLimit port => Sys2Proof.Machine.execRetrainingLimit port s

end Sys2Proof.Machine
end

