-- ==== Sys2Proof/Safety.lean ====
section
/-!
DEFINITION. Sys2Proof/Safety.lean: the words that claims about the module use: what a command on one core may change, when an
instruction issues or starts, when a command is done, which modes are legal, and the canonical form of the stored memories.
-/

namespace Sys2Proof.Machine

/-! ### Frames -/

/-- Nothing outside the cores has changed, but what events of a core bring: the fault history, the error log, and the MSI-X
message that an entry of the log can send. -/
def OnlyCores (s t : State) : Prop :=
  t = { s with cores := t.cores, history := t.history, errlog := t.errlog, hosts := t.hosts, out := t.out }

/-- Every core but the one of a site is as it was. -/
def OtherCores (site : Nat) (s t : State) : Prop := ∀ k, k ≠ site → getCore t k = getCore s k

/-- The commands that act on the one core of a site and, but for events, on nothing else. -/
def coreCmd : Instr → Option Nat
  | .nop x => some x | .loop x => some x | .loopr x => some x | .stop x => some x | .stopDrained x => some x
  | .halt x => some x | .haltDrained x => some x | .time x => some x | .mark x => some x | .set x => some x
  | .sethi x => some x | .sets x => some x | .add x => some x | .sub x => some x | .and x => some x | .or x => some x
  | .shl x => some x | .shr x => some x | .instructionComplete x _ => some x | .slotUpdate x => some x
  | .slotStall x _ => some x | .issueStall x => some x
  | .vadd x => some x | .vsub x => some x | .vmul x => some x | .vfma x => some x | .vmax x => some x | .vmin x => some x
  | .vcmp x => some x | .vsel x => some x | .vand x => some x | .vor x => some x | .vxor x => some x | .vtrans x => some x
  | .vred x => some x | .vmov x => some x | .vsplat x => some x | .vbcast x => some x | .vperm x => some x
  | .vquant x => some x | .vdeq x => some x | .vldr x => some x | .vldc x => some x | .vldn x => some x | .vstr x => some x
  | .vstc x => some x | .vstn x => some x
  | .mmode x => some x | .mload x => some x | .mloadComplete x => some x | .mstream x => some x | .mstreamColumn x _ => some x
  | .mdrain x _ => some x | .mclear x => some x
  | .sset x => some x | .swait x => some x | .spost x => some x | .sfree x => some x | .barrier x => some x
  | .fmtMonClear x => some x | .wtestRes x => some x | .wtestDup x => some x
  | _ => none

/-! ### Issue and start -/

/-- The core meets instruction i next, and the conditions of R153 hold for it. -/
def Issues (c : Core) (i : CoreInsn) : Prop := nextInsn c = .insn i ∧ issueReady c i = true

/-- The head of an engine's queue starts: the core runs or drains, and the head's wait slot admits it or it has its admission. `st`
is what starts, and c1 the core after the entry has left its queue and taken its admission (R155). -/
def HeadStarts (c : Core) (e : Engine) (st : Started) (c1 : Core) : Prop := takeHead c e (fun _ => true) = some (st, c1)

/-- Every bank of the core's slab is on, and none is to close. -/
def BanksOn (c : Core) : Prop := c.slab.off = 0#36

/-- No data word of a vector register is crazed. -/
def CleanRegs (c : Core) : Prop := ∀ n, dataCrazed (getV c n) = false

/-- The command that issues an address function. -/
def addrCmd : AddrFn → Nat → Instr
  | .add => .add | .sub => .sub | .and => .and | .or => .or | .shl => .shl | .shr => .shr

/-- The command that starts an R-form vector instruction (Table 6.6). -/
def vecCmd : VecFn → Nat → Instr
  | .vadd => .vadd | .vsub => .vsub | .vmul => .vmul | .vfma => .vfma | .vmax => .vmax | .vmin => .vmin | .vcmp => .vcmp
  | .vsel => .vsel | .vand => .vand | .vor => .vor | .vxor => .vxor | .vtrans => .vtrans | .vred => .vred | .vmov => .vmov
  | .vbcast => .vbcast | .vperm => .vperm | .vquant => .vquant | .vdeq => .vdeq

/-- The command that starts a vector-memory instruction (Table 6.7). -/
def vmemCmd : VmemFn → Nat → Instr
  | .vldr => .vldr | .vldc => .vldc | .vldn => .vldn | .vstr => .vstr | .vstc => .vstc | .vstn => .vstn

/-- The command that starts a transfer (Table 7.7). -/
def xferCmd : XferFn → Nat → Instr
  | .xget => .xget | .xput => .xput | .xhalo => .xhalo | .xcast => .xcast

/-- The commands that start a vector instruction, with the opcode byte of each (Tables 6.6 and 6.7). -/
def vectorCmds : List (BitVec 8 × (Nat → Instr)) :=
  [(0x40#8, .vadd), (0x41#8, .vsub), (0x42#8, .vmul), (0x43#8, .vfma), (0x44#8, .vmax), (0x45#8, .vmin), (0x46#8, .vcmp),
   (0x47#8, .vsel), (0x48#8, .vand), (0x49#8, .vor), (0x4A#8, .vxor), (0x4B#8, .vtrans), (0x4C#8, .vred), (0x50#8, .vmov),
   (0x51#8, .vsplat), (0x52#8, .vbcast), (0x53#8, .vperm), (0x54#8, .vquant), (0x55#8, .vdeq), (0x60#8, .vldr),
   (0x61#8, .vldc), (0x62#8, .vldn), (0x68#8, .vstr), (0x69#8, .vstc), (0x6A#8, .vstn)]

/-- How many admissions, releases or posts a slot field gives slot n: one when it names it; 0xFF names no slot. -/
def oneOf (w : BitVec 8) (n : Nat) : Nat := if w ≠ 0xFF#8 ∧ n = w.toNat then 1 else 0

/-- From c to c' each slot has taken so many admissions, releases and posts, and is else as it was (R172 to R174). -/
def SlotCounts (c c' : Core) (admits releases posts : Nat → Nat) : Prop :=
  ∀ n, getSlot c' n = { getSlot c n with
    admitted := (getSlot c n).admitted + admits n
    releases := (getSlot c n).releases + releases n
    posts := (getSlot c n).posts + posts n }

/-- An instruction with WAIT w and POST p has executed at issue: WAIT has been admitted and released, POST posted, and nothing
changed but the address registers, the stream and those slots (R153, R156, R204). -/
def AtIssue (c c' : Core) (w p : BitVec 8) : Prop :=
  c' = { c with aregs := c'.aregs, stream := c'.stream, sync := { c.sync with slots := c'.sync.slots } } ∧
  SlotCounts c c' (oneOf w) (oneOf w) (oneOf p)

/-- The stream after an instruction that is no loop instruction has issued: the position goes through the loop end handling, the
instruction count is one more (R153, R169). -/
def pastInsn (c : Core) : Stream :=
  { c.stream with
    loops := (loopEnd c.stream.pc c.stream.loops).1
    pc := (loopEnd c.stream.pc c.stream.loops).2
    icount := (c.stream.icount + 1) % 2 ^ 48 }

/-- A started instruction has completed: POST has one post more, WAIT one release more unless the slot has been set up since the
admission, and no other slot has changed (R156, R171, R173, R174). -/
def Completed (c c' : Core) (st : Started) : Prop :=
  SlotCounts c c' (fun _ => 0) (fun n => if (getSlot c n).gen = st.gen then oneOf st.entry.insn.wait n else 0)
    (oneOf st.entry.insn.post)

/-- The first fault since admission: the core is FAULTED with the record, the signal box is told, and nothing else is done (R198,
R199). -/
def Faults (c c' : Core) (code : FaultCode) (e : Engine) (pc icount : Nat) : Prop :=
  c' = { c with
    stream := { c.stream with
      state := .faulted, fault := some { code := code, engine := e, pc := pc, icount := icount, cc := c.cc } }
    out := c.out ++ [{ mkPkt c .control boxSite with ctl := some (.fault (faultNum code) (engineCode e) pc icount) }] }

/-- No MDRAIN write is still to land (R221). -/
def DrainsLanded (c : Core) : Prop := ∀ w ∈ c.vec.drains, w.cyc < c.cc

/-- The vector engine has nothing under way: no instruction in a unit, no load to land, no MDRAIN write to come (R217 to R221). -/
def VectorIdle (c : Core) : Prop :=
  c.vec.alu = none ∧ c.vec.load = none ∧ c.vec.store = none ∧ c.vec.landing = [] ∧ DrainsLanded c

/-- The words that an access moves: row, segment, and the word of the register (`word` for a narrow access) (R117 to R119,
Table 6.8). -/
def accWords (word : Nat) : MemAcc → List (Nat × Nat × Nat)
  | .row r n => (List.range (32 + n)).map fun i => (r, i, i)
  | .col r seg => (List.range 32).map fun i => (r + i, seg, i)
  | .narrow r seg => [(r, seg, word)]

/-! ### Consequences -/

/-- t is u, but for what events bring: the fault history, the error log, and the MSI-X message that an entry of the log can send. -/
def Noted (u t : State) : Prop := t = { u with history := t.history, errlog := t.errlog, hosts := t.hosts, out := t.out }

/-- t is u, but for what a changed permitted divider brings: FREQ_SET messages, an armed divider change and its voltage targets
(R410, R426, R429, R521). -/
def Reported (u t : State) : Prop :=
  t = { u with
    clock := t.clock, trunks := t.trunks, jobs := t.jobs, power := { u.power with clusters := t.power.clusters } } ∧
  t.clock = { u.clock with
    target := t.clock.target, tick := t.clock.tick, pending := t.clock.pending, deferred := t.clock.deferred
    refused := t.clock.refused }

/-- No work is left, and no rail is on: every core IDLE without a placement and its slab empty, no job, no packet, every cluster
without power. -/
def RailsOff (t : State) : Prop :=
  (∀ x, (getCore t x).stream.state = .idle ∧ (getCore t x).place.placed = false ∧ (getCore t x).slab.words = []) ∧ t.jobs = [] ∧
  t.mesh.arrived = [] ∧ t.mesh.edge = [] ∧ t.mesh.links = [] ∧ t.hbm.words = [] ∧ (∀ k, (getCluster t k).state = 0) ∧
  ∀ f, (getRail t.power f).fieldOn = false

/-- Packets of a side-band unit reach the channel controllers of partition p: an entry router of the unit and a route are there, and
the partition is in service (R318, R319, R565). -/
def UnitReaches (s : State) (u : SideUnit) (p : Nat) : Prop :=
  partInService s p = true ∧
  ∃ e o yt, unitEntry s.mesh u = some e ∧ chooseRoute s.mesh e (unitHbmRouter s.mesh u p) = .go o yt

/-- The 64-bit word k of a list of bytes, with its check byte, as it stands in HBM (R357). -/
def bytesWord (b : List Byte) (k : Nat) : HbmWord := hbmEncode (BitVec.ofNat 64 (numLE ((b.drop (8 * k)).take 8)))

/-! ### Trunk ports -/

/-- The flits that a trunk port has sent. -/
def flitsOut (n : Nat) (s : State) : List (List Byte) :=
  s.out.filterMap fun m => match m with
    | .trunkFlit p b => if p = n then some b else none
    | _ => none

/-- t is u, but for what a time master chosen anew brings: master and offset of the clock, the parent port, and the DISCOVERs that the
ports queue (R510, R511). -/
def Mastered (u t : State) : Prop :=
  t = { u with
    trunks := t.trunks, box := { u.box with timeParent := t.box.timeParent }
    clock := { u.clock with master := t.clock.master, aligned := t.clock.aligned, offsetPs := t.clock.offsetPs } } ∧
  ∀ q, getTrunk t q = { getTrunk u q with parent := (getTrunk t q).parent, txq := (getTrunk t q).txq }

/-- The partner of a port has left, which now holds p' but for its parent mark and its queue: counted, its entry gone, and exactly the
jobs with a tree edge there have ended; without one nothing else changes (R517, R519). -/
def PartnerGone (port : Nat) (p' : TPort) (s t : State) : Prop :=
  let gone := { p' with leaves := min 65535 (p'.leaves + 1), neigh := none }
  getTrunk t port = { gone with parent := (getTrunk t port).parent, txq := (getTrunk t port).txq } ∧
  ((∀ x ∈ s.jobs, x.ended = true ∨ port ∉ treePorts x) → Mastered (putTrunk port gone s) t) ∧
  (∀ x ∈ s.jobs, x.ended = false → port ∈ treePorts x → ∃ y, getJob t x.id = some y ∧ y.ended = true) ∧
  ∀ x, getJob s x.id = some x → x.ended = false → (∀ z ∈ s.jobs, z.id = x.id → port ∉ treePorts z) →
    ∃ y, getJob t x.id = some y ∧ y.ended = false ∧ y.place = x.place

/-! ### Completions and modes -/

/-- The completion f is that of control command c with a status and a result. -/
def CmdDone (c : CtlCmd) (status result : Nat) (f : Comp) : Prop :=
  f.ticket = c.ticket ∧ f.status = status ∧ f.result = result ∧ f.port = c.origin - 14 ∧ f.ring = c.ring ∧ f.queue = none ∧ f.record = none

/-- The module's modes are legal: GLOBAL.BOOT.PHASE is one of its codes; from RESET_HELD on a signal box runs on a good feed, RESET_HELD
holds just while MOD_RESET_N does, steps 4 to READY have an accepted image, READY has been fired, a stop has its cause (Table 20.1,
Table 20.2); and a locked JTAG port holds one of its four instructions (R617). -/
def LegalModes (s : State) : Prop :=
  let b := s.boot
  b.phase ≤ 9 ∧ b.phase ≠ 2 ∧ (b.feedGood = true → b.standby = true) ∧
  (1 ≤ b.phase → b.phase ≤ 8 → b.standby = true ∧ b.feedGood = true ∧ b.box2 = true) ∧
  (b.phase = 1 → b.inReset = true) ∧ (3 ≤ b.phase → b.phase ≤ 8 → b.inReset = false) ∧
  (4 ≤ b.phase → b.phase ≤ 8 → b.image.isSome = true) ∧ (b.phase = 8 → b.glazed = true) ∧
  (b.phase = 9 → 1 ≤ b.cause ∧ b.cause ≤ 7) ∧
  (s.jtag.locked = true → ∀ n, s.jtag.ir ≠ .other n)

/-! ### The canonical form of what is stored -/

/-- The stores of memory are in canonical form: the words of the partitions, the page map, flash, the cores, and each core's slab. -/
def Memory.wf (s : State) : Bool :=
  smWf 0#72 s.hbm.words && smWf 0#64 s.hbm.entries && smWf 0#64 s.hbm.runs && smWf 0xFF#8 s.flash &&
  smWf Core.reset s.cores && s.cores.all fun c => smWf 0#40 c.2.slab.words

end Sys2Proof.Machine
end

