-- ==== Sys2Proof/Certificates/Slice0/Obligations.lean ====
section
/-!
DEFINITION. Sys2Proof/Certificates/Slice0/Obligations.lean: the statements about the module, by chapter of the manual.
-/

open Sys2Proof Sys2Proof.Machine

/-! ### The queue and the outcomes -/

/-- A step runs the command at the front of the queue on the state with the rest of the queue. With no command waiting a step is one
tick of the time counter, counted once the root is locked and while it is not lost (the model's choice, assumption 4). -/
def Obligations.StepsRunTheQueue : Prop :=
  (∀ (c : Instr) (rest : List Instr) (s : State), step { s with pending := c :: rest } = exec c { s with pending := rest }) ∧
  (∀ s : State, s.pending = [] → ∃ t, step s = .next t ∧ t = { s with clock := t.clock } ∧
     (s.clock.locked = true → s.clock.lost = false → t.clock.time = (s.clock.time + 1) % 2 ^ 64) ∧
     (s.clock.locked = false → t = s))

/-- Every command whose units exist answers a next state, and every other command faults noSuchUnit: no command is refused (the
fault is the model's choice, assumption 5). -/
def Obligations.WellFormedCommandsComplete : Prop := ∀ (i : Instr) (s : State), (instrOk i = true → ∃ t, exec i s = .next t) ∧ (instrOk i = false → exec i s = .fault .noSuchUnit)

/-- A command on the one core of a site changes no other core, and nothing outside the cores but what a core's events bring: the
fault history, the error log, and the MSI-X message that an entry of the log can send. -/
def Obligations.CoreCommandFrame : Prop := ∀ (i : Instr) (site : Nat) (s t : State), coreCmd i = some site → exec i s = .next t → OnlyCores s t ∧ OtherCores site s t

/-! ### The instruction words of the cores -/

/-- The decoder of core instructions reads back what the encoder writes, for every instruction that keeps its tables' limits, with
every operand at every value. A word that decodes is the word of the instruction it decodes to, and that instruction keeps its
tables' limits: no reserved bit, value or opcode is accepted (R202, R203). -/
def Obligations.CoreWordsRoundTrip : Prop :=
  (∀ i : CoreInsn, insnOk i = true → decodeInsn (encodeInsn i) = some i) ∧
  (∀ (w : W64) (i : CoreInsn), decodeInsn w = some i → encodeInsn i = w ∧ insnOk i = true)

/-! ### Control and address instructions -/

/-- ADD, SUB, AND, OR, SHL and SHR, register and immediate form: AD takes the value that R211 gives, modulo 2^48, its strides and
every other address register stay; the position, the instruction count and the WAIT and POST slots move on, and nothing else
changes. -/
def Obligations.AddressFunctions : Prop :=
  ∀ (site : Nat) (s : State) (f : AddrFn) (ad a : BitVec 5) (src : AddrSrc) (w p : BitVec 8),
    siteOk site = true → Issues (getCore s site) { wait := w, post := p, op := .addr f ad a src } →
    let c := getCore s site
    let x := (getA c a.toNat).value.toNat
    let y := match src with
      | .reg t => (getA c t.toNat).value.toNat
      | .imm v => (v.signExtend 48).toNat
    ∃ c', exec (addrCmd f site) s = .next (atCore site (fun _ => c') s) ∧ AtIssue c c' w p ∧ c'.stream = pastInsn c ∧
      (getA c' ad.toNat).value.toNat = (match f with
        | .add => (x + y) % 2 ^ 48
        | .sub => (x + (2 ^ 48 - y)) % 2 ^ 48
        | .and => x &&& y
        | .or => x ||| y
        | .shl => x * 2 ^ (y % 64) % 2 ^ 48
        | .shr => x / 2 ^ (y % 64)) ∧
      (getA c' ad.toNat).stride0 = (getA c ad.toNat).stride0 ∧ (getA c' ad.toNat).stride1 = (getA c ad.toNat).stride1 ∧
      (∀ r, r ≠ ad.toNat → getA c' r = getA c r)

/-- SET, SETHI, SETS, TIME and MARK issue: the one register that each writes; the position, the instruction count and the WAIT and
POST slots move on, and nothing else changes. NOP issues and changes only the position, the instruction count and its WAIT and
POST slots. NOTICE does the same, and the regulator of the core's cluster, and no other, takes its level and its delay d, at
least 64 cc: a level above the cluster's activity level gives a boost of ceil(24 × the difference / 63) mV from d - 48 to d +
2,048 cycles of the cluster's clock from now; any other level changes nothing there. -/
def Obligations.SetTimeMarkNopNotice : Prop :=
  (∀ (site : Nat) (s : State) (w p : BitVec 8), siteOk site = true →
     let c := getCore s site
     let writes := fun (i : Instr) (ad : BitVec 5) (v : AReg) =>
       ∃ c', exec i s = .next (atCore site (fun _ => c') s) ∧ AtIssue c c' w p ∧ c'.stream = pastInsn c ∧
         getA c' ad.toNat = v ∧ ∀ r, r ≠ ad.toNat → getA c' r = getA c r
     (∀ ad imm, Issues c { wait := w, post := p, op := .set ad imm } →
       writes (.set site) ad { getA c ad.toNat with value := BitVec.ofNat 48 imm.toNat }) ∧
     (∀ ad imm, Issues c { wait := w, post := p, op := .sethi ad imm } →
       writes (.sethi site) ad { getA c ad.toNat with
         value := BitVec.ofNat 48 (imm.toNat * 2 ^ 32 + (getA c ad.toNat).value.toNat % 2 ^ 32) }) ∧
     (∀ ad imm, Issues c { wait := w, post := p, op := .sets ad 0#1 imm } →
       writes (.sets site) ad { getA c ad.toNat with stride0 := imm }) ∧
     (∀ ad imm, Issues c { wait := w, post := p, op := .sets ad 1#1 imm } →
       writes (.sets site) ad { getA c ad.toNat with stride1 := imm }) ∧
     (∀ ad, Issues c { wait := w, post := p, op := .time ad } →
       writes (.time site) ad { getA c ad.toNat with value := BitVec.ofNat 48 (timeNow s) }) ∧
     (∀ tag, Issues c { wait := w, post := p, op := .mark tag } →
       ∃ c', exec (.mark site) s = .next (atCore site (fun _ => c') s) ∧ AtIssue c c' w p ∧ c'.aregs = c.aregs ∧
         c'.stream = { pastInsn c with markTag := tag, markIcount := c.stream.icount })) ∧
  (∀ (site : Nat) (s : State) (w p : BitVec 8), siteOk site = true →
     let c := getCore s site
     let k := siteCluster site
     (Issues c { wait := w, post := p, op := .nop } →
       ∃ c', exec (.nop site) s = .next (atCore site (fun _ => c') s) ∧ AtIssue c c' w p ∧ c'.aregs = c.aregs ∧
         c'.stream = pastInsn c) ∧
     (∀ level delay, Issues c { wait := w, post := p, op := .notice level delay } →
       let l := (getCluster s k).level
       let d := max 64 delay.toNat
       let now := fieldCc s.mesh (siteField site)
       ∃ c' s', exec (.notice site) s = .next (atCore site (fun _ => c') s') ∧ AtIssue c c' w p ∧ c'.aregs = c.aregs ∧
         c'.stream = pastInsn c ∧ s' = { s with power := { s.power with clusters := s'.power.clusters } } ∧
         (∀ j, j ≠ k → getCluster s' j = getCluster s j) ∧
         (level.toNat ≤ l → getCluster s' k = getCluster s k) ∧
         (l < level.toNat → getCluster s' k = { getCluster s k with notes := (getCluster s' k).notes } ∧
           (getCluster s' k).notes.getLast? =
             some { boost := (24 * (level.toNat - l) + 62) / 63, start := now + (d - 48), stop := now + d + 2048 })))

/-- STOP and HALT issue: the core enters STOPPING with the instruction's position and count, nothing issues until the drain ends,
and beside the WAIT and POST slots nothing else changes. LOOP and LOOPR: a count of 0 leaves the depth as it is and sends issue
to END + 1; any other count opens a loop over the positions from the next one to END with count - 1 iterations left. The count
is the immediate, or bits [31:0] of AS. A loop that would be a fifth open one, or that does not end after its own position and
within the loop around it, faults LOOP_DEPTH and has no effect. -/
def Obligations.StopsHaltsAndLoops : Prop :=
  (∀ (site : Nat) (s : State) (w p : BitVec 8), siteOk site = true →
     let c := getCore s site
     (∀ id, Issues c { wait := w, post := p, op := .stop id } →
       ∃ c', exec (.stop site) s = .next (atCore site (fun _ => c') s) ∧ AtIssue c c' w p ∧ c'.aregs = c.aregs ∧
         c'.stream = { pastInsn c with
           state := .stopping, stopKind := .stop id.toNat, stopPhase := .drain, stopPc := c.stream.pc
           stopIcount := c.stream.icount, stopId := id.toNat } ∧ nextInsn c' = .idle) ∧
     (Issues c { wait := w, post := p, op := .halt } →
       ∃ c', exec (.halt site) s = .next (atCore site (fun _ => c') s) ∧ AtIssue c c' w p ∧ c'.aregs = c.aregs ∧
         c'.stream = { pastInsn c with
           state := .stopping, stopKind := .halt, stopPhase := .drain, stopPc := c.stream.pc, stopIcount := c.stream.icount } ∧
         nextInsn c' = .idle)) ∧
  (∀ (site : Nat) (s : State) (w p : BitVec 8) (e : BitVec 13), siteOk site = true →
     let c := getCore s site
     let opens := fun (i : Instr) (n : Nat) =>
       ∃ c', exec i s = .next (atCore site (fun _ => c') s) ∧ AtIssue c c' w p ∧ c'.aregs = c.aregs ∧
         c'.stream = { c.stream with
           icount := (c.stream.icount + 1) % 2 ^ 48
           loops := if n = 0 then c.stream.loops
             else { start := c.stream.pc + 1, stop := e.toNat, remain := n - 1 } :: c.stream.loops
           pc := if n = 0 then e.toNat + 1 else c.stream.pc + 1 }
     let fault := fun (i : Instr) =>
       ∃ c', exec i s = .next (atCore site (fun _ => c') s) ∧ Faults c c' .loopDepth .issue c.stream.pc c.stream.icount
     let faulty := c.stream.state = .running ∧ c.stream.pc < 8192 ∧ c.stream.fault = none ∧
       (4 ≤ c.stream.loops.length ∨ e.toNat ≤ c.stream.pc ∨ ∃ l ls, c.stream.loops = l :: ls ∧ l.stop < e.toNat)
     (∀ n, Issues c { wait := w, post := p, op := .loop e n } → opens (.loop site) n.toNat) ∧
     (∀ a, Issues c { wait := w, post := p, op := .loopr e a } → opens (.loopr site) ((getA c a.toNat).value.toNat % 2 ^ 32)) ∧
     (∀ n, faulty → fetchWord c.stream c.stream.pc = encodeInsn { wait := w, post := p, op := .loop e n } → fault (.loop site)) ∧
     (∀ a, faulty → fetchWord c.stream c.stream.pc = encodeInsn { wait := w, post := p, op := .loopr e a } → fault (.loopr site)))

/-- A queued instruction issues: it joins the end of its engine's queue with the values and strides of its address registers from
before the issue, its position and its count; the registers then take their post-increments, in operand order: stride 0 times
the repeats with bit 0 of the selector, stride 1 with bit 1 in the last iteration of the innermost loop. Nothing else changes. -/
def Obligations.QueuedInstructionsCaptureOperands : Prop :=
  ∀ (site : Nat) (s : State) (i : CoreInsn), siteOk site = true → Issues (getCore s site) i → opEngine i.op ≠ .issue →
    let c := getCore s site
    let inc := fun (g : Nat → AReg) (o : Option (Nat × Nat)) (k : Nat) => match o with
      | none => g k
      | some (r, sel) =>
        if k = r then { g r with
          value := (g r).value + (if sel % 2 = 1 then BitVec.ofNat 48 (opRepeats i.op) * (g r).stride0.signExtend 48 else 0#48) +
            (if sel ≥ 2 ∧ lastIteration c.stream.loops = true then (g r).stride1.signExtend 48 else 0#48) }
        else g k
    ∃ c' q, exec (.instructionIssue site) s = .next (atCore site (fun _ => c') s) ∧
      c' = { c with
        aregs := c'.aregs, queue := c'.queue, qmat := c'.qmat, qxfer := c'.qxfer, qsync := c'.qsync, stream := pastInsn c } ∧
      (∀ e, engineQueue c' e = engineQueue c e ++ (if e = opEngine i.op then [q] else [])) ∧
      q.insn = i ∧ q.pc = c.stream.pc ∧ q.icount = c.stream.icount ∧ q.admitted = false ∧
      (∀ r n, (opAregs i.op).1 = some (r, n) → q.ra = getA c r) ∧ (∀ r n, (opAregs i.op).2 = some (r, n) → q.rd = getA c r) ∧
      ∀ k, getA c' k = inc (inc (getA c) (opAregs i.op).1) (opAregs i.op).2 k

/-! ### Stops, completion, slots, stalls -/

/-- A drained STOP with no live accumulator commits the bank powers and the bank switch and leaves mode NONE; where that asks for
bank transitions it waits for them. Then, or at once without any, the stop counts, the core is ARRIVED, or HALTED where HALT_AT
names this stop, its barrier ordinals restart, and the signal box is told. A live accumulator faults ACC_LIVE with the STOP's
position and count. A drained HALT leaves the core HALTED and counts nothing. RELEASE resumes a core that is ARRIVED, HALTED
with HALT_EN 0, or IDLE with ENTRY_EN, once its slab arbiters have taken their commits: at ENTRY where it is enabled, at
position 0 after a bank switch, else where it stopped; both arbiters go to slot 0, the step's cycle count and its two checks
start again. -/
def Obligations.StopsArriveAndResume : Prop :=
  ∀ (site : Nat) (s : State), siteOk site = true →
    let c := getCore s site
    let n := (c.stream.stopCount + 1) % 2 ^ 32
    let next := fun (i : Instr) (P : Core → Prop) => ∃ c', exec i s = .next (atCore site (fun _ => c') s) ∧ P c'
    let arr := if c.stream.haltEn = true ∧ n = c.stream.haltAt then CoreSt.halted else .arrived
    let committed : Stream := { c.stream with
      bankB := if c.stream.switchReq then !c.stream.bankB else c.stream.bankB
      switchReq := false, switched := c.stream.switchReq }
    let told := fun (id : Nat) => c.out ++ [{ mkPkt c .control boxSite with ctl := some (.arrival id n) }]
    (∀ id, c.stream.state = .stopping → c.stream.stopKind = .stop id → c.stream.stopPhase = .drain → coreDrained c = true →
      (c.matrix.live = 0#1024 → next (.stopDrained site) fun c' =>
        let powers := c.slab.pwrReq = c.slab.off
        c' = { c with
          stream := if powers then { committed with stopCount := n, state := arr, stopKind := .none, atStop := true }
            else { committed with stopPhase := .banks }
          matrix := { c.matrix with
            mode := none, front := { c.matrix.front with valid := false }, back := { c.matrix.back with valid := false } }
          sync := if powers then { c.sync with ordinals := [] } else c.sync
          slab := { c.slab with
            pwrEff := c.slab.pwrReq, closing := c.slab.pwrReq &&& ~~~c.slab.off, rising := c.slab.off &&& ~~~c.slab.pwrReq
            closeCc := c.cc }
          out := if powers then told id else c.out }) ∧
      (c.matrix.live ≠ 0#1024 → c.stream.fault = none →
        next (.stopDrained site) fun c' => Faults c c' .accLive .stop c.stream.stopPc c.stream.stopIcount)) ∧
    (∀ id, c.stream.state = .stopping → c.stream.stopKind = .stop id → c.stream.stopPhase = .banks → c.slab.closing = 0#36 →
      c.slab.rising = 0#36 → next (.stopDrained site) fun c' =>
        c' = { c with
          stream := { c.stream with stopCount := n, state := arr, stopKind := .none, atStop := true }
          sync := { c.sync with ordinals := [] }, out := told id }) ∧
    (c.stream.state = .stopping → c.stream.stopKind = .halt → coreDrained c = true →
      next (.haltDrained site) fun c' =>
        c' = { c with stream := { c.stream with state := .halted, stopKind := .none, switched := false, atStop := false } }) ∧
    (c.stream.state = .arrived ∨ (c.stream.state = .halted ∧ c.stream.haltEn = false) ∨
        (c.stream.state = .idle ∧ c.stream.entryEn = true) →
      c.arbRd.armed = false → c.arbWr.armed = false →
      next (.release site) fun c' =>
        c' = { c with
          stream := { c.stream with
            state := .running
            pc := if c.stream.entryEn then c.stream.entry else if c.stream.switched then 0 else c.stream.pc
            loops := if c.stream.entryEn || c.stream.switched then [] else c.stream.loops
            entryEn := false, switched := false, atStop := false }
          rd := { c.rd with ptr := 0 }, wr := { c.wr with ptr := 0 }
          stepCc := 0, lockDrain := BitVec.allOnes 64, lockStore := BitVec.allOnes 64 })

/-- A started instruction completes: it leaves the engine, posts its POST slot once, and releases its WAIT slot once unless that
slot has been set up since its admission; nothing else changes. So completes a vector instruction, MDRAIN or MCLEAR, a load once
its last register has landed; a transfer, once every destination and every packet is acknowledged and every row has come; and an
MSTREAM whose columns have all accumulated with no mismatch found. The slot procedure on every slot: releases first, an emptied
slot has its counts at 0, posts that meet a FULL slot count as overposts, the post count saturates at 255, and an EMPTY slot
with PCOUNT posts becomes FULL and keeps the surplus. Each slot with REMOTE that becomes EMPTY sends its credits, in slot order.
Nothing else changes. -/
def Obligations.CompletionsAndSlots : Prop :=
  (∀ (site icount : Nat) (s : State), siteOk site = true →
     let c := getCore s site
     let slots := fun (c' : Core) => { c.sync with slots := c'.sync.slots }
     let completes := fun (st : Started) (P : Core → Prop) =>
       ∃ c', exec (.instructionComplete site icount) s = .next (atCore site (fun _ => c') s) ∧ Completed c c' st ∧ P c'
     let noStart := ∀ x ∈ c.started, x.entry.icount ≠ icount
     let noXfer := ∀ j ∈ c.xfer.jobs, j.st.entry.icount ≠ icount
     let noStream := ∀ j ∈ c.matrix.streams, j.st.entry.icount ≠ icount
     (∀ st, c.started.find? (fun x => decide (x.entry.icount = icount)) = some st → (∀ l ∈ c.vec.landing, l.icount ≠ icount) →
       noXfer → noStream →
       completes st fun c' => c' = { c with
         started := c.started.filter (fun x => !decide (x.entry.icount = icount)), sync := slots c' }) ∧
     (∀ j, c.xfer.jobs.find? (fun j => decide (j.st.entry.icount = icount)) = some j → j.waitAcks = [] → j.hbmAcks = 0 →
       j.waitRows = 0 → j.nacked = false → noStart → noStream →
       completes j.st fun c' => c' = { c with
         xfer := { c.xfer with jobs := c.xfer.jobs.filter fun i => !decide (i.st.entry.icount = icount) }, sync := slots c' }) ∧
     (∀ j rest, c.matrix.streams = j :: rest → j.st.entry.icount = icount → j.done = j.n → j.mismatches = [] → noStart → noXfer →
       completes j.st fun c' => c' = { c with matrix := { c.matrix with streams := rest }, sync := slots c' })) ∧
  (∀ (site : Nat) (s : State), siteOk site = true →
     let c := getCore s site
     let empties := fun (n : Nat) => (getSlot c n).full && decide ((getSlot c n).released + (getSlot c n).releases ≥ (getSlot c n).ccount)
     ∃ c' ps, exec (.slotUpdate site) s = .next (atCore site (fun _ => c') s) ∧
       c' = { c with
         sync := { c.sync with
           slots := c'.sync.slots, overposts := c'.sync.overposts, creditsSent := c'.sync.creditsSent }
         out := c.out ++ ps } ∧
       (∀ n, n < 256 →
         let q := getSlot c n
         let r := getSlot c' n
         let posted := min (q.posted + q.posts) 255
         let fills := (q.full = false ∨ empties n = true) ∧ posted ≥ q.pcount
         (r.full = true ↔ (q.full = true ∧ empties n = false) ∨ fills) ∧
           r = { q with
             full := r.full, posted := if fills then posted - q.pcount else posted
             released := if empties n then 0 else q.released + q.releases
             admitted := if empties n then 0 else q.admitted, posts := 0, releases := 0 }) ∧
       (∀ n, 256 ≤ n → getSlot c' n = getSlot c n) ∧
       (c.sync.overposts ≤ 0xFFFF → c'.sync.overposts = min 0xFFFF (c.sync.overposts +
         ((List.range 256).map fun n => if (getSlot c n).full && !empties n then (getSlot c n).posts else 0).sum)) ∧
       ps.map (·.slot) = (List.range 256).filter (fun n => empties n && (getSlot c n).remote) ∧ ∀ p ∈ ps, p.typ = .credit)

/-- The stall limits: a waiting head of an engine's queue or a started BARRIER, or an instruction that waits at issue, faults
SLOT_STALL with its own position and count; a core whose next instruction cannot issue faults ISSUE_STALL. The first fault is
recorded, FAULTED, and told to the signal box, and nothing else changes. -/
def Obligations.StallsFault : Prop :=
  ∀ (site : Nat) (s : State), siteOk site = true →
    let c := getCore s site
    let faults := fun (i : Instr) (code : FaultCode) (e : Engine) (pc icount : Nat) =>
      ∃ c', exec i s = .next (atCore site (fun _ => c') s) ∧ Faults c c' code e pc icount
    c.stream.fault = none →
    (∀ e q rest, e ≠ .issue → mayStart c = true → engineQueue c e = q :: rest → q.admitted = false →
      waitAdmits c (waitField q.insn) = false → (e = .sync → c.sync.waiting = none) →
      faults (.slotStall site e) .slotStall (opEngine q.insn.op) q.pc q.icount) ∧
    (∀ q rest a, mayStart c = true → c.qxfer = q :: rest → q.admitted = true → xferArgs q = some a →
      creditsHeld c (creditPairs c a) = false → faults (.slotStall site .transfer) .slotStall (opEngine q.insn.op) q.pc q.icount) ∧
    (∀ st o, mayStart c = true → c.sync.waiting = some (st, o) →
      faults (.slotStall site .sync) .slotStall (opEngine st.entry.insn.op) st.entry.pc st.entry.icount) ∧
    (∀ i, nextInsn c = .insn i → opEngine i.op = .issue → waitAdmits c i.wait = false →
      faults (.slotStall site .issue) .slotStall .issue c.stream.pc c.stream.icount) ∧
    (∀ i, nextInsn c = .insn i → issueReady c i = false →
      faults (.issueStall site) .issueStall .issue c.stream.pc c.stream.icount)

/-! ### The vector engine -/

/-- A vector instruction starts: it leaves the head of its queue with its admission and enters its unit. A class 010 instruction
whose registers no earlier one holds runs all its repeats at once and is started and not complete, or its core is FAULTED where
a repeat reads a crazed word; one with an operand that an earlier load has still to bring waits in its unit with nothing
changed. A load or store whose first access lies in the slab, its banks on, waits in its unit for its grants. -/
def Obligations.VectorInstructionsStart : Prop :=
  ∀ (b : BitVec 8) (cmd : Nat → Instr) (site : Nat) (s : State) (st : Started) (c1 : Core), (b, cmd) ∈ vectorCmds →
    siteOk site = true → HeadStarts (getCore s site) .vector st c1 → opByte st.entry.insn.op = b →
    let c := getCore s site
    let op := st.entry.insn.op
    let next := fun (P : Core → Prop) => ∃ c', exec (cmd site) s = .next (atCore site (fun _ => c') s) ∧ P c'
    (VectorIdle c → isLoad op = false → isStore op = false → next fun c' =>
      c' = { c1 with
        vec := { c.vec with regs := c'.vec.regs, lands := c'.vec.lands }, mon := c'.mon, started := c'.started
        activity := { c.activity with vec := c.activity.vec + vecCount op }, stream := c'.stream, out := c'.out } ∧
      ((c'.started = c.started ++ [st] ∧ c'.stream = c.stream ∧ c'.out = c.out) ∨
        (c'.started = c.started ∧ c'.stream.state = .faulted))) ∧
    (∀ j, isLoad op = false → isStore op = false → c.vec.load = some j → c.vec.alu = none → c.vec.store = none →
      c.vec.landing = [] → j.st.entry.icount < st.entry.icount → meet (jobRegs j) (aluReads op ++ aluWrites op) = true →
      accFault c (memAccess j.st.entry.insn.op j.st.entry.ra j.k) = none →
      next fun c' => c' = { c1 with vec := { c.vec with alu := some st } }) ∧
    (VectorIdle c → accFault c (memAccess op st.entry.ra 0) = none →
      (isLoad op = true → next fun c' => c' = { c1 with vec := { c.vec with load := some { st := st, k := 0 } } }) ∧
      (isStore op = true → next fun c' => c' = { c1 with vec := { c.vec with store := some { st := st, k := 0 } } }))

/-- Every vector instruction on registers starts, without a fault, where no word of a vector register is crazed and nothing of the
engine is under way; beside the registers only the repeats counted and, under VQUANT, the monitors change. With one repeat it
writes VD and no other register: VMOV copies VA whole; VSPLAT, VBCAST and VRED give every lane its value, VRED's lanes 1 to 31
being +0, and keep the side part; each byte of VPERM is the source byte that VC's byte names, each nibble with SUB 1 the nibble,
the side part VA's; VDEQ dequantises block BLK of VA's row; VQUANT without stochastic rounding packs its B blocks into one row
with their scales. A dequantised -0 and NaN follow assumption 14. -/
def Obligations.VectorMovesAndConversions : Prop :=
  ∀ (site : Nat) (s : State) (st : Started) (c1 : Core), siteOk site = true → HeadStarts (getCore s site) .vector st c1 →
    VectorIdle (getCore s site) → (∀ n, (getV (getCore s site) n).z = 0#36) →
    let c := getCore s site
    let starts := fun (i : Instr) (P : Core → Prop) =>
      ∃ c', exec i s = .next (atCore site (fun _ => c') s) ∧
        c' = { c1 with
          vec := { c.vec with regs := c'.vec.regs, lands := c'.vec.lands }, mon := c'.mon, started := c.started ++ [st]
          activity := { c.activity with vec := c.activity.vec + vecCount st.entry.insn.op } } ∧ P c'
    (∀ vd imm, st.entry.insn.op = .vsplat vd imm →
      starts (.vsplat site) fun c' => c'.mon = c.mon ∧ (∀ n, n % 64 ≠ vd.toNat → getV c' n = getV c n) ∧
        (getV c' vd.toNat).side = (getV c vd.toNat).side ∧ ∀ lane, lane < 32 → rowWord (getV c' vd.toNat) lane = imm) ∧
    (∀ f vd va vb vc rep sa sb sc sub, st.entry.insn.op = .vec f vd va vb vc rep sa sb sc sub →
      starts (vecCmd f site) fun c' => (f ≠ .vquant → c'.mon = c.mon) ∧ (rep = 0#8 →
        let a := getV c va.toNat
        let r := getV c' vd.toNat
        (∀ n, n % 64 ≠ vd.toNat → getV c' n = getV c n) ∧ (f = .vmov → r = a) ∧
        (f ∈ [VecFn.vbcast, .vred, .vdeq] → r.side = (getV c vd.toNat).side) ∧ (f = .vperm → r.side = a.side) ∧
        (∀ lane, lane < 32 →
          (f = .vbcast → rowWord r lane = rowWord a sub.toNat) ∧
          (f = .vred → rowWord r lane =
            (if lane = 0 then pairTree (if sub = 0#5 then fpAdd else fpMax) 5 (rowWords a) else 0#32)) ∧
          (f = .vdeq → ∀ t, etypeOfCode sub.toNat = some t →
            let n := etypeLanes t / 32
            let src := getV c (va.toNat + vb.toNat / n)
            rowWord r lane = dequant t (elemCode t src.data (32 * (vb.toNat % n) + lane)) (scaleByte src.side (vb.toNat % n)))) ∧
        (f = .vperm → sub = 0#5 → ∀ i, i < 128 →
          let idx := (rowByte (getV c vc.toNat) i).toNat
          rowByte r i = rowByte (if idx < 128 then a else getV c vb.toNat) (idx % 128)) ∧
        (f = .vperm → sub = 1#5 → ∀ i, i < 256 →
          let ctl := getV c (vc.toNat + i / 128)
          let idx := (rowByte ctl (i % 128)).toNat
          (rowByte r (i / 2)).toNat / 16 ^ (i % 2) % 16 = (rowByte a (idx / 2)).toNat / 16 ^ (idx % 2) % 16) ∧
        (f = .vquant → sub.toNat < 16 → ∀ t, etypeOfCode sub.toNat = some t →
          let block := fun (j : Nat) => quantBlock t (rowWords (getV c (va.toNat + j))) fun _ => none
          (∀ j i, j < etypeLanes t / 32 → i < 32 → elemCode t r.data (32 * j + i) = (block j).codes.getD i 0) ∧
          ∀ j, j < 16 → scaleByte r.side j = (if t ≠ .bf16 ∧ j < etypeLanes t / 32 then (block j).scale else 0))))

/-- The lane-wise vector instructions on registers without crazed data words: repeat k reads its sources in cycle k and lands in
cycle k + L of Table 6.6, so it sees what earlier repeats of its own have landed before cycle k, and for the rest the registers
from before. Each of the 32 lanes of VD + k takes the function of the same lane of the sources; side parts and every other
register stay, and the instruction is started, with nothing else changed but the repeats counted. A vector instruction whose
first repeat reads a crazed data word in an operand that enters arithmetic faults CRAZED_OPERAND, and lands nothing: VA of a
lane operation, VSEL or VRED, VB and VC where the function uses them, and VC of VPERM. -/
def Obligations.VectorLanesAndCrazing : Prop :=
  (∀ (site : Nat) (s : State) (st : Started) (c1 : Core) (f : VecFn) (vd va vb vc : BitVec 6) (rep : BitVec 8) (sa sb sc : BitVec 1)
     (sub : BitVec 5), siteOk site = true → HeadStarts (getCore s site) .vector st c1 →
     st.entry.insn.op = .vec f vd va vb vc rep sa sb sc sub →
     f ∈ [VecFn.vadd, .vsub, .vmul, .vfma, .vmax, .vmin, .vcmp, .vsel, .vand, .vor, .vxor, .vtrans] →
     VectorIdle (getCore s site) → CleanRegs (getCore s site) →
     let c := getCore s site
     let lat := match f with
       | .vadd | .vsub | .vmax | .vmin => 3
       | .vmul | .vfma => 4
       | .vtrans => 12
       | _ => 1
     let last := fun (n m : Nat) (seen : Nat → Bool) =>
       ((List.range n).filter fun j => decide ((vd.toNat + j) % 64 = m % 64) && seen j).getLast?
     ∃ (c' : Core) (out : Nat → Nat → W32), exec (vecCmd f site) s = .next (atCore site (fun _ => c') s) ∧
       c' = { c1 with
         vec := { c.vec with regs := c'.vec.regs, lands := c'.vec.lands }, started := c.started ++ [st]
         activity := { c.activity with vec := c.activity.vec + rep.toNat + 1 } } ∧
       (∀ n lane, lane < 32 → rowWord (getV c' n) lane = match last (rep.toNat + 1) n (fun _ => true) with
         | some j => out j lane
         | none => rowWord (getV c n) lane) ∧
       (∀ n, (getV c' n).side = (getV c n).side ∧ (getV c' n).z = (getV c n).z) ∧
       ∀ k lane, k ≤ rep.toNat → lane < 32 →
         let read := fun (m : Nat) => match last k m (fun j => decide (j + lat < k)) with
           | some j => out j lane
           | none => rowWord (getV c m) lane
         let x := read (va.toNat + k * sa.toNat)
         let y := read (vb.toNat + k * sb.toNat)
         let z := read (vc.toNat + k * sc.toNat)
         out k lane = (match f with
           | .vadd => fpAdd x y
           | .vsub => fpSub x y
           | .vmul => fpMul x y
           | .vfma => fpFma x y z
           | .vmax => fpMax x y
           | .vmin => fpMin x y
           | .vcmp => if fpCmp sub.toNat x y then BitVec.allOnes 32 else 0#32
           | .vsel => if z.toNat ≥ 2 ^ 31 then x else y
           | .vand => x &&& y
           | .vor => x ||| y
           | .vtrans => fpTrans sub.toNat x
           | _ => x ^^^ y)) ∧
  (∀ (site : Nat) (s : State) (st : Started) (c1 : Core) (f : VecFn) (vd va vb vc : BitVec 6) (rep : BitVec 8) (sa sb sc : BitVec 1)
     (sub : BitVec 5), siteOk site = true → HeadStarts (getCore s site) .vector st c1 →
     st.entry.insn.op = .vec f vd va vb vc rep sa sb sc sub → VectorIdle (getCore s site) → (getCore s site).stream.fault = none →
     let c := getCore s site
     let bad := fun (r : BitVec 6) => dataCrazed (getV c r.toNat) = true
     (f ∈ [VecFn.vadd, .vsub, .vmul, .vfma, .vmax, .vmin, .vcmp, .vsel, .vand, .vor, .vxor, .vtrans, .vred] ∧ bad va) ∨
       (f ∈ [VecFn.vadd, .vsub, .vmul, .vfma, .vmax, .vmin, .vcmp, .vsel, .vand, .vor, .vxor] ∧ bad vb) ∨
       (f ∈ [VecFn.vfma, .vsel, .vperm] ∧ bad vc) →
     ∃ c', exec (vecCmd f site) s = .next (atCore site (fun _ => c') s) ∧
       Faults { c1 with activity := { c.activity with vec := c.activity.vec + vecCount st.entry.insn.op } } c' .crazedOperand .vector
         st.entry.pc st.entry.icount)

/-- Vector-memory instructions. A start whose first address lies past the slab faults SLAB_RANGE, a load from a bank that is off
faults BANK_OFF, and neither touches a register or the slab. A grant of the vector-load requester moves the words of the next
repeat from the slab, decoded, to its register, crazed words with their bit and no fault; a grant of the store's requester moves
the register's words to the slab, encoded afresh. Every other word of the register, every other register and every other word of
the slab stay; the last repeat leaves the unit and the instruction is started. -/
def Obligations.VectorMemoryRange : Prop :=
  ∀ (site : Nat) (s : State), siteOk site = true →
    let c := getCore s site
    (∀ (st : Started) (c1 : Core) (f : VmemFn) (v : BitVec 6) (an : BitVec 5) (pi : BitVec 2) (sb d : BitVec 1) (seg : BitVec 5)
        (rep : BitVec 8) (cstep : BitVec 1), HeadStarts c .vector st c1 → st.entry.insn.op = .vmem f v an pi sb d seg rep cstep →
      VectorIdle c → c.stream.fault = none →
      let room := match f with
        | .vldr | .vstr => 24576
        | .vldc | .vstc => 24576 - 31
        | .vldn | .vstn => 24576 * 32
      let faults := fun (code : FaultCode) => ∃ c', exec (vmemCmd f site) s = .next (atCore site (fun _ => c') s) ∧
        Faults c1 c' code .vector st.entry.pc st.entry.icount
      (room ≤ st.entry.ra.value.toNat → faults .slabRange) ∧
      (f ∈ [VmemFn.vldr, .vldc, .vldn] → st.entry.ra.value.toNat < room → c.slab.off = BitVec.allOnes 36 → faults .bankOff)) ∧
    (coreLive s site = true → c.vec.alu = none → c.vec.landing = [] → DrainsLanded c →
      ∀ (j : VecJob), (∀ k, k < opRepeats j.st.entry.insn.op → accFault c (memAccess j.st.entry.insn.op j.st.entry.ra k) = none) →
      let op := j.st.entry.insn.op
      let a := memAccess op j.st.entry.ra j.k
      let words := accWords (narrowWord op j.k) a
      let reg := memReg op j.k
      let after := if j.k + 1 = opRepeats op then none else some { j with k := j.k + 1 }
      let started := if j.k + 1 = opRepeats op then c.started ++ [j.st] else c.started
      (c.vec.load = some j → c.vec.store = none → (readPortCycle (readWants c) c).2 = some 2 →
        ∃ c', exec (.arbiterGrant .rd site) s = .next (atCore site (fun _ => c') s) ∧
          c' = { c with
            cc := c.cc + 1, stepCc := c'.stepCc, arbRd := c'.arbRd, rd := c'.rd, events := c'.events, started := started
            slab := { c.slab with ce := c'.slab.ce, ue := c'.slab.ue, lastErr := c'.slab.lastErr }
            vec := { c.vec with load := after, regs := c'.vec.regs, lands := c'.vec.lands, clashes := c'.vec.clashes
                                drains := c'.vec.drains }
            activity := { c.activity with slab := c.activity.slab + 1, vec := c.activity.vec + 1 } } ∧
          (∀ x ∈ words, rowAny (getV c' reg) x.2.2 = (secDecode (getWord c x.1 x.2.1)).data ∧
            rowZ (getV c' reg) x.2.2 = (secDecode (getWord c x.1 x.2.1)).crazed) ∧
          (∀ i, i < 36 → (∀ x ∈ words, x.2.2 ≠ i) →
            rowAny (getV c' reg) i = rowAny (getV c reg) i ∧ rowZ (getV c' reg) i = rowZ (getV c reg) i) ∧
          ∀ n, n % 64 ≠ reg % 64 → getV c' n = getV c n) ∧
      (c.vec.store = some j → c.vec.load = none →
        (writePortCycle (writeWants c) c).2 = some (storeRequester op) →
        ∃ c', exec (.arbiterGrant .wr site) s = .next (atCore site (fun _ => c') s) ∧
          c' = { c with
            arbWr := c'.arbWr, wr := c'.wr, started := started, slab := { c.slab with words := c'.slab.words, wb := c'.slab.wb }
            vec := { c.vec with store := after }
            activity := { c.activity with slab := c.activity.slab + 1, vec := c.activity.vec + 1 } } ∧
          (∀ x ∈ words, getWord c' x.1 x.2.1 = secEncode (rowAny (getV c reg) x.2.2) (rowZ (getV c reg) x.2.2)) ∧
          ∀ r sg, sg < 36 → (∀ x ∈ words, (x.1, x.2.1) ≠ (r, sg)) → getWord c' r sg = getWord c r sg))

/-! ### The matrix engine -/

/-- MMODE with an allowed pair sets the mode, leaves both buffers invalid and completes; MCLEAR zeroes the entries of its tiles and
their live bits, or completes at once with no tile; MDRAIN under its limits writes its accumulator groups to vector registers,
their words clean and the side parts kept, and with CLR zeroes them; MLOAD and MSTREAM join the engine, FLIP exchanging the
buffers and N = 0 completing. An MMODE of another pair faults MODE_PAIR, an MLOAD without a mode MODE_MISMATCH or past the slab
SLAB_RANGE, an MSTREAM with no valid buffer MODE_MISMATCH, past the accumulators ACC_RANGE, past the slab SLAB_RANGE, an MDRAIN
past its limits ACC_RANGE. The last row of an MLOAD makes the back buffer valid with its K count and row mask, and the MLOAD
completes. A column in flight with clean operands, its banks on, no mismatch signalled, no defect and no armed injection adds
its sums into its accumulator column of every enabled row and of no other, and sets their live bits; one with a crazed operand
or a bank off faults and adds nothing. A stream whose columns are done and that found a mismatch raises WITNESS_MISMATCH in
place of completing; one that was not injected counts. -/
def Obligations.MatrixEngine : Prop :=
  (∀ (site : Nat) (s : State) (st : Started) (c1 : Core), siteOk site = true → HeadStarts (getCore s site) .matrix st c1 →
     let c := getCore s site
     let base := st.entry.ra.value.toNat
     let next := fun (i : Instr) (P : Core → Prop) => ∃ c', exec i s = .next (atCore site (fun _ => c') s) ∧ P c'
     let slots := fun (c' : Core) => { c1.sync with slots := c'.sync.slots }
     let faults := fun (i : Instr) (b : Core) (code : FaultCode) => c.stream.fault = none →
       next i fun c' => Faults b c' code .matrix st.entry.pc st.entry.icount
     let invalid : ActBuf := { c.matrix.back with valid := false }
     (∀ a w, st.entry.insn.op = .mmode a w →
       (∀ wt at_, etypeOfCode w.toNat = some wt → etypeOfCode a.toNat = some at_ →
         (pairOk wt at_ = true → next (.mmode site) fun c' => Completed c1 c' st ∧
           c' = { c1 with
             matrix := { c.matrix with mode := some (wt, at_), front := { c.matrix.front with valid := false }, back := invalid }
             sync := slots c' }) ∧
         (pairOk wt at_ = false → faults (.mmode site) c1 .modePair)) ∧
       (etypeOfCode w.toNat = none ∨ etypeOfCode a.toNat = none → faults (.mmode site) c1 .modePair)) ∧
     (∀ tiles, st.entry.insn.op = .mclear tiles →
       (tiles = 0#16 → next (.mclear site) fun c' => Completed c1 c' st ∧ c' = { c1 with sync := slots c' }) ∧
       (tiles ≠ 0#16 → next (.mclear site) fun c' =>
         c' = { c1 with started := c.started ++ [st], matrix := { c.matrix with acc := c'.matrix.acc, live := c'.matrix.live } } ∧
         ∀ r col, r < 16 → col < 2048 →
           smGet 0#32 c'.matrix.acc (accKey r col) =
             (if tiles.getLsbD (col / 128) then 0#32 else smGet 0#32 c.matrix.acc (accKey r col)) ∧
           c'.matrix.live.getLsbD (r * 64 + col / 32) = (c.matrix.live.getLsbD (r * 64 + col / 32) && !tiles.getLsbD (col / 128)))) ∧
     (∀ vb clr g0 ng r0 nr, st.entry.insn.op = .mdrain vb clr g0 ng r0 nr →
       let groups := ng.toNat + 1
       let rows := nr.toNat + 1
       (r0.toNat + rows ≤ 16 → g0.toNat + groups ≤ 64 → rows * groups ≤ 64 → (∀ x ∈ c.vec.lands, x.cyc < c.cc + 2) →
         next (.mdrain site st.entry.icount) fun c' =>
           c' = { c1 with
             started := c.started ++ [st], lockDrain := c'.lockDrain
             vec := { c.vec with regs := c'.vec.regs, drains := c'.vec.drains }
             matrix := { c.matrix with acc := c'.matrix.acc, live := c'.matrix.live } } ∧
           (∀ i, i < rows * groups →
             let reg := vb.toNat + i
             (∀ lane, lane < 32 → rowWord (getV c' reg) lane =
                 smGet 0#32 c.matrix.acc (accKey (r0.toNat + i / groups) (32 * (g0.toNat + i % groups) + lane)) ∧
               rowZ (getV c' reg) lane = false) ∧ (getV c' reg).side = (getV c reg).side) ∧
           (∀ n, (∀ i, i < rows * groups → n % 64 ≠ (vb.toNat + i) % 64) → getV c' n = getV c n) ∧
           (∀ r col, r < 16 → col < 2048 →
             let drained := r0.toNat ≤ r ∧ r < r0.toNat + rows ∧ g0.toNat ≤ col / 32 ∧ col / 32 < g0.toNat + groups
             (clr = 1#1 ∧ drained → smGet 0#32 c'.matrix.acc (accKey r col) = 0#32 ∧
               c'.matrix.live.getLsbD (r * 64 + col / 32) = false) ∧
             (clr = 0#1 ∨ ¬ drained → smGet 0#32 c'.matrix.acc (accKey r col) = smGet 0#32 c.matrix.acc (accKey r col) ∧
               c'.matrix.live.getLsbD (r * 64 + col / 32) = c.matrix.live.getLsbD (r * 64 + col / 32)))) ∧
       (16 < r0.toNat + rows ∨ 64 < g0.toNat + groups ∨ 64 < rows * groups → faults (.mdrain site st.entry.icount) c1 .accRange)) ∧
     (∀ an pi k rm, st.entry.insn.op = .mload an pi k rm →
       let c2 := { c1 with matrix := { c.matrix with back := invalid } }
       (∀ wt at_, c.matrix.mode = some (wt, at_) →
         (base + 31 < 24576 → next (.mload site) fun c' =>
           c' = { c1 with matrix := { c.matrix with
             back := invalid
             load := some { st := st, base := base, k := min k.toNat (etypeLanes wt), rowMask := rm, nread := 0 } } }) ∧
         (24576 ≤ base + 31 → faults (.mload site) c2 .slabRange)) ∧
       (c.matrix.mode = none → faults (.mload site) c2 .modeMismatch)) ∧
     (∀ an pi flip c0 n, st.entry.insn.op = .mstream an pi flip c0 n →
       let front := if flip = 1#1 then c.matrix.back else c.matrix.front
       let back := if flip = 1#1 then { c.matrix.front with valid := false } else c.matrix.back
       let c2 := { c1 with matrix := { c.matrix with front := front, back := back } }
       (n = 0#12 → next (.mstream site) fun c' => Completed c1 c' st ∧ c' = { c2 with sync := slots c' }) ∧
       (n ≠ 0#12 →
         (front.valid = false → faults (.mstream site) c2 .modeMismatch) ∧
         (front.valid = true → 2048 < c0.toNat + n.toNat → faults (.mstream site) c2 .accRange) ∧
         (front.valid = true → c0.toNat + n.toNat ≤ 2048 → 24576 < base + n.toNat → faults (.mstream site) c2 .slabRange) ∧
         (front.valid = true → c0.toNat + n.toNat ≤ 2048 → base + n.toNat ≤ 24576 → next (.mstream site) fun c' =>
           c' = { c2 with matrix := { c2.matrix with
             streams := c.matrix.streams ++ [{ st := st, base := base, n := n.toNat, c0 := c0.toNat, granted := 0, done := 0,
                                               inflight := [], mismatches := [] }] } })))) ∧
  (∀ (site : Nat) (s : State) (w a : EType), siteOk site = true → (getCore s site).matrix.mode = some (w, a) →
     let c := getCore s site
     let next := fun (i : Instr) (P : Core → Prop) => ∃ c', exec i s = .next (atCore site (fun _ => c') s) ∧ P c'
     (∀ j, c.matrix.load = some j → j.nread = 32 →
       next (.mloadComplete site) fun c' => Completed c c' j.st ∧
         c' = { c with
           matrix := { c.matrix with load := none, back := { c.matrix.back with valid := true, k := j.k, rowMask := j.rowMask } }
           mon := { c.mon with specialIn := c'.mon.specialIn }, sync := { c.sync with slots := c'.sync.slots } }) ∧
     (∀ pre j post col cols, c.matrix.streams = pre ++ j :: post → (∀ x ∈ pre, x.inflight = []) → j.inflight = col :: cols →
       (∀ p ∈ pendingMismatches c, col.grant < p.2.grant + 3) →
       (columnCode w a col = none → c.matrix.armRes = false → c.matrix.armDup = false →
         next (.mstreamColumn site []) fun c' =>
           c' = { c with
             matrix := { c.matrix with
               acc := c'.matrix.acc, live := c'.matrix.live, streams := c'.matrix.streams, dupChecks := c'.matrix.dupChecks }
             mon := { c.mon with specialIn := c'.mon.specialIn, badCode := c'.mon.badCode }
             activity := { c.activity with cols := c.activity.cols + (enabledRows col.buf).length } } ∧
           (∃ ms, c'.matrix.streams =
             pre ++ { j with inflight := cols, done := j.done + 1, mismatches := j.mismatches ++ ms } :: post) ∧
           (∀ r x, r < 16 → x < 2048 → j.c0 + col.k < 2048 → smGet 0#32 c'.matrix.acc (accKey r x) =
             (if col.buf.rowMask.getLsbD r ∧ x = j.c0 + col.k then
               fpAdd (smGet 0#32 c.matrix.acc (accKey r x)) (columnSum w a col.buf.k col.data (bufRow col.buf r) [])
             else smGet 0#32 c.matrix.acc (accKey r x))) ∧
           (∀ r, r < 16 → col.buf.rowMask.getLsbD r = true → j.c0 + col.k < 2048 →
             c'.matrix.live.getLsbD (r * 64 + (j.c0 + col.k) / 32) = true)) ∧
       (∀ code ds, columnCode w a col = some code → pendingMismatches c = [] → c.stream.fault = none →
         next (.mstreamColumn site ds) fun c' =>
           Faults { c with mon := c'.mon, matrix := { c.matrix with streams := c'.matrix.streams } } c' code
             (opEngine j.st.entry.insn.op) j.st.entry.pc j.st.entry.icount ∧
           c'.matrix.streams = c.matrix.streams.filter fun x => decide (x.done = x.n))) ∧
     (∀ j rest m, c.matrix.streams = j :: rest → j.done = j.n → j.mismatches = [m] → (∀ x ∈ rest, x.mismatches = []) →
       (∀ x ∈ c.started, x.entry.icount ≠ j.st.entry.icount) → (∀ x ∈ c.xfer.jobs, x.st.entry.icount ≠ j.st.entry.icount) →
       c.stream.fault = none →
       next (.instructionComplete site j.st.entry.icount) fun c' =>
         Faults { c with
           matrix := { c.matrix with
             streams := rest.filter fun x => decide (x.done = x.n), injected := m.injected
             witnessEvents := if m.injected then c.matrix.witnessEvents else sat32 c.matrix.witnessEvents 1 }
           events := if m.injected then c.events else c.events ++ [(0, 0)] } c' .witnessMismatch
           (opEngine j.st.entry.insn.op) j.st.entry.pc j.st.entry.icount))

/-! ### Transfers, slots and barriers -/

/-- XGET, XPUT, XHALO and XCAST at the head of the transfer queue, admitted before or now, that pass their checks and hold their
credits start: the head leaves the queue, its credits are consumed, and a transfer with an index of its own is outstanding. Its
packets, of the type that Tables 9.5 and 7.7 give, of at most 32 rows or 28 with the side lane, carry its index; they go to the
router at once where they are requests or headers, else each with the reads of its rows, which cover the local range in order,
at the transfer-out requester, or at halo-out for an XHALO. Without its credits it keeps its admission and waits. A transfer
whose local rows reach past the slab, whose HBM address is off a 16-byte boundary, or whose HBM range the page map refuses,
which counts, faults SLAB_RANGE; one whose far core is outside the grid or fenced faults FENCED_TARGET; these move nothing. -/
def Obligations.TransfersStart : Prop :=
  ∀ (f : XferFn) (site : Nat) (s : State) (q : QEntry) (rest : List QEntry) (a : XferArgs), siteOk site = true →
    let c := getCore s site
    c.qxfer = q :: rest → xferArgs q = some a → a.f = f → mayStart c = true → c.xfer.jobs.length < 16 →
    farKind a ≤ 2 → (q.admitted = true ∨ admitsNow c .transfer q.insn.wait = true) →
    let admits := fun (n : Nat) => if q.admitted then 0 else oneOf q.insn.wait n
    let gen := if q.admitted then q.gen else waitGen c q.insn.wait
    let st : Started := { entry := q, gen := gen }
    let slots := fun (b : Core) => { c.sync with slots := b.sync.slots }
    let check := if q.admitted then none else xferCheck (pageCheck s.hbm c.place.job) c a
    let rowBytes := if a.side then 144 else 128
    (check = none → creditsHeld c (creditPairs c a) = true →
      ∃ c' j ps js, exec (xferCmd f site) s = .next (atCore site (fun _ => c') s) ∧
        SlotCounts c c' admits (fun _ => 0) (fun _ => 0) ∧
        c' = { c with
          qxfer := rest, out := c.out ++ ps
          sync := { slots c' with credits := c.sync.credits.filter fun p => !(creditPairs c a).contains p }
          xfer := { c.xfer with
            jobs := c.xfer.jobs ++ [j], outs := c.xfer.outs ++ (if f = .xhalo then [] else js)
            haloOuts := c.xfer.haloOuts ++ (if f = .xhalo then js else []) } } ∧
        j.st = st ∧ j.nacked = false ∧ (∀ i ∈ c.xfer.jobs, i.tag ≠ j.tag) ∧
        (f = .xget → js = [] ∧ j.waitRows = a.count ∧ j.waitAcks = [] ∧ j.hbmAcks = 0) ∧
        (f = .xcast ∨ farKind a = 0 → f ≠ .xget → j.waitAcks = farSites c a ∧ j.hbmAcks = 0 ∧ j.waitRows = 0) ∧
        (f ≠ .xget → f ≠ .xcast → farKind a ≠ 0 → j.waitAcks = [] ∧ j.hbmAcks = js.length ∧ j.waitRows = 0) ∧
        (∀ p ∈ ps ++ js.map (·.pkt), p.src = c.place.site ∧ p.job = c.place.job ∧ p.tag = j.tag ∧ p.xid = some q.icount ∧
          p.count ≤ (if a.side ∧ farKind a ≠ 2 then 28 else 32) ∧ p.typ = (match f with
            | .xget => if a.kind = 1 then .hbmRead else .read
            | .xput => if a.kind = 1 then .hbmWrite else .write
            | .xhalo => .write
            | .xcast => if a.kind = 1 then .hbmRead else .mcastWrite)) ∧
        (f = .xcast ∧ a.kind = 1 ∨ f = .xget → (ps.map (·.count)).sum = a.count) ∧
        (f ≠ .xget → ¬(f = .xcast ∧ a.kind = 1) → farKind a = 0 → a.po = true → js = [] ∧ ps.length = 1 ∧ ∀ p ∈ ps, p.count = 0) ∧
        (f ≠ .xget → ¬(f = .xcast ∧ a.kind = 1) → (a.po = false ∨ farKind a ≠ 0 ∧ f ≠ .xcast) → ps = [] ∧
          js.flatMap (fun o => (List.range o.left).map (o.next + ·)) = (List.range a.count).map (a.src + ·) ∧
          ∀ o ∈ js, o.own = some j.tag ∧ o.left = o.pkt.count ∧
            (f = .xput ∨ f = .xhalo → farKind a = 0 → o.pkt.addr + a.src = a.far.row + o.next ∧
              o.pkt.dst = (farSites c a).headD c.place.site) ∧
            (farKind a = 1 → o.pkt.haddr + a.src * rowBytes = a.dst + o.next * rowBytes))) ∧
    (check = none → creditsHeld c (creditPairs c a) = false →
      ∃ c', exec (xferCmd f site) s = .next (atCore site (fun _ => c') s) ∧ SlotCounts c c' admits (fun _ => 0) (fun _ => 0) ∧
        c' = { c with qxfer := { q with admitted := true, gen := gen } :: rest, sync := slots c' }) ∧
    (q.admitted = false → c.stream.fault = none →
      let local_ := ∀ r, localStart a = some r → r + a.count ≤ (if farKind a = 2 then 24576 * 32 else 24576)
      let addr := if f = .xput then a.dst else a.src
      let faults := fun (code : FaultCode) (t : State → State) =>
        ∃ b c', exec (xferCmd f site) s = .next (t (atCore site (fun _ => c') s)) ∧
          b = { c with qxfer := rest, sync := slots b } ∧ SlotCounts c b admits (fun _ => 0) (fun _ => 0) ∧
          Faults b c' code .transfer q.pc q.icount
      (¬ local_ ∨ farKind a = 1 ∧ addr % 16 ≠ 0 → faults .slabRange id) ∧
      (local_ → farKind a = 1 → addr % 16 = 0 → rangeOk s.hbm c.place.job (decide (f = .xput)) addr (a.count * rowBytes) = false →
        faults .slabRange fun t => { t with hbm := countViolation s.hbm }) ∧
      (local_ → farKind a = 0 → (∃ v ∈ farCores c a, coreFenced c.place v = true) → faults .fencedTarget id))

/-- SSET within the slab and, when remote, within the grid sets its slot's descriptor, both counts and its state, with no admission
or release left from before, and sends its credits where it starts EMPTY and remote; SWAIT admits and releases, SPOST posts and
SFREE releases its slot once; each also admits, posts and releases the slots of its own WAIT and POST fields, and changes
nothing else. An SSET with no rows or past the slab faults SLAB_RANGE, one whose producers lie beyond the grid FENCED_TARGET.
BARRIER of a core alone in its region completes at once; any other waits, and off the leader sends one arrival with its ID and
its ordinal, the count of the core's barriers with that ID since the last stop, to the leader's site. The leader counts itself:
once it has heard every core of its region it multicasts one release and drops the tally, until then it keeps the tally, and
with no tally free of its eight it drops the arrival and counts it. Nothing else changes. -/
def Obligations.SyncInstructionsAndBarriers : Prop :=
  (∀ (site : Nat) (s : State) (st : Started) (c1 : Core), siteOk site = true → HeadStarts (getCore s site) .sync st c1 →
     let c := getCore s site
     let w := st.entry.insn.wait
     let p := st.entry.insn.post
     let at_ := fun (slot : BitVec 8) (n : Nat) => if n = slot.toNat then 1 else 0
     let next := fun (i : Instr) (P : Core → Prop) => ∃ c', exec i s = .next (atCore site (fun _ => c') s) ∧ P c'
     let counts := fun (i : Instr) (adm rel post : Nat → Nat) => next i fun c' =>
       c' = { c1 with sync := { c.sync with slots := c'.sync.slots } } ∧
       SlotCounts c c' (fun n => oneOf w n + adm n) (fun n => oneOf w n + rel n) (fun n => oneOf p n + post n)
     (∀ slot sp pc cc ini remote sd, st.entry.insn.op = .sset slot sp pc cc ini remote sd →
       let base := getField st.entry.ra.value 0 15
       let rows := getField st.entry.ra.value 15 15
       let far := fun (lo : Nat) => if remote = 1#1 then getField st.entry.rd.value lo 6 else 0
       let inGrid := remote = 1#1 → far 18 + far 6 + 1 ≤ c.place.vw ∧ far 12 + far 0 + 1 ≤ c.place.vh
       (rows ≠ 0 → base + rows ≤ 24576 → inGrid → next (.sset site) fun c' =>
         let n := slot.toNat
         let credits := ini = 0#1 ∧ remote = 1#1
         c' = { c1 with
           sync := { c.sync with
             slots := c'.sync.slots
             creditsSent := if credits then (c.sync.creditsSent + (far 6 + 1) * (far 0 + 1)) % 2 ^ 32 else c.sync.creditsSent }
           out := c'.out } ∧
         getSlot c' n = { base := base, rows := rows, pcount := pc.toNat + 1, ccount := cc.toNat + 1, full := decide (ini = 1#1),
                          posted := 0, admitted := 0, released := 0, remote := decide (remote = 1#1), px0 := far 18, py0 := far 12,
                          pw := far 6, ph := far 0, posts := (getSlot c n).posts + oneOf p n, releases := 0,
                          gen := (getSlot c n).gen + 1 } ∧
         (∀ k, k ≠ n → getSlot c' k = { getSlot c k with
           admitted := (getSlot c k).admitted + oneOf w k, releases := (getSlot c k).releases + oneOf w k
           posts := (getSlot c k).posts + oneOf p k }) ∧
         (credits → ∃ m, c'.out = c.out ++ [m] ∧ m.typ = .credit ∧ m.slot = n) ∧ (¬ credits → c'.out = c.out)) ∧
       (c.stream.fault = none →
         ((rows = 0 ∨ 24576 < base + rows) → next (.sset site) fun c' =>
           Faults c1 c' .slabRange .sync st.entry.pc st.entry.icount) ∧
         (rows ≠ 0 → base + rows ≤ 24576 → ¬ inGrid → next (.sset site) fun c' =>
           Faults c1 c' .fencedTarget .sync st.entry.pc st.entry.icount))) ∧
     (∀ slot, st.entry.insn.op = .swait slot → slotTurn c .sync slot = true → counts (.swait site) (at_ slot) (at_ slot) fun _ => 0) ∧
     (∀ slot, st.entry.insn.op = .spost slot → counts (.spost site) (fun _ => 0) (fun _ => 0) (at_ slot)) ∧
     (∀ slot, st.entry.insn.op = .sfree slot → counts (.sfree site) (fun _ => 0) (at_ slot) fun _ => 0)) ∧
  (∀ (site : Nat) (s : State) (st : Started) (c1 : Core) (b : BitVec 16), siteOk site = true →
     HeadStarts (getCore s site) .sync st c1 → st.entry.insn.op = .barrier b →
     let c := getCore s site
     let id := b.toNat
     let ord := smGet 0 c.sync.ordinals id
     let held := c.sync.tallies.find? fun t => decide (t.id = id) && decide (t.ordinal = ord)
     let others := c.sync.tallies.filter fun t => !(decide (t.id = id) && decide (t.ordinal = ord))
     let heard := match held with
       | some t => if t.arrived.contains c.place.site then t.arrived else c.place.site :: t.arrived
       | none => [c.place.site]
     ∃ c', exec (.barrier site) s = .next (atCore site (fun _ => c') s) ∧
       c' = { c1 with
         sync := { c1.sync with
           slots := c'.sync.slots, ordinals := c'.sync.ordinals, waiting := c'.sync.waiting, tallies := c'.sync.tallies
           barrierDrops := c'.sync.barrierDrops }
         out := c'.out } ∧
       (∀ k, smGet 0 c'.sync.ordinals k = smGet 0 c.sync.ordinals k + if k = id then 1 else 0) ∧
       (regionSize c = 1 → c'.sync.waiting = none ∧ c'.out = c.out ∧ c'.sync.tallies = c.sync.tallies ∧ Completed c1 c' st) ∧
       (regionSize c ≠ 1 → c'.sync.waiting = some (st, ord) ∧ c'.sync.slots = c1.sync.slots) ∧
       (regionSize c ≠ 1 → leaderSite c ≠ c.place.site → c'.sync.tallies = c.sync.tallies ∧
         ∃ p, c'.out = c.out ++ [p] ∧ p.typ = .barrier ∧ p.dst = leaderSite c ∧ p.ident = (id, ord) ∧ p.release = false) ∧
       (regionSize c ≠ 1 → leaderSite c = c.place.site →
         let full := held = none ∧ 8 ≤ c.sync.tallies.length
         (full → c'.sync.tallies = c.sync.tallies ∧ c'.out = c.out ∧ c'.sync.barrierDrops = sat16 c.sync.barrierDrops 1) ∧
         (¬ full → heard.length = regionSize c → c'.sync.tallies = others ∧
           ∃ p, c'.out = c.out ++ [p] ∧ p.typ = .barrier ∧ p.mcast = true ∧ p.release = true ∧ p.ident = (id, ord)) ∧
         (¬ full → heard.length ≠ regionSize c → c'.out = c.out ∧
           c'.sync.tallies = others ++ [{ id := id, ordinal := ord, arrived := heard }])))

/-! ### Monitors, windows, codes, arbiters and banks -/

/-- FMT_MON_CLEAR zeroes every monitor; WTEST_RES and WTEST_DUP arm one injection each; IMEM_LOAD writes one word of the bank that
is not active, and on the active one counts and answers a refusal; a write to SWITCH sets the request; each changes nothing
else. -/
def Obligations.MonitorsTestsAndBanks : Prop :=
  ∀ (site : Nat) (s : State), siteOk site = true →
    let c := getCore s site
    let next := fun (i : Instr) (c' : Core) => exec i s = .next (atCore site (fun _ => c') s)
    next (.fmtMonClear site) { c with
      mon := { clips := [0, 0, 0, 0, 0, 0], maxMags := [0, 0, 0, 0, 0, 0], nanIn := 0, specialIn := 0, badCode := 0 } } ∧
    next (.wtestRes site) { c with matrix := { c.matrix with armRes := true } } ∧
    next (.wtestDup site) { c with matrix := { c.matrix with armDup := true } } ∧
    (∀ v, next (.imemSwitchWrite site v) { c with stream := { c.stream with switchReq := v } }) ∧
    (∀ bank pos word, pos < 8192 → bank ≠ c.stream.bankB →
      ∃ c', next (.imemLoad site bank pos word) c' ∧ (∀ n, fetchWord c'.stream n = fetchWord c.stream n) ∧
        (∀ n, fetchWord { c'.stream with bankB := bank } n =
          (if n = pos then word else fetchWord { c.stream with bankB := bank } n)) ∧
        c' = { c with stream := { c.stream with imemA := c'.stream.imemA, imemB := c'.stream.imemB } }) ∧
    (∀ pos word, pos < 8192 →
      let t := atCore site (fun _ => { c with stream := { c.stream with imemRefused := min 65535 (c.stream.imemRefused + 1) } }) s
      exec (.imemLoad site c.stream.bankB pos word) s = .next { t with out := t.out ++ [.imemActive site] })

/-- A read through a per-core window answers a slab word corrected, and decodes without counting; a powered-down bank, a dark
cluster and a partition in reset read as 0. A register write by the signal box to CORE.STOP_CTL replaces its four fields and
nothing else of the core; a write through BAR0 to a core's window changes nothing; a shadow write to a slab arbiter leaves the
values in effect, and one of half a timetable word keeps the other half of the shadow. -/
def Obligations.WindowsAndRegisters : Prop :=
  (∀ (site row col : Nat) (s : State), siteOk site = true → row < 24576 → col < 32 →
     let c := getCore s site
     ∃ v, exec (.coreWindowRead site (row * 128 + col * 4) 4) s = .next { s with out := s.out ++ [.window v] } ∧
       (windowDark s site = true → v = 0) ∧
       (windowDark s site = false → c.slab.off.getLsbD ((row + col) % 32) = true → v = 0) ∧
       (windowDark s site = false → c.slab.off.getLsbD ((row + col) % 32) = false → ∀ d z,
         smGet 0#40 c.slab.words (row * 36 + col) = secEncode d z → v = d.toNat)) ∧
  (∀ (site v : Nat) (s : State), siteOk site = true → windowDark s site = false →
     let c := getCore s site
     let base := 0x10000000000 + site * 0x400000 + 0x380000
     exec (.registerWrite .box (base + 0x20) 8 v) s = .next (putCore site { c with stream := { c.stream with
         haltEn := decide (v / 2 ^ 62 % 2 = 1), entryEn := decide (v / 2 ^ 61 % 2 = 1), entry := v / 2 ^ 32 % 8192,
         haltAt := v % 2 ^ 32 } } s) ∧
     (∀ port off, port < 2 → off < 0x400000 →
       exec (.registerWrite (.bar0 port) (0x10000000000 + site * 0x400000 + off) 8 v) s = .next s) ∧
     (∀ k, k < 6 → ∃ c', exec (.registerWrite .box (base + 0xA00 + 8 * k) 8 v) s = .next (putCore site c' s) ∧
       c' = { c with arbRd := { c.arbRd with shadow := c'.arbRd.shadow } }) ∧
     (∀ k, k < 8 → ∃ c', exec (.registerWrite .box (base + 0xA00 + 4 * k) 4 v) s = .next (putCore site c' s) ∧
       c' = { c with arbRd := { c.arbRd with shadow := { c.arbRd.shadow with tt := c'.arbRd.shadow.tt } } } ∧
       ∀ j, j < 8 → getField c'.arbRd.shadow.tt (32 * j) 32 = if j = k then v % 2 ^ 32 else getField c.arbRd.shadow.tt (32 * j) 32))

/-- The code of a data word: a clean word and a crazed word decode to what was stored; any one flipped bit of the data and check
bits is corrected and counted once; any two flipped bits give an uncorrectable word that reads as crazed. The code of an HBM
word: a word decodes to what was stored, the marker to a crazed word; a word with one flipped bit is corrected, or reads as
crazed where it lands within one bit of the marker, and the marker with one flipped bit still reads as crazed. -/
def Obligations.CodesCorrect : Prop :=
  (∀ d : W32,
     secDecode (secEncode d false) = { data := d, crazed := false, ce := false, ue := false } ∧
     secDecode (secEncode d true) = { data := d, crazed := true, ce := false, ue := false } ∧
     (∀ i, i < 39 → secDecode (secEncode d false ^^^ (1#40 <<< i)) = { data := d, crazed := false, ce := true, ue := false }) ∧
     (∀ i j, i < j → j < 39 →
       (secDecode (secEncode d false ^^^ (1#40 <<< i) ^^^ (1#40 <<< j))).crazed = true ∧
       (secDecode (secEncode d false ^^^ (1#40 <<< i) ^^^ (1#40 <<< j))).ue = true)) ∧
  ((∀ d : W64, hbmDecode (hbmEncode d) = { data := d, crazed := false, ce := false, ue := false } ∧
     ∀ i, i < 72 →
       hbmDecode (hbmEncode d ^^^ (1#72 <<< i)) = { data := d, crazed := false, ce := true, ue := false } ∨
       (popCount ((hbmEncode d ^^^ (1#72 <<< i)) ^^^ 0xFF0000000000000000#72) ≤ 1 ∧
         (hbmDecode (hbmEncode d ^^^ (1#72 <<< i))).crazed = true)) ∧
   (∀ i, i < 72 → (hbmDecode (0xFF0000000000000000#72 ^^^ (1#72 <<< i))).crazed = true) ∧
   (hbmDecode 0xFF0000000000000000#72).crazed = true)

/-- A grant cycle of a slab port, a field's router outputs, a field's channel controllers or a trunk transmitter advances its
pointer by one slot modulo 64. A core in a cluster that is off, a field without its rail or clock, has no grant cycle. COMMIT
arms a set and changes no value in effect; the signal box commits to a core's slab arbiters only while no job on the core has a
step between its stops. An armed set whose arbiter stands at slot 0 takes its shadow values, with the guard period limited to 4
to 64, clears the guard count and counts in APPLIED; one that does not stand at slot 0 waits. -/
def Obligations.ArbitersGrantAndCommit : Prop :=
  (∀ s : State,
     (∀ site, siteOk site = true → coreLive s site = true →
       (∃ t, exec (.arbiterGrant .rd site) s = .next t ∧ (getCore t site).rd.ptr = ((getCore s site).rd.ptr + 1) % 64 ∧
         (getCore t site).wr = (getCore s site).wr ∧ (getCore t site).cc = (getCore s site).cc + 1) ∧
       (∃ t, exec (.arbiterGrant .wr site) s = .next t ∧ (getCore t site).wr.ptr = ((getCore s site).wr.ptr + 1) % 64 ∧
         (getCore t site).rd = (getCore s site).rd ∧ (getCore t site).cc = (getCore s site).cc)) ∧
     (∀ site, siteOk site = true → coreLive s site = false →
       exec (.arbiterGrant .rd site) s = .next s ∧ exec (.arbiterGrant .wr site) s = .next s) ∧
     (∀ f, f < 8 → s.clock.locked = true →
       ((getRail s.power f).meshOn = true → ∃ t, exec (.arbiterGrant .router f) s = .next t ∧
         t = { s with mesh := t.mesh, history := t.history, errlog := t.errlog, hosts := t.hosts, out := t.out } ∧
         (smGet ArbBank.reset t.mesh.arbs f).ptr = ((smGet ArbBank.reset s.mesh.arbs f).ptr + 1) % 64) ∧
       ((getRail s.power f).fieldOn = true → ∃ t, exec (.arbiterGrant .hbm f) s = .next t ∧
         t = { s with hbm := t.hbm, mesh := { s.mesh with arrived := t.mesh.arrived, edge := t.mesh.edge } } ∧
         (smGet ArbBank.reset t.hbm.arbs f).ptr = ((smGet ArbBank.reset s.hbm.arbs f).ptr + 1) % 64)) ∧
     (∀ f, f < 8 → (s.clock.locked = false ∨ (getRail s.power f).meshOn = false → exec (.arbiterGrant .router f) s = .next s) ∧
       (s.clock.locked = false → exec (.arbiterGrant .hbm f) s = .next s) ∧
       (s.clock.locked = true → (getRail s.power f).fieldOn = false → ∃ t, exec (.arbiterGrant .hbm f) s = .next t ∧
         t.hbm.arbs = s.hbm.arbs ∧ t.hbm.words = s.hbm.words)) ∧
     (∀ n, n < 12 → ∃ t, exec (.arbiterGrant .trunk n) s = .next t ∧
       (getTrunk t n).arbInst.ptr = ((getTrunk s n).arbInst.ptr + 1) % 64 ∧ t = { s with trunks := t.trunks, out := t.out } ∧
       ∀ k, k ≠ n → getTrunk t k = getTrunk s k)) ∧
  (∀ (site : Nat) (s : State), siteOk site = true →
     let c := getCore s site
     (siteAtStop s site = true →
       exec (.arbCommit (.rd site)) s = .next (atCore site (fun _ => { c with arbRd := { c.arbRd with armed := true } }) s) ∧
       exec (.arbCommit (.wr site)) s = .next (atCore site (fun _ => { c with arbWr := { c.arbWr with armed := true } }) s)) ∧
     (siteAtStop s site = false →
       exec (.arbCommit (.rd site)) s = .next s ∧ exec (.arbCommit (.wr site)) s = .next s) ∧
     (∀ f, f < 8 → ∃ t, exec (.arbCommit (.router f)) s = .next t ∧ t = { s with mesh := { s.mesh with arbs := t.mesh.arbs } } ∧
       ∀ k, smGet ArbBank.reset t.mesh.arbs k = if k = f then
         { smGet ArbBank.reset s.mesh.arbs f with set_ := { (smGet ArbBank.reset s.mesh.arbs f).set_ with armed := true } }
         else smGet ArbBank.reset s.mesh.arbs k) ∧
     (c.arbRd.armed = true → c.rd.ptr = 0 →
       exec (.arbCommitTake (.rd site)) s = .next (atCore site (fun _ => { c with
         arbRd := { c.arbRd with
           eff := { c.arbRd.shadow with guard_ := BitVec.ofNat 7 (max 4 (min 64 c.arbRd.shadow.guard_.toNat)) }, armed := false,
           applied := (c.arbRd.applied + 1) % 256 },
         rd := { c.rd with gsg := 0 } }) s)) ∧
     ((c.arbRd.armed = false ∨ c.rd.ptr ≠ 0) → exec (.arbCommitTake (.rd site)) s = .next (atCore site (fun _ => c) s)))

/-- What one grant cycle grants among the requesters that can use it: nothing without an eligible request; in the cycle in which the
guard is due the request that has waited longest; else the slot's owner when it has an eligible request; else an eligible
request of the highest rank, the lowest numbered of those (R337 to R340). The request granted is no longer held, and the others
wait one cycle more. With no request held, a requester parked on by the last grant that alone asks again is granted at once. -/
def Obligations.ArbiterGrantsByTheRules : Prop :=
  ∀ (v : ArbVals) (n p : Nat) (able : Nat → Bool) (a : ArbInst) (raise : List Nat),
    let el := a.reqs.filter (fun r => decide (r.2 ≥ 1) && able r.1)
    let r := arbCycle v n p false able a raise
    (a.reqs = [] → ∀ q, a.last = some q → arbNew n a raise = [q] → able q = true → r.2 = some q) ∧
    (a.reqs ≠ [] →
      (el = [] → r.2 = none) ∧
      (∀ g, r.2 = some g → (∃ w, (g, w) ∈ el) ∧ (∀ x ∈ r.1.reqs, x.1 ≠ g) ∧
        ∀ x ∈ a.reqs, x.1 ≠ g → (x.1, x.2 + 1) ∈ r.1.reqs) ∧
      (el ≠ [] → a.gsg + 1 = v.guard_.toNat → ∃ g w, r.2 = some g ∧ (g, w) ∈ el ∧
        ∀ x ∈ el, x.2 < w ∨ x.2 = w ∧ g ≤ x.1) ∧
      (a.gsg + 1 ≠ v.guard_.toNat → ∀ o, arbOwner v n p = some o → (∃ w, (o, w) ∈ el) → r.2 = some o) ∧
      (el ≠ [] → a.gsg + 1 ≠ v.guard_.toNat → (∀ o, arbOwner v n p = some o → ∀ w, (o, w) ∉ el) →
        ∃ g w, r.2 = some g ∧ (g, w) ∈ el ∧
          ∀ x ∈ el, arbRank v x.1 < arbRank v g ∨ arbRank v x.1 = arbRank v g ∧ g ≤ x.1))

/-- FETTLE_DUE raises the request of a powered core. BANK_CLOSE turns off a closing bank that no write waits for, and one whose 2^16
cycles are over, and keeps every stored word; before that, and for a bank that does not close, it does nothing. The end of a
bank's power-up turns it on with every word of the bank zero, and every other word as it was. -/
def Obligations.FettlingAndBanks : Prop :=
  ∀ (site b : Nat) (s : State), siteOk site = true → b < 36 →
    let c := getCore s site
    let offNow := fun (c' : Core) => ∀ k, k < 36 →
      c'.slab.closing.getLsbD k = (c.slab.closing.getLsbD k && !decide (k = b)) ∧
        c'.slab.off.getLsbD k = (c.slab.off.getLsbD k || decide (k = b))
    (coreLive s site = true →
      exec (.fettleDue site) s = .next (atCore site (fun _ => { c with slab := { c.slab with due := true } }) s)) ∧
    (c.slab.closing.getLsbD b = true → inboundWrites c b = 0 →
      ∃ c', exec (.bankClose site b) s = .next (atCore site (fun _ => c') s) ∧ offNow c' ∧
        c' = { c with slab := { c.slab with closing := c'.slab.closing, off := c'.slab.off } }) ∧
    (c.slab.closing.getLsbD b = true → c.slab.closeCc + 65536 ≤ c.cc →
      ∃ c', exec (.bankClose site b) s = .next (atCore site (fun _ => c') s) ∧ offNow c' ∧ c'.slab.words = c.slab.words ∧
        c'.vec = c.vec ∧ c'.aregs = c.aregs ∧ c'.matrix = c.matrix) ∧
    (c.slab.closing.getLsbD b = false ∨ (inboundWrites c b ≠ 0 ∧ c.cc < c.slab.closeCc + 65536) →
      exec (.bankClose site b) s = .next (atCore site (fun _ => c) s)) ∧
    (c.slab.rising.getLsbD b = true → smWf 0#40 c.slab.words = true →
      ∃ c', exec (.bankPowerUpDone site b) s = .next (atCore site (fun _ => c') s) ∧
        (∀ k, k < 36 → c'.slab.rising.getLsbD k = (c.slab.rising.getLsbD k && !decide (k = b)) ∧
          c'.slab.off.getLsbD k = (c.slab.off.getLsbD k && !decide (k = b))) ∧
        (∀ row seg, row < 24576 → seg < 36 → smGet 0#40 c'.slab.words (row * 36 + seg) =
          (if slabBank row seg = b then 0#40 else smGet 0#40 c.slab.words (row * 36 + seg))) ∧
        c' = { c with slab := { c.slab with rising := c'.slab.rising, off := c'.slab.off, words := c'.slab.words } })

/-! ### The mesh -/

/-- A packet that its core hands over enters its router through an open port: its flits join the local lane on its VC, on the route
that choose_route gives a unicast, XY for a multicast, and the core counts 128 bytes for each. A packet that has no route enters
nowhere: its source has a NACK with the status, and NOROUTE counts when no route is enabled. A multicast that would fork at a
bypassed router goes as copies, counted once. A packet of an edge unit enters at its entry router. Nothing enters while the
clock or the mesh rail is off. -/
def Obligations.PacketsAreInjected : Prop :=
  (∀ (site i : Nat) (s : State) (p : Packet), siteOk site = true → (getCore s site).out[i]? = some p → p.src = site →
    meshUp s (siteField site) = true → (getPort s.mesh site).closed = false → p.cast = none →
    let c := getCore s site
    let q := aimPacket s p
    let left := { c with out := listDel c.out i }
    let enters := fun (r : Packet) (m : Mesh) => ∃ t, exec (.packetInject site i) s = .next t ∧
      t = { s with cores := t.cores, mesh := t.mesh } ∧ OtherCores site s t ∧
      getCore t site = { left with activity := { c.activity with xfer := c.activity.xfer + 128 * (packetFlits r).length } } ∧
      t.mesh = { m with feeds := t.mesh.feeds } ∧
      ∀ k, getFeed t.mesh k = getFeed s.mesh k ++ (if k = vcKey site 6 (packetVc r) then packetFlits r else [])
    (p.mcast = false → ∀ o yt, chooseRoute s.mesh site q.dst = .go o yt → enters { q with order := o, yt := yt } s.mesh) ∧
    (p.mcast = false → ∀ st, chooseRoute s.mesh site q.dst = .refuse st →
      ∃ t n, exec (.packetInject site i) s = .next t ∧ t = { s with cores := t.cores, mesh := t.mesh } ∧ OtherCores site s t ∧
        getCore t site = left ∧ t.mesh.arrived = s.mesh.arrived ++ [{ place := site, pkt := n }] ∧
        t.mesh = { s.mesh with arrived := t.mesh.arrived, fields := t.mesh.fields } ∧
        n.typ = .nack ∧ n.dst = site ∧ n.job = p.job ∧ n.tag = p.tag ∧ n.xid = p.xid ∧ n.status = st ∧
        ∀ f, getFieldMesh t.mesh f = (if st = 4 ∧ f = routerField site then
          { getFieldMesh s.mesh f with noroute := min 0xFFFFFFFF ((getFieldMesh s.mesh f).noroute + 1) }
          else getFieldMesh s.mesh f)) ∧
    (p.mcast = true → p.typ ≠ .hbmRead → p.typ ≠ .hbmWrite → mustSplit s.mesh site p.prect = false → castBarred s p = false →
      p.typ ≠ .control → enters { p with order := .xy, yt := 0 } s.mesh) ∧
    (∀ m o yt, p.mcast = true → p.typ = .mcastWrite → mustSplit s.mesh site p.prect = true → castSites s p = [m] →
      chooseRoute s.mesh site m = .go o yt →
      enters { p with typ := .write, mcast := false, dst := m, prect := Rect.zero, vrect := Rect.zero, order := o, yt := yt }
        (modFieldMesh s.mesh (routerField site) fun f => { f with mcastSplit := min 0xFFFFFFFF (f.mcastSplit + 1) }))) ∧
  (∀ (site i : Nat) (s : State), siteOk site = true →
    meshUp s (siteField site) = false ∨ (getPort s.mesh site).closed = true ∨ (getCore s site).out[i]? = none →
    exec (.packetInject site i) s = .next s) ∧
  (∀ (i : Nat) (s : State) (p : Packet), s.mesh.edge[i]? = some p → p.mcast = false → p.typ = .hbmData ∨ p.cast = none →
    let q := aimPacket s p
    let place := if p.typ = .control then q.src + 8192 else q.src + 4096
    let left := { s.mesh with edge := listDel s.mesh.edge i }
    (meshUp s (routerField q.src) = true → ∀ o yt, chooseRoute s.mesh q.src q.dst = .go o yt →
      ∃ m', exec (.packetInject 4096 i) s = .next { s with mesh := m' } ∧ m' = { left with feeds := m'.feeds } ∧
        let r := { q with order := o, yt := yt }
        ∀ k, getFeed m' k = getFeed s.mesh k ++ (if k = vcKey place 6 (packetVc r) then packetFlits r else [])) ∧
    (meshUp s (routerField q.src) = false → exec (.packetInject 4096 i) s = .next s))

/-- Every route that choose_route answers leads to the destination: following next_port from the source, router by router, the
packet arrives within 256 hops; and where it turns in XY or YX order between different rows and columns the corner router is not
bypassed. A bypassed destination is refused FENCED. -/
def Obligations.RoutesReachTheirDestination : Prop :=
  ∀ (m : Mesh) (src dst : Nat), src < 2560 → dst < 2560 →
    let hop := fun (o : Order) (yt here : Nat) => match nextPort here src dst o yt with
      | .north => here - 64
      | .south => here + 64
      | .east => here + 1
      | .west => here - 1
      | .loc => here
    (∀ o yt, chooseRoute m src dst = .go o yt →
      bypassed m (dst % 64) (dst / 64) = false ∧ (∃ n, n ≤ 256 ∧ (hop o yt)^[n] src = dst) ∧
      (src % 64 ≠ dst % 64 → src / 64 ≠ dst / 64 → o = .xy → bypassed m (dst % 64) (src / 64) = false) ∧
      (src % 64 ≠ dst % 64 → src / 64 ≠ dst / 64 → o = .yx → bypassed m (src % 64) (dst / 64) = false)) ∧
    (bypassed m (dst % 64) (dst / 64) = true → chooseRoute m src dst = .refuse 1)

/-- A place takes the oldest flit of a link with the credits it brings. A HEAD of a known type on a VC without an open packet, and a
further flit of the open packet, join the VC's buffer, at an edge unit the packet that is arriving; the VC is open until the
TAIL; no check fails, no error counts. A failed CHECK crazes that quarter's words of a data flit; in quarter 0 of a HEAD it
discards the packet, which counts, and its credit goes back. A fault in one quarter of a data flit is found by that quarter's
CHECK and by no other; one flipped control or CCHK bit is corrected. The layout of the side code CCHK is the model's choice
(assumption 15). -/
def Obligations.GoodFlitsAreAccepted : Prop :=
  (∀ (place lane : Nat) (s : State) (l : LinkFlit) (rest : List LinkFlit), laneExists place lane = true →
     meshUp s (routerField place) = true → getLink s.mesh (laneKey place lane) = l :: rest →
     isSeam s.mesh place lane = false ∨ l.entry ≤ crossR s.mesh (crossKey place lane) →
     (isRouter place = true → (getPort s.mesh place).linkErr < 65535) → (getFieldMesh s.mesh (routerField place)).linkErr < 0xFFFFFFFF →
     let common := fun (m' : Mesh) (errs : Nat) (evs : List Nat) =>
       m' = { s.mesh with ins := m'.ins, outs := m'.outs, links := m'.links, asm := m'.asm, arrived := m'.arrived,
                          credits := m'.credits, ports := m'.ports, fields := m'.fields, events := s.mesh.events ++ evs } ∧
       (∀ k, getLink m' k = if k = laneKey place lane then rest else getLink s.mesh k) ∧
       (∀ k, getOut m' k = { getOut s.mesh k with
         used := (getOut s.mesh k).used - if (List.range 5).any fun v => decide (k = vcKey place lane v) && l.credit.getLsbD v then 1 else 0 }) ∧
       (∀ k, getPort m' k = { getPort s.mesh k with
         linkErr := (getPort s.mesh k).linkErr + if isRouter place = true ∧ k = place then errs else 0 }) ∧
       (∀ f, { getFieldMesh m' f with headerDrop := 0 } = { getFieldMesh s.mesh f with
         headerDrop := 0, linkErr := (getFieldMesh s.mesh f).linkErr + if f = routerField place then errs else 0 })
     (l.body = none → ∃ m', exec (.linkFlitReceive place lane 0 0 0 0) s = .next (atMesh (fun _ => m') s) ∧ common m' 0 [] ∧
       m' = { m' with ins := s.mesh.ins, asm := s.mesh.asm, arrived := s.mesh.arrived, credits := s.mesh.credits } ∧
       ∀ f, getFieldMesh m' f = getFieldMesh s.mesh f) ∧
     (∀ (vc : Nat) (f : Flit), l.body = some (vc, f) → vc ≤ 4 → (f.abort = true → f.tail = true) →
       let k := vcKey place lane vc
       let v := getIn s.mesh k
       let credit := fun (m' : Mesh) => ∀ x, smGet 0#5 m'.credits x =
         (if x = laneKey place lane then smGet 0#5 s.mesh.credits x ||| (1#5 <<< vc) else smGet 0#5 s.mesh.credits x)
       let joins := fun (err : BitVec 1024) (g : Flit) (errs : Nat) (evs : List Nat) =>
         ∃ m', exec (.linkFlitReceive place lane err 0 0 0) s = .next (atMesh (fun _ => m') s) ∧ common m' errs evs ∧
           (∀ x, getFieldMesh m' x = { getFieldMesh m' x with headerDrop := (getFieldMesh s.mesh x).headerDrop }) ∧
           (∀ x, x ≠ k → getIn m' x = getIn s.mesh x) ∧
           getIn m' k = { v with
             buf := v.buf ++ (if isRouter place then [g] else []), isOpen := !f.tail, discard := false } ∧
           (isRouter place = true → m' = { m' with asm := s.mesh.asm, arrived := s.mesh.arrived, credits := s.mesh.credits }) ∧
           (isRouter place = false → lane < 6 → credit m' ∧
             (∀ x, smGet [] m'.asm x = (if x = k then (if f.tail then [] else smGet [] s.mesh.asm k ++ [g]) else smGet [] s.mesh.asm x)) ∧
             m'.arrived = s.mesh.arrived ++ (if f.tail then
               ((flitsPacket (smGet [] s.mesh.asm k ++ [g])).map fun p => { place := place, pkt := p : Arrived }).toList else []))
       (f.head = true → v.isOpen = false → typeOfCode (getField f.data 32 8) ≠ none → joins 0 { f with owed := true } 0 []) ∧
       (f.head = false → v.isOpen = true → v.discard = false → joins 0 { f with owed := true } 0 [] ∧
         ∀ i, i < 1024 → joins (1#1024 <<< i)
           { f with data := f.data ^^^ (1#1024 <<< i), z := f.z ||| (0xFF#32 <<< (i / 256 * 8)), owed := true } 1
           [linkUnit s.mesh place lane (i / 256)]) ∧
       (∀ i, f.head = true → v.isOpen = false → i < 256 → lane < 6 →
         ∃ m', exec (.linkFlitReceive place lane (1#1024 <<< i) 0 0 0) s = .next (atMesh (fun _ => m') s) ∧
           common m' 0 [linkUnit s.mesh place lane 0] ∧ credit m' ∧
           (∀ x, x ≠ k → getIn m' x = getIn s.mesh x) ∧ getIn m' k = { v with isOpen := !f.tail, discard := !f.tail } ∧
           m' = { m' with asm := s.mesh.asm, arrived := s.mesh.arrived } ∧
           ∀ x, (getFieldMesh m' x).headerDrop = (if x = routerField place then
             min 0xFFFFFFFF ((getFieldMesh s.mesh x).headerDrop + 1) else (getFieldMesh s.mesh x).headerDrop)))) ∧
  ((∀ (d : BitVec 1024) (z : W32) (ctl : BitVec 12) (i : Nat), i < 1024 →
     badQuarters (d ^^^ (1#1024 <<< i)) (flitSideband ctl z d) = [i / 256]) ∧
   (∀ (d : BitVec 1024) (z : W32) (ctl : BitVec 12), badQuarters d (flitSideband ctl z d) = []) ∧
   (∀ (b : BitVec 12), cchkCorrect b (cchkOf b) = some (b, false) ∧
     (∀ i, i < 12 → cchkCorrect (b ^^^ (1#12 <<< i)) (cchkOf b) = some (b, true)) ∧
     (∀ i, i < 6 → cchkCorrect b (cchkOf b ^^^ (1#6 <<< i)) = some (b, true))))

/-- A seam crossing that is off its separation, its last 16 entries idle, recentres at 4 with one count; any other lane is left
alone. A VC whose buffer is empty and which has no flit on its link has all its credits again. An open packet of a VC is closed
by an ABORT tail after the time-out, one that is being discarded without one, and without an open packet nothing happens.
Nothing happens while the clock or the mesh rail is off. A fork that drops a branch counts it; a branch whose HEAD was sent is
owed an ABORT tail; the branch takes no further flit; and a DROP_NOTICE with the branch's rectangle goes to the issuer. A notice
that reaches the issuer counts the transfer's members in its rectangle as acknowledged and changes nothing else. -/
def Obligations.SeamsCreditsAndForks : Prop :=
  (∀ (place lane vc : Nat) (s : State), laneExists place lane = true → vc ≤ 4 →
     let k := vcKey place lane vc
     let v := getIn s.mesh k
     let up := meshUp s (routerField place)
     let x := crossKey place lane
     let g := routerField ((farPlace s.mesh place lane).getD place)
     let idle := (getCross s.mesh x).last + 16 < crossW s.mesh x g
     (up = true → isSeam s.mesh place lane = true → crossSep s.mesh x g ≠ 4 → idle →
       ∃ m', exec (.seamRecentre (place % 64) (place / 64) lane) s = .next (atMesh (fun _ => m') s) ∧ crossSep m' x g = 4 ∧
         m' = { s.mesh with crossings := m'.crossings, recentres := m'.recentres } ∧
         (∀ y, y ≠ x → getCross m' y = getCross s.mesh y) ∧ getCross m' x = { getCross s.mesh x with r := (getCross m' x).r } ∧
         ∀ f, smGet 0 m'.recentres f = (if f = crossInto x then min 0xFFFFFFFF (smGet 0 s.mesh.recentres f + 1)
           else smGet 0 s.mesh.recentres f)) ∧
     (up = true → isSeam s.mesh place lane = false ∨ crossSep s.mesh x g = 4 ∨ ¬ idle →
       exec (.seamRecentre (place % 64) (place / 64) lane) s = .next (atMesh (fun m => m) s)) ∧
     (∀ t, up = true → farPlace s.mesh place lane = some t → v.buf = [] →
       (∀ l ∈ getLink s.mesh (laneKey place lane), ∀ b, l.body = some b → b.1 ≠ vc) →
       ∃ m', exec (.vcCreditReset place lane vc) s = .next (atMesh (fun _ => m') s) ∧
         m' = { s.mesh with outs := m'.outs, credits := m'.credits, links := m'.links } ∧
         (∀ y, getOut m' y = if y = vcKey t (backLane lane) vc then { getOut s.mesh y with used := 0 } else getOut s.mesh y)) ∧
     (up = true → v.isOpen = true → isRouter place = true →
       ∃ m', exec (.packetAbortTimeout (place % 64) (place / 64) lane vc) s = .next (atMesh (fun _ => m') s) ∧ m' = { s.mesh with ins := m'.ins } ∧
         (∀ y, y ≠ k → getIn m' y = getIn s.mesh y) ∧
         getIn m' k = { v with
           isOpen := false, discard := false, buf := v.buf ++ (if v.discard then [] else [abortTail]) }) ∧
     (up = true → v.isOpen = false → exec (.packetAbortTimeout (place % 64) (place / 64) lane vc) s = .next (atMesh (fun m => m) s)) ∧
     (up = false → exec (.seamRecentre (place % 64) (place / 64) lane) s = .next s ∧ exec (.vcCreditReset place lane vc) s = .next s ∧
       exec (.packetAbortTimeout (place % 64) (place / 64) lane vc) s = .next s)) ∧
  ((∀ (site lane vc : Nat) (port : RPort) (s : State) (p : Packet) (b : Branch) (o : Order) (yt : Nat), siteOk site = true →
     laneExists site lane = true → vc ≤ 4 → meshUp s (routerField site) = true →
     let k := vcKey site lane vc
     let v := getIn s.mesh k
     v.hdr = some p → p.mcast = true → v.buf ≠ [] → v.branches.filter (fun x => decide (x.port = port)) = [b] → b.took = false →
     b.dropped = false → (b.sent = true → b.lane ≠ none) → chooseRoute s.mesh site (issuerOf p) = .go o yt →
     ∃ m' n, exec (.forkBranchDrop site lane vc port) s = .next (atMesh (fun _ => m') s) ∧
       m' = { s.mesh with ins := m'.ins, outs := m'.outs, fields := m'.fields, feeds := m'.feeds } ∧
       (∀ y, getIn m' y = if y = k then
         { v with branches := v.branches.map fun x => if x.port = port then { x with dropped := true } else x } else getIn s.mesh y) ∧
       (∀ y, getOut m' y = { getOut s.mesh y with abortDue := (getOut s.mesh y).abortDue ||
         (b.sent && b.lane.any fun l => decide (y = vcKey site l vc)) }) ∧
       (∀ f, getFieldMesh m' f = if f = routerField site then
         { getFieldMesh s.mesh f with mcastDrop := min 0xFFFFFFFF ((getFieldMesh s.mesh f).mcastDrop + 1) } else getFieldMesh s.mesh f) ∧
       (∀ y, getFeed m' y = getFeed s.mesh y ++ (if y = vcKey site 6 (packetVc n) then packetFlits n else [])) ∧
       n.typ = .dropNotice ∧ n.dst = issuerOf p ∧ n.tag = p.tag ∧ n.xid = p.xid ∧ n.job = p.job ∧
       n.prect = branchRect site p.prect port) ∧
   (∀ (i site : Nat) (s : State) (p : Packet) (l1 l2 : List XferJob) (j : XferJob), siteOk site = true →
     s.mesh.arrived[i]? = some { place := site, pkt := p } → p.typ = .dropNotice → closedFor s site p = false →
     let c := getCore s site
     let mine := fun (x : XferJob) => x.tag = p.tag ∧ some x.st.entry.icount = p.xid
     c.xfer.jobs = l1 ++ j :: l2 → mine j → (∀ x ∈ l1 ++ l2, ¬ mine x) →
     exec (.dropNotice i) s = .next (atCore site (fun _ => { c with xfer := { c.xfer with
       jobs := l1 ++ { j with waitAcks := j.waitAcks.filter fun x => !decide (p.prect.x0 ≤ x % 64 ∧ x % 64 ≤ p.prect.x1 ∧
         p.prect.y0 ≤ x / 64 ∧ x / 64 ≤ p.prect.y1) } :: l2 } })
       { s with mesh := { s.mesh with arrived := listDel s.mesh.arrived i } })))

/-- A local port closes with its reason, keeps that reason while bypassed, and ends the packet that its core is injecting with an
ABORT tail; it reopens only when its core is IDLE and no cause is left. A packet at a closed port is consumed, counted, and
answered with a FENCED NACK when its type asks for one and a route leads back. No other router changes. -/
def Obligations.LocalPorts : Prop :=
  ∀ (site : Nat) (s : State), siteOk site = true →
    (∀ reason, 1 ≤ reason → reason ≤ 5 → (getPort s.mesh site).closed = false →
      ∃ m', exec (.portClose (siteField site) (siteX site % 16) (siteY site % 20) reason) s = .next { s with mesh := m' } ∧
        m' = { s.mesh with ports := m'.ports, feeds := m'.feeds } ∧
        (∀ k, getPort m' k = if k = site then { getPort s.mesh k with
          closed := true, reason := if (getPort s.mesh k).bypass then (getPort s.mesh k).reason else reason } else getPort s.mesh k) ∧
        (∀ k, (∀ v, v < 5 → k ≠ vcKey site 6 v) → getFeed m' k = getFeed s.mesh k) ∧
        (∀ v f l, v < 5 → getFeed s.mesh (vcKey site 6 v) = f :: l → (∀ g ∈ f :: l, g.head = false) →
          getFeed m' (vcKey site 6 v) = [{ abortTail with owed := true }]) ∧
        ∀ v, v < 5 → getFeed s.mesh (vcKey site 6 v) = [] → getFeed m' (vcKey site 6 v) = []) ∧
    (∀ reason, 1 ≤ reason → reason ≤ 5 → (getPort s.mesh site).closed = true → exec (.portClose (siteField site) (siteX site % 16) (siteY site % 20) reason) s = .next s) ∧
    (mayOpen s site = true → ∃ m', exec (.portReopen site) s = .next { s with mesh := m' } ∧ m' = { s.mesh with ports := m'.ports } ∧
      ∀ k, getPort m' k = if k = site then { getPort s.mesh k with closed := false, reason := 0 } else getPort s.mesh k) ∧
    ((getCore s site).stream.state ≠ .idle ∨ (getPort s.mesh site).bypass = true ∨ (getCore s site).fenced = true ∨
        site ∈ s.box.kiln ∨ permanentSite s site = true ∨ coreLive s site = false ∨ partInService s (siteField site) = false →
      exec (.portReopen site) s = .next s) ∧
    (∀ i p, s.mesh.arrived[i]? = some { place := site, pkt := p } → closedFor s site p = true →
      let answers := p.typ = .write ∨ p.typ = .read ∨ p.typ = .mcastWrite ∨ (p.typ = .hbmData ∧ p.slot ≠ 255)
      let common := fun (m' : Mesh) =>
        exec (.packetToClosedPort i site) s = .next { s with mesh := m' } ∧ m'.arrived = listDel s.mesh.arrived i ∧
        m' = { s.mesh with arrived := m'.arrived, ports := m'.ports, fields := m'.fields, feeds := m'.feeds } ∧
        (∀ k, getPort m' k = if k = site then { getPort s.mesh k with drops := min 65535 ((getPort s.mesh k).drops + 1) }
          else getPort s.mesh k) ∧
        ∀ f, getFieldMesh m' f = if f = routerField site then
          { getFieldMesh s.mesh f with fencedDrop := min 0xFFFFFFFF ((getFieldMesh s.mesh f).fencedDrop + 1) } else getFieldMesh s.mesh f
      (¬ answers → ∃ m', common m' ∧ m'.feeds = s.mesh.feeds) ∧
      (answers → ∀ o yt, chooseRoute s.mesh site (issuerOf p) = .go o yt → ∃ m' n, common m' ∧
        (∀ k, getFeed m' k = getFeed s.mesh k ++ (if k = vcKey site 6 (packetVc n) then packetFlits n else [])) ∧
        n.typ = .nack ∧ n.src = site ∧ n.dst = issuerOf p ∧ n.tag = p.tag ∧ n.xid = p.xid ∧ n.job = p.job ∧ n.status = 1)) ∧
    (∀ i p, s.mesh.arrived[i]? = some { place := site, pkt := p } → closedFor s site p = false →
      exec (.packetToClosedPort i site) s = .next s)

/-! ### Packets at cores -/

/-- A packet of row data that passes its core's open port waits at the transfer-in requester of the write port, a halo packet at
halo-in: of a WRITE, a multicast write or an XCAST's HBM data, and of a read's answer while the transfer is open. A packet
without rows that completes its transfer posts and is acknowledged at once. A grant stores the oldest packet's next row, or
segment; after its last the transfer's last row brings one post and one ACK, a row of an XGET is awaited no more; a refused row
counts, and brings one NACK at the end. Nothing else of the core changes, and no other core. -/
def Obligations.DataPackets : Prop :=
  (∀ (i site : Nat) (s : State) (p : Packet), siteOk site = true → s.mesh.arrived[i]? = some { place := site, pkt := p } →
    closedFor s site p = false →
    let c := getCore s site
    let s1 := { s with mesh := { s.mesh with arrived := listDel s.mesh.arrived i } }
    let becomes := fun (cmd : Instr) (c' : Core) => exec cmd s = .next (atCore site (fun _ => c') s1)
    let waits := fun (own : Bool) (q : Packet) =>
      let j : InJob := { pkt := q, left := q.rows.zipIdx.map (fun r => (r.2, r.1)), stored := 0, refused := none, own := own }
      { c with xfer := { c.xfer with
        ins := c.xfer.ins ++ (if q.halo then [] else [j]), haloIns := c.xfer.haloIns ++ (if q.halo then [j] else []) } }
    let answered := fun (cmd : Instr) => ∃ c' a, becomes cmd c' ∧
      c' = { c with sync := { c.sync with slots := c'.sync.slots }, xfer := { c.xfer with rx := c'.xfer.rx }, out := c.out ++ [a] } ∧
      SlotCounts c c' (fun _ => 0) (fun _ => 0) (fun n => if p.post = true ∧ n = p.slot then 1 else 0) ∧
      (∀ k, smGet (0, 0) c'.xfer.rx k = if k = rxKey p then (0, 0) else smGet (0, 0) c.xfer.rx k) ∧
      a.typ = .ack ∧ a.src = site ∧ a.dst = issuerOf p ∧ a.tag = p.tag ∧ a.xid = p.xid ∧ a.job = p.job
    let writes := fun (cmd : Nat → Instr) => (p.rows ≠ [] → becomes (cmd i) (waits false p)) ∧
      (p.rows = [] → p.aborted = false → p.segs = false → (rowCount c p).1 ≤ p.xid.getD 0 →
        p.total = (if (rowCount c p).1 = p.xid.getD 0 then (rowCount c p).2 else 0) → answered (cmd i))
    let reads := fun (cmd : Nat → Instr) =>
      (findXfer c p ≠ none → becomes (cmd i) (waits true { p with slot := 255, halo := false })) ∧
      (findXfer c p = none → becomes (cmd i) c)
    (p.typ = .write → writes .writePacket) ∧ (p.typ = .mcastWrite → writes .mcastWritePacket) ∧
    (p.typ = .hbmData → p.cast ≠ none → writes .hbmDataPacket) ∧ (p.typ = .hbmData → p.cast = none → reads .hbmDataPacket) ∧
    (p.typ = .readData → reads .readDataPacket)) ∧
  (∀ (site : Nat) (s : State) (halo : Bool) (j : InJob) (rest : List InJob), siteOk site = true → coreLive s site = true →
    let c := getCore s site
    insOf halo c = j :: rest → (writePortCycle (writeWants c) c).2 = some (if halo then 1 else 0) →
    let p := j.pkt
    let a := inAccess c j
    let n := match a with
      | some x => accUnits p.segs x
      | none => 1
    let fault := match a with
      | some x => accFault c x
      | none => some .slabRange
    let last := j.left.length ≤ n
    let row := fun (k : Nat) => (j.left.getD k (0, Row.zero)).2
    let word := fun (k : Nat) => if p.segs then (rowWord (row k) 0, rowZ (row k) 0) else (rowAny (row 0) k, rowZ (row 0) k)
    let words := match a, fault with
      | some x, none => accWords 0 x
      | _, _ => []
    let waiting := if last then rest else { j with
      left := j.left.drop n, stored := if fault = none then j.stored + n else j.stored
      refused := if j.refused ≠ none ∨ fault = none then j.refused else some (if fault = some .bankOff then 2 else 3) } :: rest
    let got := (if p.segs = true ∨ (rowCount c p).1 ≠ p.xid.getD 0 then 0 else (rowCount c p).2) + j.stored + n
    j.left ≠ [] → j.own = false ∨ fault = none → (j.own = false → p.aborted = false) →
    (p.segs = true ∨ (rowCount c p).1 ≤ p.xid.getD 0) →
    ∃ c', exec (.arbiterGrant .wr site) s = .next (atCore site (fun _ => c') s) ∧
      c' = { c with
        arbWr := c'.arbWr, wr := c'.wr, out := c'.out, sync := { c.sync with slots := c'.sync.slots }
        slab := { c.slab with
          words := c'.slab.words, wb := c'.slab.wb
          lateWrites := if fault = some .bankOff then min 0xFFFFFFFF (c.slab.lateWrites + 1) else c.slab.lateWrites }
        xfer := { c.xfer with
          ins := if halo then c.xfer.ins else waiting, haloIns := if halo then waiting else c.xfer.haloIns
          rx := c'.xfer.rx, jobs := c'.xfer.jobs }
        activity := { c.activity with slab := c.activity.slab + if fault = none then 1 else 0 } } ∧
      (∀ x ∈ words, getWord c' x.1 x.2.1 = secEncode (word x.2.2).1 (word x.2.2).2) ∧
      (∀ r sg, sg < 36 → (∀ x ∈ words, (x.1, x.2.1) ≠ (r, sg)) → getWord c' r sg = getWord c r sg) ∧
      c'.xfer.jobs = c.xfer.jobs.map (fun x =>
        if j.own = true ∧ x.tag = p.tag ∧ some x.st.entry.icount = p.xid then { x with waitRows := x.waitRows - n } else x) ∧
      (let silent := c'.out = c.out ∧ SlotCounts c c' (fun _ => 0) (fun _ => 0) (fun _ => 0)
       let done := last ∧ j.own = false ∧ j.refused = none ∧ fault = none
       (done → p.total = got → (∃ a, c'.out = c.out ++ [a] ∧ a.typ = .ack ∧ a.src = site ∧ a.dst = issuerOf p ∧ a.tag = p.tag ∧
          a.xid = p.xid) ∧ SlotCounts c c' (fun _ => 0) (fun _ => 0) (fun n => if p.post = true ∧ n = p.slot then 1 else 0)) ∧
       (done → p.total ≠ got → silent) ∧
       (last → j.own = false → j.refused ≠ none ∨ fault ≠ none →
         (∃ a, c'.out = c.out ++ [a] ∧ a.typ = .nack ∧ a.src = site ∧ a.dst = issuerOf p ∧ a.tag = p.tag ∧ a.xid = p.xid ∧
           a.status = j.refused.getD (if fault = some .bankOff then 2 else 3)) ∧
         SlotCounts c c' (fun _ => 0) (fun _ => 0) (fun _ => 0)) ∧
       (¬ last ∨ j.own = true → silent) ∧
       ∀ k, smGet (0, 0) c'.xfer.rx k = (if done ∧ p.segs = false ∧ k = rxKey p then
         (if p.total = got then (0, 0) else (p.xid.getD 0, got)) else smGet (0, 0) c.xfer.rx k)))

/-- A READ waits at the transfer-out requester of its owner; each grant of that requester, or of halo-out, reads the oldest packet's
next row or segment, and after the last the packet leaves with what was read. An ACK takes its sender off the transfer's list; a
NACK counts and faults the transfer with the code of its status, and only the first fault is recorded; a NACK to an edge unit is
consumed. Nothing else of the core changes, and no other core. -/
def Obligations.AnswersToTransfers : Prop :=
  (∀ (i site : Nat) (s : State) (p : Packet), siteOk site = true → s.mesh.arrived[i]? = some { place := site, pkt := p } →
    closedFor s site p = false →
    let c := getCore s site
    let s1 := { s with mesh := { s.mesh with arrived := listDel s.mesh.arrived i } }
    let mine := fun (x : XferJob) => x.tag = p.tag ∧ some x.st.entry.icount = p.xid
    (p.typ = .read → ∃ o, exec (.readPacket i) s = .next (atCore site (fun _ =>
        { c with xfer := { c.xfer with outs := c.xfer.outs ++ [o] } }) s1) ∧
      o.next = p.addr ∧ o.left = p.count ∧ o.idx = 0 ∧ o.got = [] ∧ o.refused = none ∧ o.own = none ∧ o.pkt.typ = .readData ∧
      o.pkt.src = site ∧ o.pkt.dst = issuerOf p ∧ o.pkt.tag = p.tag ∧ o.pkt.xid = p.xid ∧ o.pkt.addr = p.haddr ∧
      o.pkt.side = p.side ∧ o.pkt.segs = p.segs) ∧
    (∀ l1 l2 j, c.xfer.jobs = l1 ++ j :: l2 → mine j → (∀ x ∈ l1 ++ l2, ¬ mine x) →
      (p.typ = .ack → exec (.ackPacket i) s = .next (atCore site (fun _ => { c with xfer := { c.xfer with
        jobs := l1 ++ (if j.waitAcks = [] then { j with hbmAcks := j.hbmAcks - 1 }
          else { j with waitAcks := j.waitAcks.filter fun x => !decide (x = p.src) }) :: l2 } }) s1)) ∧
      (p.typ = .nack →
        let c1 := { c with xfer := { c.xfer with
          refused := min 65535 (c.xfer.refused + 1), jobs := l1 ++ { j with nacked := true } :: l2 } }
        let e := j.st.entry
        (c.stream.fault = none → ∃ c', exec (.nackPacket i) s = .next (atCore site (fun _ => c') s1) ∧
          Faults c1 c' (if p.status = 2 then .bankOff else if p.status = 3 then .slabRange else .fencedTarget) (opEngine e.insn.op)
            e.pc e.icount) ∧
        (∀ f, c.stream.fault = some f → f.cc ≠ c.cc ∨ f.icount ≤ e.icount →
          exec (.nackPacket i) s = .next (atCore site (fun _ =>
            { c1 with stream := { c.stream with state := .faulted, more := true } }) s1)))) ∧
    ((∀ x ∈ c.xfer.jobs, ¬ mine x) →
      (p.typ = .ack → exec (.ackPacket i) s = .next (atCore site (fun _ => c) s1)) ∧
      (p.typ = .nack → exec (.nackPacket i) s = .next (atCore site (fun _ =>
        { c with xfer := { c.xfer with refused := min 65535 (c.xfer.refused + 1) } }) s1)))) ∧
  (∀ (i : Nat) (s : State) (a : Arrived), s.mesh.arrived[i]? = some a → isRouter a.place = false → a.pkt.typ = .nack →
    exec (.nackPacket i) s = .next { s with mesh := { s.mesh with arrived := listDel s.mesh.arrived i } }) ∧
  (∀ (site : Nat) (s : State) (halo : Bool) (o : OutJob) (rest : List OutJob), siteOk site = true → coreLive s site = true →
    let c := getCore s site
    VectorIdle c → outsOf halo c = o :: rest → (readPortCycle (readWants c) c).2 = some (if halo then 4 else 3) →
    accFault c (outAccess o) = none →
    let n := accUnits o.pkt.segs (outAccess o)
    let last := o.left ≤ n
    ∃ c' got, exec (.arbiterGrant .rd site) s = .next (atCore site (fun _ => c') s) ∧
      let rows := o.got ++ got.zipIdx.map fun r => (o.idx + r.2, r.1)
      let waiting := if last then rest else
        { o with next := o.next + n, left := o.left - n, idx := o.idx + n, got := rows } :: rest
      c' = { c with
        cc := c.cc + 1, stepCc := c'.stepCc, arbRd := c'.arbRd, rd := c'.rd, events := c'.events, out := c'.out
        slab := { c.slab with ce := c'.slab.ce, ue := c'.slab.ue, lastErr := c'.slab.lastErr }
        vec := { c.vec with drains := c'.vec.drains }
        xfer := { c.xfer with
          outs := if halo then c.xfer.outs else waiting, haloOuts := if halo then waiting else c.xfer.haloOuts }
        lockStore := c'.lockStore, activity := { c.activity with slab := c.activity.slab + 1 } } ∧
      (o.pkt.typ ≠ .hbmWrite → c'.lockStore = c.lockStore) ∧
      (o.pkt.segs = false → ∃ row, got = [row] ∧ ∀ x ∈ accWords 0 (outAccess o),
        let d := secDecode (getWord c x.1 x.2.1)
        rowAny row x.2.2 = d.data ∧ rowZ row x.2.2 = d.crazed) ∧
      (o.pkt.segs = true → got.length = n ∧ ∀ x ∈ accWords 0 (outAccess o), ∃ row, got[x.2.2]? = some row ∧
        let d := secDecode (getWord c x.1 x.2.1)
        rowWord row 0 = d.data ∧ rowZ row 0 = d.crazed) ∧
      (¬ last → c'.out = c.out) ∧
      (last → o.own ≠ none → c'.out = c.out ++ [{ o.pkt with rows := rows.map (·.2) }]) ∧
      (last → o.own = none → o.refused = none →
        c'.out = c.out ++ [{ o.pkt with count := rows.length, rows := rows.map (·.2) }]))

/-- A credit at a member's core joins its table once, and counts as received either way; with 1,024 held it is dropped and counted.
A barrier arrival at the leader is tallied once for each site, and the last multicasts the release; a release completes the
waiting BARRIER of its ID and ordinal and no other. A CONTROL packet of the signal box writes a core register, through a closed
port too; an arrival report to the signal box is taken. Nothing else changes. -/
def Obligations.SyncAndControlPackets : Prop :=
  ∀ (i site : Nat) (s : State) (p : Packet), siteOk site = true → s.mesh.arrived[i]? = some { place := site, pkt := p } →
    let c := getCore s site
    let s1 := { s with mesh := { s.mesh with arrived := listDel s.mesh.arrived i } }
    (p.typ = .credit → closedFor s site p = false →
      exec (.creditPacket i) s = .next (atCore site (fun _ => { c with sync := { c.sync with
        creditsReceived := (c.sync.creditsReceived + 1) % 2 ^ 32
        credits := c.sync.credits ++
          (if (p.src, p.slot) ∈ c.sync.credits ∨ c.sync.credits.length ≥ 1024 then [] else [(p.src, p.slot)])
        creditDrops := if (p.src, p.slot) ∉ c.sync.credits ∧ c.sync.credits.length ≥ 1024
          then min 65535 (c.sync.creditDrops + 1) else c.sync.creditDrops } }) s1)) ∧
    (p.typ = .barrier → p.release = false → closedFor s site p = false →
      let held := c.sync.tallies.find? fun t => decide (t.id = p.ident.1) && decide (t.ordinal = p.ident.2)
      let others := c.sync.tallies.filter fun t => !(decide (t.id = p.ident.1) && decide (t.ordinal = p.ident.2))
      let heard := match held with
        | some t => if t.arrived.contains p.src then t.arrived else p.src :: t.arrived
        | none => [p.src]
      let full := held = none ∧ 8 ≤ c.sync.tallies.length
      (full → exec (.barrierArrival i) s = .next (atCore site (fun _ =>
        { c with sync := { c.sync with barrierDrops := min 65535 (c.sync.barrierDrops + 1) } }) s1)) ∧
      (¬ full → heard.length = regionSize c → ∃ r, exec (.barrierArrival i) s = .next (atCore site (fun _ =>
          { c with sync := { c.sync with tallies := others }, out := c.out ++ [r] }) s1) ∧
        r.typ = .barrier ∧ r.mcast = true ∧ r.release = true ∧ r.ident = p.ident ∧ r.src = c.place.site ∧
        r.prect = boundingRect (rectSites c.place c.sync.bx0 c.sync.by0 (c.sync.bw + 1) (c.sync.bh + 1))) ∧
      (¬ full → heard.length ≠ regionSize c → exec (.barrierArrival i) s = .next (atCore site (fun _ =>
        { c with sync := { c.sync with
          tallies := others ++ [{ id := p.ident.1, ordinal := p.ident.2, arrived := heard }] } }) s1))) ∧
    (∀ st o b, p.typ = .barrier → p.release = true → closedFor s site p = false → c.sync.waiting = some (st, o) →
      st.entry.insn.op = .barrier b →
      (p.ident = (b.toNat, o) → ∃ c', exec (.barrierRelease i) s = .next (atCore site (fun _ => c') s1) ∧
        c' = { c with sync := { c.sync with waiting := none, slots := c'.sync.slots } } ∧ Completed c c' st) ∧
      (p.ident ≠ (b.toNat, o) → exec (.barrierRelease i) s = .next (atCore site (fun _ => c) s1))) ∧
    (p.typ = .barrier → p.release = true → closedFor s site p = false → c.sync.waiting = none →
      exec (.barrierRelease i) s = .next (atCore site (fun _ => c) s1)) ∧
    (∀ v, p.typ = .control → p.ctl = some (.regWrite 0x380020 v) → p.srcEdge = true → windowDark s site = false →
      v / 2 ^ 63 % 2 = 0 →
      exec (.controlPacket i) s = .next (atCore site (fun _ => { c with stream := { c.stream with
        haltEn := decide (v / 2 ^ 62 % 2 = 1), entryEn := decide (v / 2 ^ 61 % 2 = 1), entry := v / 2 ^ 32 % 8192,
        haltAt := v % 2 ^ 32 } }) s1)) ∧
    (∀ k a n m, s.mesh.arrived[k]? = some a → a.pkt.typ = .control → a.pkt.ctl = some (.arrival n m) →
      exec (.controlPacket k) s = .next { s with mesh := { s.mesh with arrived := listDel s.mesh.arrived k } })

/-! ### The partitions -/

/-- An HBM request that has reached the channel controllers of a field joins them when its partition is in service, cut into
requests that cover its words, a write cut before its first row into none, and is answered FENCED otherwise. A channel serves
the request it granted: a write stores the words, the marker where one is crazed, and the other words of a burst written in part
as decoded; a read takes the words as decoded, crazed on a page marked CRAZED. The last request of a write brings an ACK, of a
read the rows. A fettling read rewrites a burst in which a word was corrected. No other word changes, and nothing is served
without a grant, a clock and a field rail. -/
def Obligations.HbmGrants : Prop :=
  (∀ (f : Nat) (s : State) (a : Arrived), f < 8 → s.clock.locked = true → s.mesh.arrived.filter (atControllers f) = [a] →
    let p := a.pkt
    let router := a.place % 4096
    let left := { s.mesh with arrived := s.mesh.arrived.filter fun x => !atControllers f x }
    let n := (if p.typ = .hbmWrite then p.rows.length else p.count) * (if p.side then 18 else 16)
    (∀ x, hbmTranslate s.hbm p.job p.haddr = some x → partInService s (addrPart x) = true → (getRail s.power f).fieldOn = true →
      (n = 0 → ∃ h', exec (.arbiterGrant .hbm f) s = .next { s with mesh := left, hbm := h' } ∧
        h' = { s.hbm with granted := h'.granted, grants := h'.grants, arbs := h'.arbs }) ∧
      (0 < n → (∀ i, i < n → packetAddr s.hbm p i ≠ none) →
      ∃ h' rs j, exec (.arbiterGrant .hbm f) s = .next { s with mesh := left, hbm := h' } ∧
        h' = { s.hbm with jobs := s.hbm.jobs ++ [j], reqs := s.hbm.reqs ++ rs, nextJob := s.hbm.nextJob + 1, granted := h'.granted,
                          grants := h'.grants, arbs := h'.arbs } ∧
        j.id = s.hbm.nextJob ∧ j.place = router ∧ j.left = rs.length ∧ j.words = [] ∧
        j.pkt = { p with count := if p.typ = .hbmWrite then p.rows.length else p.count } ∧
        rs.flatMap (fun r => (List.range r.n).map (r.first + ·)) = List.range n ∧
        ∀ r ∈ rs, r.job = j.id ∧ r.rq = packetRequester s router p ∧ 1 ≤ r.n ∧ r.n ≤ 8 ∧
          (packetAddr s.hbm p r.first).map addrChan = some r.chan)) ∧
    ((∀ x, hbmTranslate s.hbm p.job p.haddr = some x → partInService s (addrPart x) = false) →
      ∃ h' k, exec (.arbiterGrant .hbm f) s = .next { s with mesh := { left with edge := s.mesh.edge ++ [k] }, hbm := h' } ∧
        h' = { s.hbm with granted := h'.granted, grants := h'.grants, arbs := h'.arbs } ∧
        k.typ = .nack ∧ k.src = router ∧ k.dst = issuerOf p ∧ k.tag = p.tag ∧ k.xid = p.xid ∧ k.job = p.job ∧ k.status = 1)) ∧
  (∀ (ch a : Nat) (s : State) (r : HbmReq) (j : HbmJob), ch < 512 → hbmUp s (ch / 64) = true →
    smGet 0 s.hbm.granted ch = r.rq + 1 → r.rq < 9 →
    s.hbm.reqs.find? (fun x => decide (x.chan = ch) && decide (x.rq = r.rq)) = some r →
    s.hbm.jobs.find? (fun x => decide (x.id = r.job)) = some j → 1 ≤ j.left → a % 8 = 0 → a % 64 + 8 * r.n ≤ 64 →
    (∀ i, i < r.n → packetAddr s.hbm j.pkt (r.first + i) = some (a + 8 * i)) →
    let w := a / 8
    let at_ := fun (x : Nat) => hbmDecode (smGet 0#72 s.hbm.words x)
    let rest := fun (j1 : HbmJob) => if j.left = 1 then s.hbm.jobs.filter (fun x => !decide (x.id = j.id))
      else s.hbm.jobs.map fun x => if x.id = j.id then j1 else x
    let common := fun (t : State) (j1 : HbmJob) =>
      exec (.hbmRequestGrant ch []) s = .next t ∧
      Noted { s with hbm := t.hbm, mesh := { s.mesh with edge := t.mesh.edge } } t ∧ t.hbm.jobs = rest j1 ∧
      t.hbm = { s.hbm with words := t.hbm.words, chans := t.hbm.chans, stks := t.hbm.stks, granted := t.hbm.granted,
                           reqs := s.hbm.reqs.erase r, jobs := t.hbm.jobs, events := [] } ∧
      (∀ x, smGet 0 t.hbm.granted x = if x = ch then 0 else smGet 0 s.hbm.granted x) ∧ (j.left ≠ 1 → t.mesh.edge = s.mesh.edge)
    (j.pkt.typ = .hbmWrite → ∃ t, common t { j with left := j.left - 1 } ∧
      (∀ x, smGet 0#72 t.hbm.words x =
        (if w ≤ x ∧ x < w + r.n then hbmStored (packetWord j.pkt (r.first + (x - w))).1 (packetWord j.pkt (r.first + (x - w))).2
        else if w / 4 ≤ x / 4 ∧ x / 4 ≤ (w + r.n - 1) / 4 ∧ 1 ≤ r.n then hbmStored (at_ x).data (at_ x).crazed
        else smGet 0#72 s.hbm.words x)) ∧
      (j.left = 1 → j.pkt.aborted = false → ∃ k, t.mesh.edge = s.mesh.edge ++ [k] ∧ k.typ = .ack ∧ k.src = j.place ∧
        k.dst = j.pkt.src ∧ k.tag = j.pkt.tag ∧ k.xid = j.pkt.xid ∧ k.job = j.pkt.job)) ∧
    (j.pkt.typ = .hbmRead → ∃ t ws, common t { j with left := j.left - 1, words := ws } ∧ t.hbm.words = s.hbm.words ∧
      (∀ i, i < r.n → smGet (0#64, false) ws (r.first + i) = ((at_ (w + i)).data,
        (at_ (w + i)).crazed || pageCrazed s.hbm j.pkt.job (j.pkt.haddr + 8 * (r.first + i)))) ∧
      (∀ k, k < r.first ∨ r.first + r.n ≤ k → smGet (0#64, false) ws k = smGet (0#64, false) j.words k) ∧
      (j.left = 1 → j.pkt.cast = none → ∃ k, t.mesh.edge = s.mesh.edge ++ [k] ∧ k.typ = .hbmData ∧ k.src = j.place ∧
        k.dst = j.pkt.src ∧ k.tag = j.pkt.tag ∧ k.xid = j.pkt.xid ∧ k.addr = j.pkt.addr ∧ k.count = j.pkt.count ∧
        k.rows.length = j.pkt.count ∧
        ∀ n i, n < j.pkt.count → i < (if j.pkt.side then 18 else 16) →
          let v := smGet (0#64, false) ws (n * (if j.pkt.side then 18 else 16) + i)
          let row := k.rows.getD n Row.zero
          rowAny row (2 * i) = v.1.extractLsb' 0 32 ∧ rowAny row (2 * i + 1) = v.1.extractLsb' 32 32 ∧
          rowZ row (2 * i) = v.2 ∧ rowZ row (2 * i + 1) = v.2))) ∧
  (∀ (ch : Nat) (s : State) (d : Nat → W64) (e : Nat → Bool), ch < 512 → hbmUp s (ch / 64) = true →
    smGet 0 s.hbm.granted ch = 10 →
    let n := smGet 0 s.hbm.fettle ch
    let b := chanAddr ch (32 * n) / 32
    (∀ k, k < 4 → hbmDecode (smGet 0#72 s.hbm.words (4 * b + k)) = { data := d k, crazed := false, ce := e k, ue := false }) →
    ∃ h', exec (.hbmRequestGrant ch []) s = .next (atHbm (fun _ => h') s) ∧
      h' = { s.hbm with words := h'.words, chans := h'.chans, stks := h'.stks, granted := h'.granted, fettle := h'.fettle } ∧
      (∀ k, k < 4 → smGet 0#72 h'.words (4 * b + k) =
        (if e 0 || e 1 || e 2 || e 3 then hbmEncode (d k) else smGet 0#72 s.hbm.words (4 * b + k))) ∧
      (∀ x, x / 4 ≠ b → smGet 0#72 h'.words x = smGet 0#72 s.hbm.words x) ∧
      (∀ x, smGet 0 h'.granted x = if x = ch then 0 else smGet 0 s.hbm.granted x) ∧
      ∀ x, smGet 0 h'.fettle x = if x = ch then (n + 1) % 0x3000000 else smGet 0 s.hbm.fettle x) ∧
  (∀ (ch : Nat) (s : State), ch < 512 → hbmUp s (ch / 64) = false ∨ smGet 0 s.hbm.granted ch = 0 →
    exec (.hbmRequestGrant ch []) s = .next s)

/-- A refresh moves no data. A temperature reading is kept and sets the grant limit, and with more than 10 degrees from the training
temperature retrains a stack in service; RETRAIN starts a retraining and counts it; a retraining that converges returns the
stack to service at its temperature, one that fails is tried again, and a fourth failed attempt has the partition reset. No
other stack and no word changes. -/
def Obligations.StacksRefreshAndRetrain : Prop :=
  ∀ (stack : Nat) (s : State), stack < 16 →
    let k := getStack s.hbm stack
    let only := fun (h' : Hbm) (k' : Stack) => h' = { s.hbm with stks := h'.stks } ∧
      ∀ j, getStack h' j = if j = stack then k' else getStack s.hbm j
    (∀ ch, ch < 32 → exec (.hbmRefresh stack ch) s = .next s) ∧
    (∀ temp, temp < 256 → ∃ t, exec (.stackTempRead stack temp) s = .next t ∧
      let slow := if temp ≥ 100 then 4 else if temp ≥ 95 then 2 else if temp ≤ 90 then 0 else min k.slow 2
      let far := k.state = 2 ∧ (temp > k.trainTemp + 10 ∨ k.trainTemp > temp + 10)
      only t.hbm { k with
        temp := temp, slow := slow, state := if far then 3 else k.state
        retrains := if far then min 65535 (k.retrains + 1) else k.retrains, attempts := if far then 0 else k.attempts
        ceTimes := if far then [] else k.ceTimes } ∧
      t.power = { s.power with therm := { s.power.therm with
        stackLimits := if slow > k.slow then min 65535 (s.power.therm.stackLimits + 1) else s.power.therm.stackLimits } } ∧
      t = { s with hbm := t.hbm, power := t.power }) ∧
    (∃ t, exec (.hbmCfgRetrain (stack / 2) (stack % 2)) s = .next t ∧ t = { s with hbm := t.hbm } ∧
      (k.state = 2 → only t.hbm { k with state := 3, retrains := min 65535 (k.retrains + 1), attempts := 0, ceTimes := [] }) ∧
      (k.state ≠ 2 → t.hbm = s.hbm)) ∧
    (∀ ok stall failing, stall < 65536 → k.state = 3 ∨ (k.state = 4 ∧ 1 ≤ k.attempts ∧ k.attempts ≤ 3) →
      ∃ h', exec (.stackRetrainEnd stack ok stall failing) s = .next (atHbm (fun _ => h') s) ∧
        let again := { k with
          lastStall := stall, retrains := if k.state = 4 then min 65535 (k.retrains + 1) else k.retrains }
        (ok = true → only h' { again with state := 2, trainTemp := k.temp, attempts := 0 }) ∧
        (ok = false → k.attempts ≠ 3 → only h' { again with state := 4, attempts := k.attempts + 1 }) ∧
        (ok = false → k.attempts = 3 → only { h' with events := s.hbm.events, resetDue := s.hbm.resetDue }
            { again with state := 4, attempts := 4 } ∧ h'.resetDue = s.hbm.resetDue ++ [stack / 2] ∧
          h'.events = s.hbm.events ++ failing.map fun c => (2, stack / 2 * 64 + 32 * (stack % 2) + c % 32))) ∧
    (∀ ok stall failing, k.state ≠ 3 → k.state ≠ 4 → exec (.stackRetrainEnd stack ok stall failing) s = .next (atHbm (fun h => h) s))

/-! ### Clocks and power -/

/-- A droop detector that takes part stretches its field by 2 rc, a margin monitor by 1 rc, and the deepest applies; any other trip
does nothing; the end clears the stretch. A divider change is armed when its target and tick are allowed and refused otherwise;
at its tick it applies, or waits while a field stretches; 40,000 tt later a larger divider applies and a smaller one is
cancelled. One slewed tt adds 2 or 0. -/
def Obligations.StretchesDividersAndSlews : Prop :=
  ∀ (s : State),
    let k := s.clock
    let only := fun (t : State) => t = { s with clock := t.clock, power := { s.power with clusters := t.power.clusters } }
    (∀ droop unit n, (if droop then clusterOk unit else siteOk unit) = true →
      let c := if droop then unit else siteCluster unit
      let f := clusterField c
      let sensor := if droop then unit else 640 + unit
      (k.locked = true → sensorsLive s c = true →
        ∃ k', exec (.marginTrip droop unit n) s = .next { s with clock := k' } ∧ k' = { k with fields := k'.fields } ∧
          getFieldClk k' f = {
            depth := max (getFieldClk k f).depth (if droop then 2 else 1)
            sensors := if sensor ∈ (getFieldClk k f).sensors then (getFieldClk k f).sensors else (getFieldClk k f).sensors ++ [sensor]
            periods := min (2 ^ 48 - 1) ((getFieldClk k f).periods + n) } ∧
          ∀ g, g ≠ f → getFieldClk k' g = getFieldClk k g) ∧
      (k.locked = false ∨ sensorsLive s c = false → exec (.marginTrip droop unit n) s = .next s)) ∧
    (∀ f n, f < 8 → (getFieldClk k f).depth > 0 → k.deferred = false →
      ∃ k', exec (.stretchEnd f n) s = .next { s with clock := k' } ∧ k' = { k with fields := k'.fields } ∧
        getFieldClk k' f = { depth := 0, sensors := [], periods := min (2 ^ 48 - 1) ((getFieldClk k f).periods + n) } ∧
        ∀ g, g ≠ f → getFieldClk k' g = getFieldClk k g) ∧
    (∀ f n, f < 8 → (getFieldClk k f).depth = 0 → exec (.stretchEnd f n) s = .next s) ∧
    (∀ f n p, f < 8 → (getFieldClk k f).depth > 0 → k.deferred = true → k.pending = some p → p.job = none →
      (∀ g, g < 8 → g ≠ f → (getFieldClk k g).depth = 0) →
      ∃ t, exec (.stretchEnd f n) s = .next t ∧ only t ∧ t.clock = { k with
        fields := t.clock.fields, div := p.target, pending := none, deferred := false, applied := (k.applied + 1) % 256
        appliedAt := k.time }) ∧
    (∀ target, target < 32 →
      ∃ t, exec (.dividerArm target) s = .next t ∧ only t ∧ (k.div ≤ target → t.power = s.power) ∧
        t.clock = (if target ∈ [8, 9, 10, 11, 12, 14, 16] ∧ k.fastest ≤ target ∧ k.time + 4000 ≤ k.tick then
          { k with target := target, pending := some { target := target, tick := k.tick, job := none }, deferred := false }
        else { k with target := target, refused := min 255 (k.refused + 1) })) ∧
    (∀ p, k.pending = some p → k.deferred = false →
      ∃ t, exec .dividerSwitch s = .next t ∧ only t ∧
        (p.target ≤ k.div ∨ anyStretch k = true → t.power = s.power) ∧
        t.clock = (if anyStretch k then { k with time := max k.time p.tick, deferred := true }
        else { k with
          time := max k.time p.tick, div := p.target, pending := none, applied := (k.applied + 1) % 256
          appliedAt := max k.time p.tick })) ∧
    (∀ p, k.pending = some p → k.deferred = true → p.job = none →
      ∃ t, exec .dividerDeferTimeout s = .next t ∧ only t ∧ (p.target ≤ k.div → t.power = s.power) ∧
        let now := max k.time (p.tick + 40000)
        t.clock = (if p.target ≥ k.div then
          { k with
            time := now, div := p.target, pending := none, deferred := false, applied := (k.applied + 1) % 256, appliedAt := now }
        else { k with time := now, pending := none, deferred := false, cancelled := min 255 (k.cancelled + 1) })) ∧
    (k.locked = true → k.offsetPs.toInt > 0 → k.time ≥ k.slewTick + 1024 →
      exec (.timeSlew 2) s = .next { s with clock := { k with time := (k.time + 2) % 2 ^ 64, slewTick := k.time } }) ∧
    (k.locked = true → k.offsetPs.toInt < 0 → k.time ≥ k.slewTick + 1024 →
      exec (.timeSlew 0) s = .next { s with clock := { k with time := k.time % 2 ^ 64, slewTick := k.time } })

/-- The feeds: FEED_A low with FEED_B good goes to FEED_B, with FEED_B bad counts as blocked; FEED_A recovered and FEED_B low go
back to FEED_A; each command leaves the readings of both. Both low write a last record, and turn every rail off: no work and no
rail is left; so do the loss of the root clock and a critical trip. -/
def Obligations.FeedsSwitchOrGo : Prop :=
  ∀ (a b : Nat) (s : State), s.boot.feedGood = true →
    let f := s.power.feeds
    let read := { f with
      aGood := decide (a ≥ 10800), bGood := decide (b ≥ 10800), aMv10 := min (a / 10) 4095, bMv10 := min (b / 10) 4095 }
    let goes := fun (cmd : Instr) (f' : Feeds) => exec cmd s = .next { s with power := { s.power with feeds := f' } }
    let back := { read with onB := false, toA := min 65535 (f.toA + 1) }
    (a < 10500 → f.onB = false → goes (.feedALow a b) (if b ≥ 10800
      then { read with onB := true, usedB := true, toB := min 65535 (f.toB + 1) }
      else { read with blocked := min 65535 (f.blocked + 1) })) ∧
    (a ≥ 10500 ∨ f.onB = true → goes (.feedALow a b) read) ∧
    (a ≥ 11400 → f.onB = true → goes (.feedARecovered a b) back) ∧
    (a < 11400 ∨ f.onB = false → goes (.feedARecovered a b) read) ∧
    (b < 10500 → a ≥ 10800 → f.onB = true → goes (.feedBLow a b) back) ∧
    (b ≥ 10500 ∨ a < 10800 ∨ f.onB = false → goes (.feedBLow a b) read) ∧
    (let kept := fun (t : State) => RailsOff t ∧ t.fuses = s.fuses ∧ t.mail = s.mail ∧ t.pending = s.pending ∧ t.boot.phase = 0 ∧
        ∀ x, (getCore t x).stream.imemRefused = (getCore s x).stream.imemRefused
     (a < 10200 → b < 10200 → ∃ t, exec (.bothFeedsLow a b) s = .next t ∧ kept t ∧ t.boot.feedGood = false ∧
        t.power.feeds.lastGasp = true ∧ t.power.feeds.off = min 65535 (f.off + 1)) ∧
     (s.clock.locked = true → ∃ t, exec .rootClockLost s = .next t ∧ kept t ∧ t.clock.lost = true ∧ t.boot.feedGood = true) ∧
     (s.boot.standby = true → s.tripped = false → ∃ t, exec .criticalTrip s = .next t ∧ kept t ∧ t.tripped = true)) ∧
    (a ≥ 10200 ∨ b ≥ 10200 → exec (.bothFeedsLow a b) s = .next s)

/-- HOST_CAP takes what the mailbox writes; a change of the cap takes effect as the least of the grade's, the host's and, on FEED_B,
FEED_B's; each 100 microseconds of measured power gives both averages, counts an A1 above 1.2 times the cap, and with no rule
met leaves the cap divider; a millisecond's ratio out of 0.7 to 1.4 leaves the gain, one in range moves it by an eighth of the
difference. -/
def Obligations.CapAveragesAndGain : Prop :=
  ∀ (w : Nat) (s : State),
    let pm := s.power.pm
    (s.boot.box2 = true → exec (.hostCapWrite w) s = .next { s with power := { s.power with pm := { pm with hostCap := w % 65536 } } }) ∧
    (isReady s.boot = true → ∃ t, exec .capChange s = .next t ∧ Reported { s with power := { s.power with pm := t.power.pm } } t ∧
      let grade := s.fuses.grade.capW
      let cap := min 65535 (min (min grade (if pm.hostCap = 0 then grade else pm.hostCap))
        (if s.power.feeds.onB then s.power.feeds.bLimit else grade))
      t.power.pm.capW = cap ∧
      (cap < pm.capW → t.power.pm.samples = []) ∧ (pm.capW ≤ cap → t.power.pm = { pm with capW := cap })) ∧
    (isReady s.boot = true → ∃ t, exec (.powerAverages w) s = .next t ∧
      Reported { s with power := { s.power with pm := t.power.pm } } t ∧
      let l := w :: pm.samples
      let p := t.power.pm
      p.samples = l.take 100 ∧ p.a1 = min ((l.take 10).sum / (l.take 10).length) 65535 ∧
      p.a10 = min ((l.take 100).sum / (l.take 100).length) 65535 ∧
      p.over120 = (if p.a1 * 10 > 12 * pm.capW then min 65535 (pm.over120 + 1) else pm.over120) ∧
      p.hold = (decide (p.a10 > pm.capW) && (decide (s.clock.div = 16) || pm.hold)) ∧
      (p.a1 * 10 ≤ 12 * pm.capW → p.a10 ≤ pm.capW → p.sinceApplied ≤ 100 → pm.fallDue = none →
        p.capDiv = pm.capDiv ∧ p.raises = pm.raises ∧ p.lowers = pm.lowers)) ∧
    (managerRuns s = true → pm.estMs > 0 →
      ∃ p, exec (.reconcileGain w) s = .next { s with power := { s.power with pm := p } } ∧
        p = { pm with k := p.k, estMs := 0, reconCount := (pm.reconCount + 1) % 2 ^ 32, reconFault := p.reconFault,
                      outRange := p.outRange, inRange := p.inRange } ∧
        let fj := w * 1000000000
        let bad := fj * 10 < pm.estMs * 7 ∨ pm.estMs * 14 < fj * 10
        (bad → p.inRange = 0 ∧ p.outRange = min 10 (pm.outRange + 1) ∧ p.reconFault = (pm.reconFault || decide (9 ≤ pm.outRange))) ∧
        (¬ bad → p.outRange = 0 ∧ p.inRange = min 10 (pm.inRange + 1) ∧ p.reconFault = (pm.reconFault && decide (pm.inRange < 9))) ∧
        (p.reconFault = true → p.k = pm.k) ∧
        (p.reconFault = false → p.k = max 0x3333 (min 0x5000
          ((pm.k : Int) + ((fj * 0x4000 / pm.estMs : Nat) - (pm.k : Int)) / 8).toNat)))

/-- A failed slice leaves service and is counted; with three left the cluster stays on, with fewer it is dark, and so is a shorted
cluster; a dark cluster has no output, its four cores are cleared and fenced with their ports closed, and a job that had one
there is due to recover. A failed phase of a rail leaves service; up to two of a field rail, and four of a mesh rail, change
nothing else; a third of a field rail turns it off, with its clusters, and has its partition reset. A crack suspicion only
counts. No other cluster and no other rail changes. The codes of a cluster's state are the model's (assumption 45). -/
def Obligations.ClustersAndRailsFail : Prop :=
  ∀ (k : Nat) (s : State), k < 640 →
    let c := getCluster s k
    let others := fun (t : State) => ∀ x, x ≠ k → getCluster t x = getCluster s x
    let dark := fun (t : State) => (getCluster t k).vout = 0 ∧
      (∀ x ∈ clusterSites k, (getCore t x).fenced = true ∧ (getCore t x).stream.state = .idle ∧ (getCore t x).slab.words = [] ∧
        (getPort t.mesh x).closed = true) ∧
      ((∀ j ∈ s.jobs, j.recoveries < 3) → others t ∧
        ∀ x, x ∉ clusterSites k → getCore t x = getCore s x ∧ getPort t.mesh x = getPort s.mesh x) ∧
      (∀ j, s.jobs = [j] → jobsAt s (clusterSites k) = [j.id] → mayRecover j = true → j.recoveries < 3 →
        t.jobs = [{ j with cause := some { code := 0, vcid := 0, icount := 0, site := none, seq := 0, dump := none, told := false } }])
    (∀ i, i < 4 → c.state = 2 → c.sliceOk = 0xF#4 → ∃ t, exec (.sliceFail k [i]) s = .next t ∧
      Noted { s with power := { s.power with clusters := t.power.clusters } } t ∧ others t ∧
      getCluster t k = { c with sliceOk := (getCluster t k).sliceOk, sliceFails := min 65535 (c.sliceFails + 1) } ∧
      ∀ n, n < 4 → (getCluster t k).sliceOk.getLsbD n = !decide (n = i)) ∧
    (∀ i n, i < n → n < 4 → c.state = 2 → c.sliceOk = 0xF#4 → ∃ t, exec (.sliceFail k [i, n]) s = .next t ∧
      (getCluster t k).state = 3 ∧ dark t) ∧
    (c.state = 2 → ∃ t, exec (.clusterShort k) s = .next t ∧ (getCluster t k).state = 4 ∧
      (getCluster t k).shorts = min 65535 (c.shorts + 1) ∧ dark t) ∧
    (c.state = 2 → ∃ t, exec (.crackSuspect k) s = .next t ∧
      Noted { s with power := { s.power with clusters := t.power.clusters }, box := { s.box with spares := t.box.spares } } t ∧
      others t ∧ getCluster t k = { c with crackEvents := min 3 (c.crackEvents + 1) }) ∧
    (∀ f i, f < 8 →
      let r := getRail s.power f
      let rail := fun (t : State) => ∀ g, g ≠ f → getRail t.power g = getRail s.power g
      (i < 24 → r.fieldOn = true → r.fieldPh = 0xFFFFFF#24 → ∃ t, exec (.railPhaseFail f false i) s = .next t ∧
        Noted { s with power := { s.power with rails := t.power.rails } } t ∧ rail t ∧
        getRail t.power f = { r with fieldPh := (getRail t.power f).fieldPh, fails := min 65535 (r.fails + 1) } ∧
        ∀ n, n < 24 → (getRail t.power f).fieldPh.getLsbD n = !decide (n = i)) ∧
      (i < 8 → r.meshOn = true → r.meshPh = 0xFF#8 → ∃ t, exec (.railPhaseFail f true i) s = .next t ∧
        Noted { s with power := { s.power with rails := t.power.rails } } t ∧ rail t ∧
        getRail t.power f = { r with meshPh := (getRail t.power f).meshPh, fails := min 65535 (r.fails + 1) } ∧
        ∀ n, n < 8 → (getRail t.power f).meshPh.getLsbD n = !decide (n = i)) ∧
      (i < 22 → r.fieldOn = true → r.fieldPh = 0x3FFFFF#24 → s.jobs = [] → f ∉ s.box.partsOut →
        (∀ x ∈ s.box.resets, x.part ≠ f) →
        ∃ t, exec (.railPhaseFail f false i) s = .next t ∧ (getRail t.power f).fieldOn = false ∧ rail t ∧
          (∀ x, x < 640 → clusterField x = f → (getCluster t x).state = 5 ∧ (getCluster t x).vout = 0) ∧
          ∃ x, t.box.resets = s.box.resets ++ [x] ∧ x.part = f ∧ x.begun = false))

/-- CORE_WAVE of an even row starts the clusters of that row whose slices pass at their targets, and that of an odd row turns them
on; CLUSTER_ESTIMATE gives the cluster its power and level and starts its cores' activity again from zero; DIE_ESTIMATE takes
the sum of the clusters' estimates and the counts since the last; the thermal divider steps up after a hot millisecond, and down
after ten cool ones; a reading keeps the hottest temperature; a cool-down ends below 95 degrees with the fences it set, and is
extended otherwise. -/
def Obligations.WavesEstimatesAndTemperatures : Prop :=
  ∀ (s : State),
    let fields := [0, 1, 2, 3, 4, 5, 6, 7]
    (∀ row, row < 20 → s.boot.phase = 5 → s.boot.wavesDone = row → (row = 0 → s.history.permanent = []) →
      ∃ t, exec (.coreWave row fields []) s = .next t ∧ t.boot = { s.boot with wavesDone := row + 1 } ∧ t.jobs = s.jobs ∧
        (row % 2 = 1 → t = { s with boot := t.boot, power := { s.power with clusters := t.power.clusters } } ∧
          ∀ k, k < 640 → getCluster t k = { getCluster s k with
            state := if k / 32 % 10 = row / 2 ∧ (getCluster s k).state = 1 then 2 else (getCluster s k).state }) ∧
        (row % 2 = 0 → ∀ k, k < 640 →
          let x := getCluster s k
          let hers := k / 32 % 10 = row / 2 ∧ (row = 0 ∨ (getRail s.power (clusterField k)).fieldOn = true) ∧
            ∀ i, i < 4 → sliceOut s k i = false
          (hers → getCluster t k = { x with state := 1, vout := max 550 (min 850 x.target), sliceOk := 0xF#4,
                                            sliceFails := min 65535 x.sliceFails }) ∧
          (k / 32 % 10 ≠ row / 2 → getCluster t k = x))) ∧
    (∀ k mv, k < 640 → estimating s k = true →
      let st := Config.staticTerm k (getCluster s k).vout (getCluster s k).temp
      let est := (clusterSites k).foldl (fun (n : Nat) x => n + activityFj s.power.pm (getCore s x).activity) 0 + st
      let out := est * s.power.pm.k / 0x4000
      ∃ t, exec (.clusterEstimate k mv) s = .next t ∧ t = { s with cores := t.cores, power := t.power, meter := t.meter } ∧
        t.power = { s.power with
          clusters := t.power.clusters, pm := { s.power.pm with clusterSum := s.power.pm.clusterSum + est } } ∧
        (∀ x, x < 640 → x ≠ k → getCluster t x = getCluster s x) ∧
        (getCluster t k).p10mw = min ((out + 10000000) / 20000000) 65535 ∧ (getCluster t k).level ≤ 63 ∧
        (∀ x ∈ clusterSites k, getCore t x = { getCore s x with activity := { cols := 0, slab := 0, vec := 0, xfer := 0 } }) ∧
        (∀ x, x ∉ clusterSites k → getCore t x = getCore s x)) ∧
    (∀ trunk host box, managerRuns s = true →
      ∃ t, exec (.dieEstimate trunk host box) s = .next t ∧
        t = { s with power := { s.power with pm := t.power.pm }, meter := t.meter
                     hbm := { s.hbm with grants := [] }, mesh := { s.mesh with flits := [] } } ∧
        t.power.pm.clusterSum = 0 ∧
        (let v := imageVals s
         t.power.pm.dieEst = (s.power.pm.clusterSum + countSum s.hbm.grants * v.wHbm + countSum s.mesh.flits * v.wFlit +
           (countSum trunk + countSum host + box) * v.wLink + v.wFixed) * s.power.pm.k / 0x4000)) ∧
    (let steps := fun (d n : Nat) (th : Therm) => ∃ t, exec .thermalDividerStep s = .next t ∧
       Reported { s with power := { s.power with pm := { s.power.pm with thermDiv := d }, therm := { th with throttles := n } } } t
     (s.power.therm.hotRuns ≥ 11 → s.power.pm.thermDiv ≠ 0 →
       steps (stepUp s.power.pm.thermDiv) (if stepUp s.power.pm.thermDiv = s.power.pm.thermDiv then s.power.therm.throttles
         else min 65535 (s.power.therm.throttles + 1)) { s.power.therm with hotRuns := 1 }) ∧
     (s.power.therm.hotRuns < 11 → s.power.therm.coolRuns ≥ 101 → s.power.pm.thermDiv ≠ 0 →
       let d := stepDown s.fuses.grade s.power.pm.thermDiv
       steps (if d ≤ s.fuses.grade.fastest then 0 else d) (min 65535 (s.power.therm.throttles + 1))
         { s.power.therm with coolRuns := 1 })) ∧
    (∀ k c x, k < 640 → managerRuns s = true → 0 < c → c < 100 → s.power.clusters = [(k, x)] →
      ∃ p, exec (.thermalReading [(k, c)]) s = .next { s with power := p } ∧
        p = { s.power with clusters := p.clusters, therm := { s.power.therm with
          maxC := c, hotCluster := k, hotRuns := 0, coolRuns := if c ≤ 97 then s.power.therm.coolRuns + 1 else 0
          sheds := min 65535 s.power.therm.sheds, throttles := s.power.therm.throttles } } ∧
        getCl p k = { x with temp := c, hot := false }) ∧
    (∀ k, k < 640 → (getCluster s k).thermState ≥ 2 →
      let x := getCluster s k
      ((getCluster s k).temp ≥ 95 → ∃ t, exec (.coolDownEnd k) s = .next t ∧
        t = { s with
          clock := { s.clock with time := max s.clock.time x.coolEnd % 2 ^ 64 }
          power := { s.power with clusters := t.power.clusters, therm := { s.power.therm with
            extensions := min 65535 (s.power.therm.extensions + 1) } } } ∧
        getCluster t k = { x with thermState := 3, coolEnd := x.coolEnd + 12000000000 } ∧
        ∀ y, y ≠ k → getCluster t y = getCluster s y) ∧
      ((getCluster s k).temp < 95 → s.jobs = [] → x.state = 2 → ∃ t, exec (.coolDownEnd k) s = .next t ∧
        getCluster t k = { x with thermState := 0, coolEnd := 0, hot := false } ∧
        (∀ y ∈ clusterSites k, y ∉ s.box.kiln → permanentSite s y = false → (getCore t y).fenced = false ∧
          (getPort t.mesh y).closed = false) ∧
        (∀ y, y ∉ clusterSites k → getCore t y = getCore s y ∧ getPort t.mesh y = getPort s.mesh y)))

/-! ### The meter -/

/-- Energy is apportioned exactly: the shares of a total by weights that are not all zero add up to the total, each within one unit
of its exact share; and the end of a period that reserves no HOUSE record adds the energy that the samples measure, once, to the
accounts of the house, the steps and the handled requests, and moves the time counter to the period's end. The first reserved
record whose energies are settled is written, with the chain's hash, to both copies of its slot that the signal box reaches; the
ledger's values go to flash as no last record; LEDGER_READ sets the read index, and NEAR_FULL follows with its hysteresis. The
signature of a ledger entry is a free value (assumption 9); that a record's energies are settled by a command of the meter is
the model's choice (assumption 40). -/
def Obligations.EnergyAndLedger : Prop :=
  ((∀ (m : Nat) (ws : List Nat), ws.sum ≠ 0 → (apportion m ws).length = ws.length ∧ (apportion m ws).sum = m ∧
     ∀ i, i < ws.length → m * ws.getD i 0 / ws.sum ≤ (apportion m ws).getD i 0 ∧
       (apportion m ws).getD i 0 ≤ m * ws.getD i 0 / ws.sum + 1) ∧
   (∀ (xs : List (FeedSample × FeedSample)) (s : State), s.clock.locked = true →
     (∀ h ∈ s.meter.hands, h.settled = false → h.uj = 0) →
     let m := measuredUj (imageVals s).conv xs
     let stop := (s.clock.time / 400000 + 1) * 400000
     let total := fun (k : Meter) => k.houseUj.sum + (k.steps.map fun x => x.uj.sum).sum + (k.hands.map fun h => h.uj).sum
     (stop % 400000000 ≠ 0 ∨ isReady s.boot = false) →
     ∃ t, exec (.meterPeriodEnd xs) s = .next t ∧
       t = { s with
         clock := { s.clock with time := stop % 2 ^ 64 }
         power := { s.power with feeds := { s.power.feeds with usedB := s.power.feeds.onB } }, meter := t.meter } ∧
       t.meter = { s.meter with
         mUj := m % 2 ^ 32, totalUj := min (2 ^ 64 - 1) (s.meter.totalUj + m), house := Cats.zero, devPpm := t.meter.devPpm
         houseUj := t.meter.houseUj, houseDev := t.meter.houseDev, houseFlags := t.meter.houseFlags, steps := t.meter.steps
         hands := t.meter.hands } ∧
       total t.meter = total s.meter + m ∧ (∀ x ∈ t.meter.steps, x.est = Cats.zero ∧ x.settled = !x.running) ∧
       (∀ h ∈ t.meter.hands, h.settled = true)) ∧
   (∀ (xs : List (FeedSample × FeedSample)) (s : State), s.clock.locked = false → exec (.meterPeriodEnd xs) s = .next s)) ∧
  (∀ (s : State), isReady s.boot = true →
     (∀ r rest, s.meter.resv = r :: rest → resvReady s.meter r = true → r.backstamp.length ≤ 32 →
       s.meter.prevHash.length = 48 →
       let b := recordBytes s.meter r
       let a := ledgerAddrs r.index
       UnitReaches s (boxUnit s) (addrPart a.1) → UnitReaches s (boxUnit s) (addrPart a.2) →
       ∃ t, exec .waybillWrite s = .next t ∧
         Noted { s with meter := t.meter, hbm := { s.hbm with words := t.hbm.words, grants := t.hbm.grants, events := [] } } t ∧
         t.meter = { s.meter with
           resv := rest, written := (r.index + 1) % 2 ^ 40, prevSeq := seqOf s.meter r.index, prevHash := sha384 b
           overwritten := t.meter.overwritten, hands := s.meter.hands.filter fun h => !decide (h.ticket = r.ticket)
           steps := t.meter.steps, nearFull := t.meter.nearFull, signHold := t.meter.signHold, signHolds := t.meter.signHolds } ∧
         b.length = 256 ∧
         ∀ x, smGet 0#72 t.hbm.words x =
           (if a.1 / 8 ≤ x ∧ x < a.1 / 8 + 32 then bytesWord b (x - a.1 / 8)
           else if a.2 / 8 ≤ x ∧ x < a.2 / 8 + 32 then bytesWord b (x - a.2 / 8)
           else smGet 0#72 s.hbm.words x)) ∧
     (exec .ledgerFlashUpdate s = .next { s with meter := { s.meter with
       flash := { epoch := s.meter.epoch, seq := s.meter.prevSeq, hash := s.meter.prevHash, last := false } } }) ∧
     (∀ i, i < 2 ^ 40 → ∃ k, exec (.ledgerReadWrite i) s = .next { s with meter := k } ∧
       k = { s.meter with readIdx := i, nearFull := k.nearFull, signHold := k.signHold, signHolds := k.signHolds } ∧
       k.nearFull = (if s.meter.nearFull then decide (s.meter.written - i > 2097152) else decide (s.meter.written - i > 3145728)) ∧
       k.signHold = (if s.meter.signHold then decide (s.meter.reserved - s.meter.written > 61440)
         else decide (s.meter.reserved - s.meter.written ≥ 65536))))

/-! ### Host ports -/

/-- A doorbell that stands accepts its entries in order, each with the ticket of its queue and its sequence number; any other is
refused whole and counted. BAR2 writes reach both copies of an entry and change no other word. A QDESC write restarts SEQ with
EN, and is ignored where it would change the port or job of an enabled queue or enable one with requests outstanding. No core,
no job and no other queue changes. A control-queue doorbell of a READY module accepts the entries from HEAD to the new tail, in
order, when each is well formed, and completes one that is not with FORMAT_REJECTED; a queue that is off takes none. EN from 0
to 1 restarts HEAD and the sequence of a control queue; the same of a completion ring sets TAIL to HEAD and PHASE to 1, and EN
to 0 drops what is held. -/
def Obligations.HostQueues : Prop :=
  (∀ (port : Nat) (s : State), port < 2 →
     (∀ v : W64, let q := getField v 44 20
       let n := getField v 0 5
       let x := getQ s.queues q
       (isReady s.boot = true → doorbellOk s.queues q n = true →
         ∃ t, exec (.doorbell port v) s = .next t ∧
           Noted { s with
             queues := t.queues, box := { s.box with subs := t.box.subs, acc := s.box.acc + n }
             meter := { s.meter with hands := t.meter.hands }, hbm := t.hbm, mesh := { s.mesh with fields := t.mesh.fields } } t ∧
           (∀ k, getQ t.queues k = if k = q then
             { x with outstanding := x.outstanding + n, seq := (x.seq + n) % 2 ^ 32 } else getQ s.queues k) ∧
           t.box.subs.map (fun e => (e.ticket, e.queue, e.job, e.ring)) =
             s.box.subs.map (fun e => (e.ticket, e.queue, e.job, e.ring)) ++ (List.range n).map (fun i =>
               (q * 2 ^ 44 + (x.seq + i) % 2 ^ 32 * 2 ^ 12 + port * 2 ^ 8, q, x.job, x.cring)) ∧
           t.meter.hands.map (·.ticket) = s.meter.hands.map (·.ticket) ++ (List.range n).map (fun i =>
               q * 2 ^ 44 + (x.seq + i) % 2 ^ 32 * 2 ^ 12 + port * 2 ^ 8) ∧
           t.queues.refused = s.queues.refused ∧ t.queues.dropped = s.queues.dropped) ∧
       ((isReady s.boot && doorbellOk s.queues q n) = false →
         exec (.doorbell port v) s =
           .next { s with queues := { s.queues with refused := min 0xFFFFFFFF (s.queues.refused + 1) } })) ∧
     (∀ o b, isReady s.boot = true → o < 2 ^ 30 → o % 64 = 0 → b.length = 64 →
       let a := entryAddrs (o / 1024) 0
       let w1 := (a.1 + o % 1024) / 8
       let w2 := (a.2 + o % 1024) / 8
       UnitReaches s (.host port) (addrPart a.1) → UnitReaches s (.host port) (addrPart a.2) →
       ∃ t, exec (.queueEntryWrite port o b) s = .next t ∧
         Noted { s with hbm := { s.hbm with words := t.hbm.words, grants := t.hbm.grants, events := [] } } t ∧
         ∀ x, smGet 0#72 t.hbm.words x =
           (if w1 ≤ x ∧ x < w1 + 8 then bytesWord b (x - w1)
           else if w2 ≤ x ∧ x < w2 + 8 then bytesWord b (x - w2) else smGet 0#72 s.hbm.words x)) ∧
     (∀ o b, isReady s.boot = false → exec (.queueEntryWrite port o b) s = .next s) ∧
     (∀ v : W64, let q := (getHost s port).qsel
       let x := getQ s.queues q
       let en := decide (v.toNat / 2 ^ 63 % 2 = 1)
       let new := { x with port := v.toNat / 2 ^ 62 % 2, job := v.toNat / 2 ^ 49 % 32, cring := v.toNat / 2 ^ 54 % 256 }
       let same := v.toNat / 2 ^ 62 % 2 = x.port ∧ v.toNat / 2 ^ 49 % 32 = x.job
       ∃ t, exec (.qdescWrite port v) s = .next t ∧ t = { s with queues := { s.queues with states := t.queues.states } } ∧
         (∀ k, k ≠ q → getQ t.queues k = getQ s.queues k) ∧
         ((x.en = true ∧ ¬ same) ∨ (x.en = false ∧ en = true ∧ x.outstanding ≠ 0) → getQ t.queues q = x) ∧
         (x.en = true → same → getQ t.queues q = { x with en := en, cring := v.toNat / 2 ^ 54 % 256 }) ∧
         (x.en = false → en = false → getQ t.queues q = new) ∧
         (x.en = false → en = true → x.outstanding = 0 → getQ t.queues q = { new with en := true, seq := 0 }))) ∧
  (∀ (port k : Nat) (s : State), port < 2 →
     (∀ (v : W32) (l : List HostBuf), isReady s.boot = true → getField v 26 6 = k → (getCq (getHost s port) k).en = true →
       let g := getCq (getHost s port) k
       l.length = cqCount g (getField v 0 16) → g.head < 2 ^ g.log2n →
       ((∀ b ∈ l, b.bytes.length = 64 ∧ b.failed = [] ∧ ctlDescOk b.bytes = true ∧
           (dfield b.bytes 0 1 = 1 ∨ dfield b.bytes 0 1 = 6 ∨ (liveJob s (dfield b.bytes 2 1)).isSome = true)) →
         ∃ t, exec (.cqDoorbell port v l) s = .next t ∧
           t = { s with
             hosts := t.hosts, out := t.out, box := { s.box with accepted := t.box.accepted } } ∧
           getHost t port = setCq (getHost s port) k (getCq (getHost t port) k) ∧
           (getCq (getHost t port) k).head = getField v 0 16 % 2 ^ g.log2n ∧
           (getCq (getHost t port) k).seq % 2 ^ 32 = (g.seq + l.length) % 2 ^ 32 ∧
           t.box.accepted.map (fun c => (c.desc, c.ring, c.ticket)) = s.box.accepted.map (fun c => (c.desc, c.ring, c.ticket)) ++
             l.zipIdx.map (fun b => (b.1.bytes, g.cring, mkTicket k (g.seq + b.2) (14 + port)))) ∧
       (∀ b, l = [b] → b.bytes.length = 64 → b.failed = [] → ctlDescOk b.bytes = false →
         ∃ t f, exec (.cqDoorbell port v l) s = .next t ∧ t.box.finished = s.box.finished ++ [f] ∧ f.status = 5 ∧ f.port = port ∧
           f.ring = g.cring ∧ f.ticket = mkTicket k g.seq (14 + port) ∧ t.box.accepted = s.box.accepted ∧ t.cores = s.cores ∧
           t.jobs = s.jobs)) ∧
     (∀ (v : W32) (l : List HostBuf), getField v 26 6 = k → isReady s.boot = false ∨ (getCq (getHost s port) k).en = false →
       exec (.cqDoorbell port v l) s = .next s) ∧
     (∀ v : W64, k < 64 →
       let g := getCq (getHost s port) k
       let on := v.toNat / 2 ^ 63 % 2 = 1
       exec (.cqEnableWrite port k v) s = .next (putHost port (setCq (getHost s port) k { g with
         log2n := max 4 (min 12 (v.toNat / 2 ^ 54 % 32)), cring := v.toNat / 2 ^ 46 % 256, en := decide on
         head := if on ∧ g.en = false then 0 else g.head, seq := if on ∧ g.en = false then 0 else g.seq }) s)) ∧
     (∀ v : W64, k < 256 →
       let g := getRing (getHost s port) k
       (g.en = false → v.toNat / 2 ^ 63 % 2 = 1 → g.sinceMark = 0 →
         ∃ c, exec (.cringEnableWrite port k v) s = .next (putHost port (setRing (getHost s port) k c) s) ∧
           c = { g with
             en := true, tail := g.head % 2 ^ c.log2n, phase := true, unsig := 0, log2n := max 6 (min 16 (v.toNat / 2 ^ 54 % 32))
             vector := v.toNat / 2 ^ 43 % 2048, coalUs := v.toNat / 2 ^ 16 % 65536, coalN := v.toNat % 65536 }) ∧
       (v.toNat / 2 ^ 63 % 2 = 0 → ∃ t, exec (.cringEnableWrite port k v) s = .next t ∧
         (getRing (getHost t port) k).en = false ∧ (getRing (getHost t port) k).held = [] ∧
         t = { s with hosts := t.hosts, queues := t.queues, meter := t.meter } ∧
         (g.held = [] → t = { s with hosts := t.hosts }))))

/-- A finished completion is written to its ring at TAIL, which moves on, PHASE turning at the wrap, and frees its queue entry; a
full ring holds it, and a ring that is off drops and counts it. A write to HEAD posts what is held. The coalescing timer signals
what has not been signalled. -/
def Obligations.CompletionRings : Prop :=
  ∀ (port r : Nat) (s : State), port < 2 → r < 256 →
    let g := getRing (getHost s port) r
    (∀ c rest, s.box.finished = c :: rest → c.port = port → c.ring = r → g.held = [] → g.sinceMark = 0 → c.record = none →
      ∃ t, exec (.completionPost port r) s = .next t ∧
        t = { s with box := { s.box with finished := rest }, hosts := t.hosts, queues := t.queues, out := t.out } ∧
        (g.en = true → ringFull g = false →
          (getRing (getHost t port) r).tail = (g.tail % 2 ^ g.log2n + 1) % 2 ^ g.log2n ∧
          (getRing (getHost t port) r).phase = (if (g.tail % 2 ^ g.log2n + 1) % 2 ^ g.log2n = 0 then !g.phase else g.phase) ∧
          (∃ l, t.out = s.out ++ .hostWrite port (g.base + 64 * (g.tail % 2 ^ g.log2n)) (compBytes c g.phase noWaybill) :: l) ∧
          (∀ q, c.queue = some q → (getQ t.queues q).outstanding = (getQ s.queues q).outstanding - 1)) ∧
        (g.en = true → ringFull g = true → (getRing (getHost t port) r).held = [c] ∧ t.out = s.out ∧ t.queues = s.queues) ∧
        (g.en = false → (getRing (getHost t port) r).dropped = min 0xFFFFFFFF (g.dropped + 1) ∧ t.out = s.out ∧
          t.queues.dropped = min 0xFFFFFFFF (s.queues.dropped + 1))) ∧
    (∀ v : W64, g.sinceMark = 0 →
      let h := getField v 0 16 % 2 ^ g.log2n
      (g.held = [] → exec (.cringHeadWrite port r v) s =
        .next (putHost port (setRing (getHost s port) r { g with head := h }) s)) ∧
      (∀ c, g.held = [c] → c.port = port → c.ring = r → c.record = none → c.queue = none → g.en = true →
        ringFull { g with head := h } = false →
        ∃ t l, exec (.cringHeadWrite port r v) s = .next t ∧ t = { s with hosts := t.hosts, out := t.out } ∧
          (getRing (getHost t port) r).held = [] ∧ (getRing (getHost t port) r).head = h ∧
          t.out = s.out ++ .hostWrite port (g.base + 64 * (g.tail % 2 ^ g.log2n)) (compBytes c g.phase noWaybill) :: l)) ∧
    (g.unsig > 0 → g.coalUs > 0 →
      ∃ t, exec (.coalesceTimer port r) s = .next t ∧ (getRing (getHost t port) r).unsig = 0 ∧
        (let e := smGet MsixEnt.reset (getHost s port).msix g.vector
         if e.mask then t.out = s.out ∧ smGet false (getHost t port).pending g.vector = true
         else t.out = s.out ++ [.msix port g.vector e.addr e.data]) ∧
        t = { s with hosts := t.hosts, out := t.out }) ∧
    (g.unsig = 0 ∨ g.coalUs = 0 → exec (.coalesceTimer port r) s = .next s)

/-- PERST_N and the link: a PERST_N asserted for 1 microsecond and a link that goes down take a present port away, with its rings
and control queues off, and so does D3hot; a shorter pulse does nothing; a deasserted PERST_N alone brings no link; a link comes
up in a module that may train it; configuration requests are retried until 100 ms have passed and the image is read. -/
def Obligations.HostPortsComeAndGo : Prop :=
  ∀ (port : Nat) (s : State), port < 2 →
    let h := getHost s port
    let away := fun (t : State) => (getHost t port).gone = min 65535 (h.gone + 1) ∧
      ∀ r, (getRing (getHost t port) r).en = false ∧ (getCq (getHost t port) r).en = false
    let frame := fun (t : State) => t = { s with hosts := t.hosts, queues := t.queues, meter := t.meter, out := t.out }
    let off := fun (t : State) => frame t ∧ (getHost t port).linkUp = false ∧ (portPresent h = true → away t) ∧
      (portPresent h = false → (getHost t port).gone = h.gone ∧ t = { s with hosts := t.hosts })
    (∀ ns, 1000 ≤ ns → ∃ t, exec (.perstAssert { port := port, ns := ns }) s = .next t ∧ off t ∧ (getHost t port).perst = true) ∧
    (∀ ns, ns < 1000 → exec (.perstAssert { port := port, ns := ns }) s = .next s) ∧
    (∃ t, exec (.hostLinkDown port) s = .next t ∧ off t ∧ (getHost t port).perst = h.perst) ∧
    exec (.perstDeassert port) s = .next (putHost port { h with perst := false, waited := false } s) ∧
    (∀ rate width flit, mayLink s port = true → portPresent h = false →
      exec (.hostLinkUp port rate width flit) s = .next (putHost port { h with linkUp := true, rate := rate, width := width, flit := flit } s)) ∧
    (∀ rate width flit, mayLink s port = false → exec (.hostLinkUp port rate width flit) s = .next s) ∧
    (∀ w hot, h.linkUp = true → h.perst = false →
      let ok := (h.waited || w) && imageRead s.boot
      let answer := OutMsg.config port (!ok) (if ok then 0x120000 * 2 ^ 32 + (imageVals s).pcieId % 2 ^ 32 else 0)
      (ok = false ∨ hot ≠ some true ∨ h.d0 = false → exec (.configRequest port { waited := w, hot := hot }) s = .next { putHost port { h with
        waited := h.waited || w, d0 := if ok = true ∧ hot ≠ none then !(hot.getD false) else h.d0 } s with out := s.out ++ [answer] }) ∧
      (ok = true → hot = some true → h.d0 = true → ∃ t, exec (.configRequest port { waited := w, hot := hot }) s = .next t ∧ frame t ∧ away t ∧
        (getHost t port).d0 = false ∧ t.out = s.out ++ [answer])) ∧
    (∀ w hot, h.linkUp = false ∨ h.perst = true → exec (.configRequest port { waited := w, hot := hot }) s = .next s)

/-! ### Jobs -/

/-- On one module, ADMIT_JOB of a package that keeps its limits places the job, maps and clears its pages, fences what has become
permanent where no job holds it, and loads its cores, IDLE with zeroed slabs; a package that does not keep them, or a read that
fails, is FORMAT_REJECTED, and without room it ends with NO_CAPACITY. RETIRE_JOB of a job that runs no step fails its requests
and releases its cores, pages and queues; one of a job that runs a step waits for its stop. QUERY writes LEN bytes to the host,
for the record that it names. Nothing else changes. The content of the bytes that QUERY writes is a free value (assumption 12). -/
def Obligations.JobsComeAndGo : Prop :=
  ∀ (ticket : Nat) (b : HostBuf) (s s1 : State) (c : CtlCmd), c.origin ≥ 14 →
    let n := dfield c.desc 4 4
    let ends := fun (st res : Nat) (t : State) => ∃ f, t.box.finished = s.box.finished ++ [f] ∧ CmdDone c st res f
    let only := fun (st : Nat) (t : State) => ends st 0 t ∧ t = { s1 with box := { s1.box with finished := t.box.finished } }
    (takeCmd s 1 ticket = some (c, s1) →
      (cmdPortOk s c = false → ∃ t, exec (.admitJob ticket b) s = .next t ∧ only 4 t) ∧
      (cmdPortOk s c = true → (fillRead n b).2 ≠ [] → ∃ t, exec (.admitJob ticket b) s = .next t ∧ ends 5 0 t ∧
        Noted { s1 with box := { s1.box with finished := t.box.finished } } t ∧
        t.errlog.poisonedIn = min 65535 (s.errlog.poisonedIn + 1)) ∧
      (cmdPortOk s c = true → (fillRead n b).2 = [] → parseAdmit c.desc (fillRead n b).1 s.fuses.moduleId true = none →
        ∃ t, exec (.admitJob ticket b) s = .next t ∧ only 5 t) ∧
      (∀ a, cmdPortOk s c = true → (fillRead n b).2 = [] →
        parseAdmit c.desc (fillRead n b).1 s.fuses.moduleId true = some a → a.members = [] → a.pkg.modules ≤ 1 →
        dfield c.desc 1 1 % 2 = 0 →
        (freeId s = none ∨ choosePlace (usable s) (heldPlaces s) a.pkg.vw a.pkg.vh none = none →
          ∃ t, exec (.admitJob ticket b) s = .next t ∧ only 6 t) ∧
        (∀ id p, freeId s = some id → choosePlace (usable s) (heldPlaces s) a.pkg.vw a.pkg.vh none = some p →
          let map := mapPages s.hbm (savePages s) id (dfield c.desc 0x2C 4) (pageParts s) (placeFields p)
          (map = none → ∃ t, exec (.admitJob ticket b) s = .next t ∧ only 6 t) ∧
          ∀ h, map = some h →
            ∃ t j, exec (.admitJob ticket b) s = .next t ∧ ends 0 id t ∧
              t = { s1 with
                jobs := t.jobs, cores := t.cores, hbm := zeroJobPages h id, mesh := t.mesh, clock := t.clock
                box := { s1.box with finished := t.box.finished, kiln := t.box.kiln, spares := t.box.spares } } ∧
              (duePermanent s = [] → t.mesh = s.mesh ∧ t.clock = s.clock ∧ t.box.kiln = s.box.kiln) ∧
              (∀ x ∈ duePermanent s, x ∈ t.box.kiln ∧ (getPort t.mesh x).closed = true) ∧
              getJob t id = some j ∧ (∀ i, i ≠ id → getJob t i = getJob s i) ∧
              j.pkg = a.pkg ∧ j.place = some p ∧ j.table = placeTable (usable s) p a.pkg.vw a.pkg.vh ∧ j.st = 1 ∧ j.steps = 0 ∧
              j.stopCount = 0 ∧ j.dispatched = false ∧ j.atStop = none ∧ j.ready = [] ∧ j.sel = [] ∧
              j.seed = BitVec.ofNat 64 (dfield c.desc 0x18 8) ∧ j.inRow = dfield c.desc 0x24 4 ∧ j.outRow = dfield c.desc 0x28 4 ∧
              j.gatherUs = dfield c.desc 0x20 4 ∧ j.pkgDigest = packageDigest a.pkgBytes a.exBytes ∧
              j.wtDigest = List.replicate 32 0#8 ∧
              (∀ e ∈ j.table, let k := getCore t e.site
                k.stream.state = .idle ∧ k.stream.icount = 0 ∧ k.stream.stopCount = 0 ∧ k.stream.fault = none ∧ k.queue = [] ∧
                k.started = [] ∧ k.slab.words = [] ∧ k.slab.off = 0#36 ∧ k.seed = j.seed ∧ k.place.job = id ∧
                k.place.site = e.site ∧ k.place.placed = true ∧ k.place.table = j.table ∧ k.place.arenaBase = a.pkg.arenaVa ∧
                k.slab.spare = (getCore s e.site).slab.spare ∧ k.slab.ce = (getCore s e.site).slab.ce ∧
                k.slab.ue = (getCore s e.site).slab.ue) ∧
              ∀ k, (∀ e ∈ j.table, e.site ≠ k) → getCore t k =
                (if k ∈ duePermanent s then { getCore s k with fenced := true } else getCore s k)))) ∧
    (takeCmd s 5 ticket = some (c, s1) → cmdJob s c = none → ∃ t, exec (.retireJob ticket) s = .next t ∧ only 5 t) ∧
    (∀ j, takeCmd s 5 ticket = some (c, s1) → cmdJob s c = some j → treeSize j ≤ 1 → j.waits = [] →
      (j.st = 2 ∨ (jobRuns j = true ∧ j.dispatched = true ∧ j.atStop = none) → ∃ t, exec (.retireJob ticket) s = .next t ∧
        t = { s1 with jobs := t.jobs } ∧ getJob t j.id = some { j with retire := j.retire ++ [c] } ∧
        ∀ i, i ≠ j.id → getJob t i = getJob s i) ∧
      ((∀ x ∈ s.jobs, treeSize x ≤ 1 ∧ (x.id ≠ j.id → x.devSave = none)) →
        j.st ≠ 2 → j.dispatched = false → j.loading = false → j.saves = [] → j.retire = [] →
        ∃ t u, exec (.retireJob ticket) s = .next t ∧ Reported u t ∧
          Noted { s1 with
            cores := t.cores, jobs := u.jobs, hbm := unmapPages s.hbm j.id, queues := t.queues, meter := t.meter
            box := { s1.box with finished := t.box.finished, spares := t.box.spares
                                 suspects := s.box.suspects.filter (fun x => !decide (x = j.id)), replaying := t.box.replaying } } u ∧
          getJob t j.id = none ∧ (∀ i, i ≠ j.id → getJob t i = getJob s i) ∧
          t.box.finished.map (fun f => (f.ticket, f.status)) =
            s.box.finished.map (fun f => (f.ticket, f.status)) ++ (ownReqs j).map (fun r => (r.ticket, 3)) ++ [(c.ticket, 0)] ∧
          (∀ k ∈ jobSites j, let x := getCore t k
            x.place = { (getCore s k).place with placed := false } ∧ x.stream.state = .idle ∧ x.queue = [] ∧ x.started = [] ∧
            x.slab.words = (getCore s k).slab.words ∧ x.slab.rising = (getCore s k).slab.off ∧ x.aregs = (getCore s k).aregs) ∧
          (∀ k, k ∉ jobSites j → getCore t k = getCore s k) ∧
          jobRun t.hbm j.id = none ∧ (∀ i ∈ runEntries s.hbm j.id, pageEntry t.hbm i = 0#64) ∧
          (∀ i, i ∉ runEntries s.hbm j.id → pageEntry t.hbm i = pageEntry s.hbm i) ∧
          ∀ q, (getQ t.queues q).en = ((getQ s.queues q).en && !decide ((getQ s.queues q).job = j.id)))) ∧
    (takeCmd s 6 ticket = some (c, s1) →
      (cmdPortOk s c = false → ∃ t, exec (.query ticket) s = .next t ∧ only 4 t) ∧
      (cmdPortOk s c = true → ∃ t l r, exec (.query ticket) s = .next t ∧ ends 0 0 t ∧ l.length = n ∧
        t = { s1 with
          box := { s1.box with finished := t.box.finished }, free := s.free + n
          out := s.out ++ [.hostWrite (c.origin - 14) (dfield c.desc 8 8) l, .query r] } ∧
        (let i := dfield c.desc 0x1C 4
         (dfield c.desc 0x18 1 = 0 → r = .module s.fuses.grade.code s.clock.div ((s.jobs.filter jobAdmitted).length) (spareCount s)
            ((List.range 128).map fun k => columnSpares (usable s) (k / 16) (k % 16))) ∧
         (∀ j, dfield c.desc 0x18 1 = 1 → getJob s i = some j →
            r = .job i j.st j.stopCount (j.place.map fun p => (p.shared, p.field, p.c0))) ∧
         (dfield c.desc 0x18 1 = 1 → getJob s i = none → r = .job i 0 0 none) ∧
         (dfield c.desc 0x18 1 = 2 → r = .queue i (readQdesc s.queues i)))))

/-- On one module, LOAD_WEIGHTS stores its bytes in the job's pages, FREEZE clearing W, and takes them into the weight-set digest;
one that fails the checks writes nothing, and one that changes page-map entries waits while its job runs between stops. SAVE
waits for its stop, HALT halting the cores there, and is FORMAT_REJECTED with the 4-KiB units it needs where LEN is too small;
at its stop SAVE_AT_STOP writes the save, or with HALT the dump. RESUME accepts a save of this job, and RESUME_RESTORE brings it
back: every core ARRIVED at the saved stop, every page record in the job's pages. Nothing else changes. -/
def Obligations.WeightsSavesAndResumes : Prop :=
  (∀ (u : SideUnit) (j v a : Nat) (l : List Byte) (s : State), v % 8 = 0 → l.length % 8 = 0 → v % 0x400000 + l.length ≤ 0x400000 →
    hbmTranslate s.hbm j v = some a → UnitReaches s u (addrPart a) →
    let w := a / 8
    let n := l.length / 8
    let d := fun (x : Nat) => hbmDecode (smGet 0#72 s.hbm.words x)
    let t := unitWrite u j v l [] s
    Noted { s with hbm := { s.hbm with words := t.hbm.words, chans := t.hbm.chans, stks := t.hbm.stks, grants := t.hbm.grants, events := t.hbm.events } } t ∧
    ∀ x, smGet 0#72 t.hbm.words x =
      (if w ≤ x ∧ x < w + n then bytesWord l (x - w)
      else if 1 ≤ n ∧ w / 4 ≤ x / 4 ∧ x / 4 ≤ (w + n - 1) / 4 then hbmStored (d x).data (d x).crazed
      else smGet 0#72 s.hbm.words x)) ∧
  (∀ (ticket : Nat) (b : HostBuf) (s s1 : State) (c : CtlCmd) (j : Job), c.origin ≥ 14 → cmdPortOk s c = true → treeSize j ≤ 1 →
    j.waits = [] →
    let n := dfield c.desc 4 4
    let port := c.origin - 14
    let ends := fun (st res : Nat) (t : State) => ∃ f, t.box.finished = s.box.finished ++ [f] ∧ CmdDone c st res f
    let only := fun (st res : Nat) (t : State) => ends st res t ∧
      t = { s1 with box := { s1.box with finished := t.box.finished, rejected := t.box.rejected } }
    let job := fun (t : State) (j' : Job) => getJob t j.id = some j' ∧ ∀ i, i ≠ j.id → getJob t i = getJob s i
    (takeCmd s 2 ticket = some (c, s1) → cmdJob s c = some j →
      let v := dfield c.desc 0x18 8
      let fl := dfield c.desc 1 1
      let l := (fillRead n b).1
      (mapFixed j = true → changesMap s.hbm j c = true → exec (.loadWeights ticket b) s = .next s) ∧
      (mapFixed j = false ∨ changesMap s.hbm j c = false →
        (loadOk s.hbm j.id v n = false ∨ (fl % 2 = 1 ∧ touchesArena j.pkg v n = true) →
          ∃ t, exec (.loadWeights ticket b) s = .next t ∧ only 5 0 t) ∧
        (loadOk s.hbm j.id v n = true → (fl % 2 = 1 → touchesArena j.pkg v n = false) → (fillRead n b).2 = [] →
          ∃ t f, exec (.loadWeights ticket b) s = .next t ∧ t.box.finished = s.box.finished ++ [f] ∧ CmdDone c 0 0 f ∧
            f.backstamp = nextWtDigest j.wtDigest v n fl l [] ∧ job t { j with wtDigest := nextWtDigest j.wtDigest v n fl l [] } ∧
            (let q := unitWrite (.host port) j.id v l [] s
             Noted { s1 with
                jobs := t.jobs, hbm := { q.hbm with entries := t.hbm.entries }, mesh := q.mesh
                box := { s1.box with finished := t.box.finished } } t) ∧
            ∀ i, pageEntry t.hbm i =
              (let e := pageEntry s.hbm i
               let e1 := if i ∈ pageEntries s.hbm j.id (pagesCovered v n) then setField e 62 1 0 else e
               if fl % 2 = 1 ∧ i ∈ pageEntries s.hbm j.id (pagesTouched v n) then setField e1 61 1 0 else e1)))) ∧
    (takeCmd s 3 ticket = some (c, s1) → cmdJob s c = some j → dfield c.desc 0 1 = 3 →
      let halt := decide (dfield c.desc 1 1 % 2 = 1)
      let stop := dfield c.desc 0x18 4
      let k := if stop ≠ 0 then stop else (j.atStop.map (·.k)).getD (j.stopCount + 1)
      let waits := fun (w : SaveReq) (t : State) => job t { j with saves := j.saves ++ [w] } ∧
        Noted { s1 with jobs := t.jobs, cores := t.cores } t
      (j.st = 2 ∨ (j.st = 3 ∧ j.place.isSome = true) → ∃ t, exec (.save ticket) s = .next t ∧
        waits { cmd := c, stop := stop, halt := halt } t ∧ t.cores = s.cores) ∧
      (j.st ≠ 2 → ¬ (j.st = 3 ∧ j.place.isSome = true) →
        (j.place.isNone = true ∨ j.st = 4 ∨ j.st = 6 ∨ (stop ≠ 0 ∧ stop < j.stopCount) → ∃ t, exec (.save ticket) s = .next t ∧
          only 5 0 t ∧ t.box.rejected = min 65535 (s.box.rejected + 1)) ∧
        (j.place.isSome = true → j.st ≠ 4 → j.st ≠ 6 → (stop = 0 ∨ j.stopCount ≤ stop) →
          (n < saveNeeds s j halt → ∃ t, exec (.save ticket) s = .next t ∧ only 5 ((saveNeeds s j halt + 4095) / 4096) t ∧
            t.box.rejected = min 65535 (s.box.rejected + 1)) ∧
          (saveNeeds s j halt ≤ n → ∃ t, exec (.save ticket) s = .next t ∧ waits { cmd := c, stop := k, halt := halt } t ∧
            (halt = false → t.cores = s.cores) ∧
            (∀ x ∈ jobSites j, halt = true → getCore t x = { getCore s x with
              events := [], stream := { (getCore s x).stream with
                haltEn := true, haltAt := k
                state := if (getCore s x).stream.state = .arrived ∧ (getCore s x).stream.stopCount = k then .halted
                  else (getCore s x).stream.state } }) ∧
            ∀ x, x ∉ jobSites j → getCore t x = getCore s x)))) ∧
    (∀ a, getJob s j.id = some j → j.id < 32 → jobRuns j = true → j.atStop = some a → a.final = true → a.outDone = true →
      a.released = true → exchDone j a = true → j.shed = [] → j.retire = [] →
      (j.saves = [{ cmd := c, stop := a.k, halt := true }] → ∃ t, exec (.saveAtStop j.id) s = .next t ∧ ends 0 0 t ∧
        job t { j with saves := [], halted := true } ∧
        t = { s with
          jobs := t.jobs, box := { s.box with finished := t.box.finished }
          out := s.out ++ [.hostWrite port (dfield c.desc 8 8)
            (dumpBytes 0 0 0xFF s.clock.time [j.id] [] ((jobSites j).map fun x => dumpRecord (getCore s x)))] }) ∧
      (j.saves = [{ cmd := c, stop := a.k, halt := false }] →
        (n < saveNeeds s j false → ∃ t, exec (.saveAtStop j.id) s = .next t ∧ ends 5 ((saveNeeds s j false + 4095) / 4096) t ∧
          job t { j with saves := [] } ∧
          t = { s with jobs := t.jobs, box := { s.box with finished := t.box.finished, rejected := t.box.rejected } }) ∧
        (saveNeeds s j false ≤ n →
          let r := saveBytes (.host port) j a.k s
          let ck : Ckpt := { stop := a.k, ordinal := a.ordinal, steps := j.steps, tick := s.clock.time, haddr := dfield c.desc 8 8,
                             len := n, port := port }
          ∃ t z, exec (.saveAtStop j.id) s = .next t ∧ ends 0 0 t ∧ r.1 = z ++ sha256 z ∧
            (∃ y, z = saveHeader j false a.k (recordPages s j).length s.clock.time ++ selBytes j.sel ++ y) ∧
            t = { r.2 with
              jobs := t.jobs, out := r.2.out ++ [.hostWrite port (dfield c.desc 8 8) r.1]
              box := { s.box with finished := t.box.finished, saves := min 65535 (s.box.saves + 1) } } ∧
            t.hbm.words = s.hbm.words ∧
            (∀ x, getCore t x = { getCore s x with
              slab := { (getCore s x).slab with
                ce := (getCore t x).slab.ce, ue := (getCore t x).slab.ue, lastErr := (getCore t x).slab.lastErr }
              events := (getCore t x).events }) ∧
            job t { j with saves := [], recoveries := 0, lastSame := false, ckpt := some ck }))) ∧
    (getJob s j.id = some j → j.id < 32 → (∀ a, j.atStop = some a → ∀ w ∈ j.saves, w.stop ≠ a.k) →
      exec (.saveAtStop j.id) s = .next s) ∧
    (takeCmd s 4 ticket = some (c, s1) → cmdJob s c = some j → dfield c.desc 0 1 = 4 →
      let bad := fun (st : Nat) (t : State) => only st 0 t ∧
        t.box.rejected = if st = 5 then min 65535 (s.box.rejected + 1) else s.box.rejected
      (resumable j = false → ∃ t, exec (.resume ticket b) s = .next t ∧ bad 5 t) ∧
      (resumable j = true → j.place.isNone = true → placeJob j s1 = none → ∃ t, exec (.resume ticket b) s = .next t ∧ bad 6 t) ∧
      (resumable j = true → j.place.isSome = true → (fillRead n b).2 = [] →
        (saveOk j { bytes := (fillRead n b).1, failed := [] } = true →
          ∃ t, exec (.resume ticket b) s = .next t ∧ job t { j with resuming := some c, poisonSeen := false } ∧
            t = { s1 with jobs := t.jobs }) ∧
        (saveOk j { bytes := (fillRead n b).1, failed := [] } = false → ∃ t, exec (.resume ticket b) s = .next t ∧ bad 5 t)) ∧
      (∀ j1 s2, resumable j = true → j.place.isNone = true → placeJob j s1 = some (j1, s2) → (fillRead n b).2 = [] →
        saveOk j1 { bytes := (fillRead n b).1, failed := [] } = true →
        ∃ t, exec (.resume ticket b) s = .next t ∧ job t { j1 with resuming := some c, poisonSeen := false } ∧
          t = { s2 with jobs := t.jobs }) ∧
      (∀ j1 s2, resumable j = true → j.place.isNone = true → placeJob j s1 = some (j1, s2) → (fillRead n b).2 = [] →
        saveOk j1 { bytes := (fillRead n b).1, failed := [] } = false →
        ∃ t u, exec (.resume ticket b) s = .next t ∧ ends 5 0 t ∧ job t u ∧ u.place = none ∧ u.st = j.st ∧ t.hbm = s.hbm)) ∧
    (getJob s j.id = some j → j.id < 32 → j.resuming = none → exec (.resumeRestore j.id b) s = .next s) ∧
    (getJob s j.id = some j → j.id < 32 → j.resuming = some c → dfield c.desc 0 1 = 4 → (fillRead n b).2 = [] → j.saves = [] →
      (j.table.map (·.site)).Nodup →
      let f : SaveFile := { bytes := (fillRead n b).1, failed := [] }
      (saveOk j f = false → ∃ t u, exec (.resumeRestore j.id b) s = .next t ∧ ends 5 0 t ∧ getJob t j.id = some u ∧ u.st = 3 ∧
        u.place = none ∧ u.resuming = none ∧ t.box.rejected = min 65535 (s.box.rejected + 1) ∧
        ∀ k, k ∉ jobSites j → getCore t k = getCore s k) ∧
      (saveOk j f = true →
        let bk := fieldLE f.bytes 0x1F 1
        let q := (j.pkg.buckets[bk]?).map fun e => (bk, e.inBytes, e.outBytes)
        ∃ t u a, exec (.resumeRestore j.id b) s = .next t ∧ ends 0 0 t ∧ job t u ∧ u.resuming = none ∧ u.atStop = some a ∧
          a.k = fieldLE f.bytes 0x10 4 ∧ a.final = decide (fieldLE f.bytes 0x1F 1 ≥ j.pkg.buckets.length) ∧
          u.stopCount = a.k ∧ u.steps = fieldLE f.bytes 0x14 4 % 2 ^ 28 ∧ u.dispatched = true ∧ u.st = (if j.suspect then 5 else 1) ∧
          u.sel = (savedSel f.bytes).map (resumedReq j) ∧ t.box.resumes = min 65535 (s.box.resumes + 1) ∧
          Noted { s with
            cores := t.cores, jobs := t.jobs, meter := t.meter, mesh := { s.mesh with fields := t.mesh.fields }
            hbm := { s.hbm with
              words := t.hbm.words, entries := t.hbm.entries, chans := t.hbm.chans, stks := t.hbm.stks, grants := t.hbm.grants
              events := t.hbm.events }
            box := { s.box with finished := t.box.finished, resumes := t.box.resumes, replaying := t.box.replaying } } t ∧
          (∀ i e, j.table[i]? = some e →
            let x := getCore t e.site
            let r := savedCore j f i
            x.stream.state = .arrived ∧ x.stream.atStop = true ∧ x.stream.stopCount = r.stopCount ∧ x.stream.icount = r.icount ∧
            x.stream.pc = r.resume ∧ x.stream.loops = r.loops ∧ x.stream.imemA = r.imemA ∧ x.stream.imemB = r.imemB ∧
            x.stream.bankB = r.bankB ∧ x.aregs = r.aregs ∧ x.sync.slots = r.slots ∧ x.slab.words = r.slab ∧ x.slab.off = r.off ∧
            x.place.steps = r.steps ∧ x.place.bucket = (q.getD (0, 0, 0)).1 ∧ x.seed = j.seed ∧ (∀ n, getV x n = Row.zero) ∧
            x.mon = FmtMon.reset) ∧
          (∀ k, k ∉ jobSites j → getCore t k = getCore s k) ∧
          ∀ addr : Nat → Nat,
            let np := (saveCounts f.bytes).2.1
            (∀ i, i < np → hbmTranslate s.hbm j.id ((savedPage f i).1 * 0x400000) = some (addr i) ∧
              UnitReaches s (.host port) (addrPart (addr i))) →
            (∀ i k, i < np → k < np → addr i = addr k → i = k) →
            (∀ i w, i < np → w < 524288 → smGet 0#72 t.hbm.words (addr i / 8 + w) =
              (if (savedPage f i).2.2.any (fun o => decide (o / 8 = w)) then hbmMarker else bytesWord (savedPage f i).2.1 w)) ∧
            (∀ x, (∀ i, i < np → x / 524288 ≠ addr i / 0x400000) → smGet 0#72 t.hbm.words x = smGet 0#72 s.hbm.words x) ∧
            ∀ i, i < np → pageCrazed t.hbm j.id ((savedPage f i).1 * 0x400000) = false)))

/-- SUBMIT completes with the status of the first check that it fails, and otherwise becomes ready; the gather time makes the ready
requests due; the yard of a job between steps dispatches a due request with its bucket: its input and the zero padding rows in
the arena, its cores released at their entry; at a stop that does not end the step the job's cores go on, once they have taken
every armed commit, and at the step's last stop its output is written to the host, or the request fails where a word of it is
crazed. Nothing else changes. The identity of the PUSH BROADCAST of an input row is the model's choice (assumption 26). -/
def Obligations.RequestsRunAsSteps : Prop :=
  (∀ (ticket : Nat) (s : State),
    (s.box.subs.find? (fun e => decide (e.ticket = ticket)) = none → exec (.submit ticket) s = .next s) ∧
    ∀ e : SubEnt, s.box.subs.find? (fun e => decide (e.ticket = ticket)) = some e →
      let r := reqOf e 0
      let subs := s.box.subs.filter fun x => !decide (x = e)
      (∀ st, submitStatus s e = some st → ∃ t f, exec (.submit ticket) s = .next t ∧
        t = { s with box := { s.box with
          subs := subs, finished := s.box.finished ++ [f]
          empties := if st = 1 then min 0xFFFFFFFF (s.box.empties + 1) else s.box.empties
          shapeOver := if st = 2 then min 0xFFFFFFFF (s.box.shapeOver + 1) else s.box.shapeOver } } ∧
        f.ticket = e.ticket ∧ f.status = st ∧ f.result = 0 ∧ f.port = e.port ∧ f.ring = e.ring ∧ f.queue = some e.queue) ∧
      (subDescOk e.desc = false ∨ dfield e.desc 2 1 ≠ e.job → submitStatus s e = some 5) ∧
      (subDescOk e.desc = true → dfield e.desc 2 1 = e.job →
        (liveJob s e.job = none → submitStatus s e = some 3) ∧
        ∀ j, liveJob s e.job = some j →
          (j.st = 6 → submitStatus s e = some 3) ∧ (j.st = 4 → submitStatus s e = some 8) ∧
          (j.st ≠ 6 → j.st ≠ 4 →
            let wrong := (∃ d ∈ r.dims.drop j.pkg.ndims, d ≠ 0) ∨ r.len ≠ r.dims.getD 0 0 * j.inRow ∨
              r.outLen < r.dims.getD 0 0 * j.outRow
            let empty := ∃ d ∈ r.dims.take j.pkg.ndims, d = 0
            (wrong → submitStatus s e = some 5) ∧ (¬ wrong → empty → submitStatus s e = some 1) ∧
            (¬ wrong → ¬ empty → chooseBucket j.pkg r.dims = none → submitStatus s e = some 2) ∧
            (∀ k, ¬ wrong → ¬ empty → chooseBucket j.pkg r.dims = some k → treeRank j = 0 → ∃ t, exec (.submit ticket) s = .next t ∧
              t = { s with jobs := t.jobs, box := { s.box with subs := subs } } ∧
              getJob t j.id = some { j with ready := insertReq r j.ready } ∧ ∀ i, i ≠ j.id → getJob t i = getJob s i)))) ∧
  (∀ (s : State) (j : Job), getJob s j.id = some j → j.id < 32 →
    let job := fun (t : State) (j' : Job) => getJob t j.id = some j' ∧ ∀ i, i ≠ j.id → getJob t i = getJob s i
    (∃ t, exec (.yardGatherTimeout j.id) s = .next t ∧ job t { j with gatherDue := !j.ready.isEmpty } ∧
      t = { s with jobs := t.jobs }) ∧
    (∀ b, j.loading = false → treeSize j ≤ 1 → treeRank j = 0 →
      (yardSelect s j).1 = [] ∨ (j.gatherDue || (yardSelect s j).2) = false ∨ yardOpen s j = false ∨ mayDispatch s = false →
      exec (.yardInputRead j.id b) s = .next s) ∧
    (∀ r b bk e, j.loading = false → treeSize j ≤ 1 → treePorts j = [] → treeRank j = 0 → (yardSelect s j).1 = [r] → r.rank = 0 →
      (j.gatherDue || (yardSelect s j).2) = true → yardOpen s j = true → mayDispatch s = true →
      chooseBucket j.pkg (stepShape [r.dims]) = some bk → j.pkg.buckets[bk]? = some e →
      let rest := j.ready.filter fun x => !decide (r.ticket = x.ticket)
      let d0 := r.dims.getD 0 0
      (portPresent (getHost s r.port) = false → ∃ t f, exec (.yardInputRead j.id [b]) s = .next t ∧
        t = { s with jobs := t.jobs, box := { s.box with finished := s.box.finished ++ [f] } } ∧
        job t { j with ready := rest, gatherDue := gatherOver s.clock.time { j with ready := rest } } ∧ f.ticket = r.ticket ∧
        f.status = 4 ∧ f.queue = some r.queue) ∧
      (portPresent (getHost s r.port) = true → (fillRead r.len b).2 = [] → r.inFailed = false →
        (∀ k ∈ jobSites j, (getCore s k).stream.state = .idle ∨ (getCore s k).stream.state = .arrived) →
        let l := (fillRead r.len b).1
        let a := j.pkg.arenaVa
        let q := unitWrite (.host r.port) j.id a l []
          (unitWrite (boxUnit s) j.id (a + d0 * j.inRow) (List.replicate ((e.dims.getD 0 0 - d0) * j.inRow) 0#8) [] s)
        ∃ t u, exec (.yardInputRead j.id [b]) s = .next t ∧ job t u ∧ u.dispatched = true ∧ u.bucket = some bk ∧
          u.steps = min 0xFFFFFFF (j.steps + 1) ∧ u.sel.map (·.ticket) = [r.ticket] ∧ u.atStop = none ∧ u.ready = rest ∧
          u.stepWt = j.wtDigest ∧ u.ordinal = 0 ∧
          Noted { q with cores := t.cores, jobs := t.jobs, meter := t.meter } t ∧
          (∀ k ∈ jobSites j, let x := getCore t k
            x.stream.state = .running ∧ x.place.steps = min 0xFFFFFFF (j.steps + 1) ∧ x.place.bucket = bk ∧
            x.place.inLim = e.inBytes ∧ x.place.outLim = e.outBytes ∧ x.stream.loops = [] ∧
            x.stream.pc = (regionOf j.pkg x.place.vx x.place.vy).elim 0 (fun g => g.entries.getD bk 0) ∧
            x.slab.words = (getCore s k).slab.words ∧ x.aregs = (getCore s k).aregs) ∧
          ∀ k, k ∉ jobSites j → getCore t k = getCore s k)) ∧
    (jobAdmitted j = true → jobRuns j = true → j.atStop = none → j.dispatched = false ∨ jobStop s j = none → ∀ f,
      exec (.jobAtStop j.id f) s = .next s) ∧
    (∀ k, jobAdmitted j = true → jobRuns j = true → j.st = 1 → j.suspect = false → j.atStop = none → j.dispatched = true →
      treeSize j = 1 → j.pair = none → j.exch = [] → j.saves = [] → j.shed = [] → j.retire = [] → j.halted = false →
      jobStop s j = some k → (∀ x ∈ jobSites j, (getCore s x).stream.state = .arrived) →
      (arbsTaken s j = true → ∃ t, exec (.jobAtStop j.id false) s = .next t ∧
        job t { j with stopCount := k, ordinal := j.ordinal + 1, devSave := none } ∧
        Noted { s with jobs := t.jobs, cores := t.cores } t ∧
        (∀ x ∈ jobSites j, let c := getCore s x
          let d := getCore t x
          d.stream.state = .running ∧
          d.stream.pc = (if c.stream.entryEn then c.stream.entry else if c.stream.switched then 0 else c.stream.pc) ∧
          d.stream.atStop = false ∧ d.stream.entryEn = false ∧ d.stream.icount = c.stream.icount ∧
          d.slab.words = c.slab.words ∧ d.aregs = c.aregs ∧ d.place = c.place) ∧
        ∀ x, x ∉ jobSites j → getCore t x = getCore s x) ∧
      (arbsTaken s j = false → ∃ t, exec (.jobAtStop j.id false) s = .next t ∧ t = { s with jobs := t.jobs } ∧
        job t { j with stopCount := k, ordinal := j.ordinal + 1, atStop := some { k := k, ordinal := j.ordinal + 1, final := false, exNext := 0, exBusy := false, outDone := true, released := true } }) ∧
      (∀ r, j.sel = [r] → r.orphan = false → r.rank = treeRank j → r.inFailed = false → portPresent (getHost s r.port) = true →
        let n := r.dims.getD 0 0 * j.outRow
        let q := unitRead (.host r.port) j.id (j.pkg.arenaVa + j.pkg.inMax + r.row0 * j.outRow) n s
        let z := q.1.any (·.2)
        let l := q.1.map (·.1)
        ∃ t u f, exec (.jobAtStop j.id true) s = .next t ∧ job t u ∧ u.stopCount = k ∧ u.sel = [] ∧ u.bucket = none ∧
          u.atStop = some { k := k, ordinal := j.ordinal + 1, final := true, exNext := 0, exBusy := false, outDone := true,
                            released := true } ∧
          t = { q.2 with
            jobs := t.jobs, meter := t.meter, box := { s.box with finished := s.box.finished ++ [f] }
            out := if z then q.2.out else q.2.out ++ [.hostWrite r.port r.outAddr l] } ∧
          f.ticket = r.ticket ∧ f.status = (if z then 7 else 0) ∧ f.result = (if z then 0 else n) ∧ f.queue = some r.queue ∧
          f.backstamp = (if z then [] else backstamp j r.inDigest l))))

/-! ### Trunk ports -/

/-- A port goes through DETECT, PRESET, ADAPT, ALIGN, LINK and IDENTIFY to ACTIVE: it needs 4 lanes to leave DETECT, takes width 8
with 8 lanes or more and no WIDTH4, else 4, clears its link layer at LINK, or replays it after a retraining, and is ACTIVE once
a DISCOVER was heard. A state that fails goes back to DETECT with the doubled wait, or to quarantine at more than 10 events in 1
s; a retraining that fails, a partner no longer present and a lost TRCLK end the link. No other port changes but by a new time
master. An ACTIVE port: a logical lane that fails is moved to the spare, named for 16 frames later, and with no spare, or a
second lane, the port retrains, its link layer kept, as CTRL.RETRAIN has it; the lane's event enters the history. At the named
frame the spare takes the lane, as it does when the partner's markers name it. A retraining past its limit is a partner that
left. Nothing else happens to a port that is not ACTIVE, and no other port changes but by a new time master. -/
def Obligations.TrunkPortsTrainAndRetrain : Prop :=
  (∀ (port : Nat) (s : State), port < 12 →
     let p := getTrunk s port
     let now := s.clock.time
     let only := fun (t : State) (p' : TPort) =>
       t = { s with trunks := t.trunks } ∧ ∀ q, getTrunk t q = if q = port then p' else getTrunk s q
     let many := decide ((p.recent.filter fun x => decide (now < x + 400000000)).length ≥ 10)
     let fails := fun (p' : TPort) => p'.trainFails = min 65535 (p.trainFails + 1) ∧ p'.txq = [] ∧ p'.replay = [] ∧ p'.credits = [] ∧
       p'.inbox = [] ∧ p'.width = 0 ∧ p'.map = [] ∧ p'.neigh = p.neigh ∧
       (if many then p'.st = 0 ∧ p'.quarantined = true ∧ p'.quarantines = min 65535 (p.quarantines + 1) ∧ p'.recent = []
       else p'.st = 1 ∧ p'.waiting = true ∧ p'.quarantined = p.quarantined ∧ p'.quarantines = p.quarantines ∧
         (portUp p = false → p'.backoffMs = (if p.backoffMs = 0 then 10 else min 1000 (2 * p.backoffMs))))
     let lost := fun (i : Instr) => fails (lostPort now p) ∧
       (portUp p = false → ∃ t, exec i s = .next t ∧ only t (lostPort now p)) ∧
       (p.retraining = true → p.st ≠ 7 → ∃ t, exec i s = .next t ∧ PartnerGone port (lostPort now p) s t)
     (∀ lanes presets rtt seq,
       let good := goodLanes s port lanes
       let ls := laneList p.lanesOk
       let go := fun (p' : TPort) => ∃ t, exec (.trunkTrainAdvance port { lanes := lanes, presets := presets } rtt seq) s = .next t ∧ only t p'
       (p.st = 0 → go (if isReady s.boot = true ∧ p.present = true ∧ p.disable = false ∧ p.quarantined = false then
         { p with st := 1, lanesFailed := 0#9 } else p)) ∧
       (p.st = 1 → go { p with st := if (laneList good).length ≥ 4 ∧ p.waiting = false then 2 else 1 }) ∧
       (p.st = 2 → go { p with st := 3, presets := (presets.take 9).map (· % 16) }) ∧
       (p.st = 3 → go { p with st := 4, lanesOk := good, lanesFailed := ~~~good }) ∧
       (p.st = 4 → ls.length ≥ 4 →
         let w := if ls.length ≥ 8 ∧ p.width4 = false ∧
           (p.retraining = false ∨ p.width = 8 ∨ p.width = 0 ∨ p.ctrlRetrain = true) then 8 else 4
         go { p with
           st := 5, tx := LaneTx.reset, width := w, map := ls.take w, spare := (ls.drop w).head?, spareUsed := false
           degrades := if p.retraining = true ∧ ls.length < 8 then min 65535 (p.degrades + 1) else p.degrades }) ∧
       (p.st = 4 → ls.length < 4 → lost (.trunkTrainAdvance port { lanes := lanes, presets := presets } rtt seq)) ∧
       (p.st = 5 → p.retraining = false → go (queueMsg (clearLink { p with st := 6, heard := false, rttNs := min rtt 65535 })
         (discoverMsg s port) false)) ∧
       (p.st = 5 → p.retraining = true →
         let k := takeAck { p with st := 6, heard := false, rttNs := min rtt 65535 } seq
         ∃ t, exec (.trunkTrainAdvance port { lanes := lanes, presets := presets } rtt seq) s = .next t ∧
           t = { s with trunks := t.trunks, out := t.out } ∧ (∀ q, q ≠ port → getTrunk t q = getTrunk s q) ∧
           flitsOut port t = flitsOut port s ++ k.replay.map (fun e => flitBytes (flitHeader k false false e.flit e.seq) e.flit.payload) ∧
           ∃ k', k' = { k with tx := k'.tx, replays := k'.replays, replayed := k'.replayed, unacked := k'.unacked } ∧
             getTrunk t port = queueMsg k' (discoverMsg s port) false) ∧
       (p.st = 6 → (p.heard = false → go p) ∧ (p.heard = true →
         ∃ t, exec (.trunkTrainAdvance port { lanes := lanes, presets := presets } rtt seq) s = .next t ∧ Mastered (putTrunk port { p with
           st := 7, retraining := false, ctrlRetrain := false, activeSince := if p.retraining then p.activeSince else now } s) t)) ∧
       (p.st ≥ 7 → go p)) ∧
     (1 ≤ p.st → p.st ≤ 6 → p.waiting = false → lost (.trunkTrainTimeout port)) ∧
     (p.st = 0 ∨ 7 ≤ p.st ∨ p.waiting = true → exec (.trunkTrainTimeout port) s = .next s) ∧
     (exec (.trunkRetryBackoff port) s = .next (putTrunk port { p with waiting := false } s)) ∧
     (exec (.trunkQuarantineEnd port) s = .next (putTrunk port { p with quarantined := false } s)) ∧
     (∀ present,
       let p' := presenceChange { p with rawPresent := present } present now
       (present = p.present → p' = { p with rawPresent := present }) ∧
       (present ≠ p.present → p'.present = present ∧ p'.rawPresent = present ∧ p'.changes = min 65535 (p.changes + 1) ∧
         (many = true → p'.st = 0 ∧ p'.quarantined = true ∧ p'.quarantines = min 65535 (p.quarantines + 1)) ∧
         (many = false → present = false → p'.st = 0 ∧ p'.replay = [] ∧ p'.quarantined = p.quarantined) ∧
         (many = false → present = true → p'.st = p.st ∧ p'.quarantined = p.quarantined)) ∧
       (portUp p = false ∨ present = p.present → ∃ t, exec (.portPresentChange port present) s = .next t ∧ only t p') ∧
       (portUp p = true → present = false → p.present = true → ∃ t, exec (.portPresentChange port present) s = .next t ∧
         PartnerGone port p' s t)) ∧
     (∀ east, ∃ t, exec (.trclkLost east) s = .next t ∧
       let hit := fun (q : Nat) => decide (q < 12) && decide (east = decide (4 ≤ q)) && decide (2 ≤ (getTrunk s q).st)
       let after := fun (q : Nat) => if hit q then lostPort now (getTrunk s q) else getTrunk s q
       (∀ q, getTrunk t q = { after q with
         parent := (getTrunk t q).parent, txq := (getTrunk t q).txq, leaves := (getTrunk t q).leaves, neigh := (getTrunk t q).neigh }) ∧
       ((∀ q, hit q = true → portUp (getTrunk s q) = false) →
         t = { s with trunks := t.trunks } ∧ ∀ q, getTrunk t q = after q) ∧
       ∀ q, hit q = true → portUp (getTrunk s q) = true → (getTrunk t q).neigh = none ∧
         ∀ x ∈ s.jobs, x.ended = false → q ∈ treePorts x → ∃ y, getJob t x.id = some y ∧ y.ended = true)) ∧
  (∀ (port : Nat) (s : State), port < 12 →
     let p := getTrunk s port
     let only := fun (t : State) (p' : TPort) =>
       t = { s with trunks := t.trunks } ∧ ∀ q, getTrunk t q = if q = port then p' else getTrunk s q
     let again := fun (c : Bool) => { p with
       st := 3, retraining := true, ctrlRetrain := c, retrains := min 65535 (p.retrains + 1), lanesFailed := 0#9, spareUsed := false
       swap := none }
     let moved := fun (l x : Nat) (p' : TPort) => p' = { p with
         map := p'.map, spare := none, swap := none, spareUsed := true, swaps := min 65535 (p.swaps + 1)
         lanesFailed := setField p.lanesFailed (p.map.getD l 0) 1 1 } ∧
       p'.map.length = p.map.length ∧ p'.map[l]? = some x ∧ ∀ i, i ≠ l → p'.map[i]? = p.map[i]?
     (p.st = 7 →
       (∀ l x, l < 8 → p.map[l]? = some x →
         ∃ t u, exec (.laneFail port false l) s = .next t ∧ Noted u t ∧ t.history = (addHistory s.history (unitLane port x)).1 ∧
           (p.swap = none → p.spare.isSome = true → only u { p with swap := some (l, (p.tx.frame + 16) % 2 ^ 32) }) ∧
           (p.swap = none → p.spare = none → Mastered (putTrunk port (again false) s) u) ∧
           (∀ m, p.swap = some m → if m.1 = l then only u p else Mastered (putTrunk port (again false) s) u)) ∧
       (∀ l, ∃ t, exec (.laneFail port true l) s = .next t ∧ Mastered (putTrunk port (again false) s) t) ∧
       (∃ t, exec (.trunkCtrlRetrain port) s = .next t ∧ Mastered (putTrunk port (again true) s) t)) ∧
     (p.st ≠ 7 → (∀ l, l < 8 → exec (.laneFail port false l) s = .next s) ∧ (∀ l, exec (.laneFail port true l) s = .next s) ∧
       ∃ t, exec (.trunkCtrlRetrain port) s = .next t ∧ only t p) ∧
     (∀ l frame x, p.swap = some (l, frame) → p.spare = some x → l < p.map.length →
       ∃ t p', exec (.spareSwap { port := port, peer := none }) s = .next t ∧ only t p' ∧ moved l x p') ∧
     (∀ l x, l < 8 → p.st = 7 → p.swap = none → p.spare = some x → l < p.map.length →
       ∃ t p', exec (.spareSwap { port := port, peer := some l }) s = .next t ∧ only t p' ∧ moved l x p') ∧
     (p.swap = none → ∃ t, exec (.spareSwap { port := port, peer := none }) s = .next t ∧ only t p) ∧
     (p.spare = none → ∀ l, l < 8 → ∃ t, exec (.spareSwap { port := port, peer := some l }) s = .next t ∧ only t p) ∧
     (p.retraining = true → p.st ≠ 7 → ∃ t, exec (.retrainingLimit port) s = .next t ∧
       PartnerGone port { clearLink p with retraining := false, ctrlRetrain := false } s t) ∧
     (p.retraining = false → exec (.retrainingLimit port) s = .next s))

/-- Flits: a flit that a port sends is accepted, with the same header and payload, by a partner that expects its number; a flit with
a wrong CRC is counted and one out of sequence is not accepted, and each is answered with a NAK; the 16th flit not yet
acknowledged brings an IDLE flit. A NAK or the timeout of the oldest flit sends the whole replay buffer; after the 8th failed
replay that flit is VOID and the port retrains. The acknowledgement timer sends an IDLE flit. No other port changes but by a new
time master. The byte order of a flit is the model's choice (assumption 19). -/
def Obligations.TrunkFlitsAreReliable : Prop :=
  (∀ (t u : TPort) (v : Nat) (f : TFlit) (rest : List TFlit), smGet [] t.txq v = f :: rest → canSend t v = true → t.cvc < 8 → f.vc < 8 →
    f.bytes < 256 → f.payload.length = 240 → u.rxSeq = t.txSeq → t.txSeq < 1024 →
    ∃ b, (sendFlit t v).2 = [b] ∧ b.length = 256 ∧ parseTFlit (ofBytesBE (b.take 8)) b = f ∧
      (receiveTFlit u b).1.rxSeq = (t.txSeq + 1) % 1024 ∧ (receiveTFlit u b).1.crcFail = u.crcFail) ∧
  (∀ (port : Nat) (s : State), port < 12 →
    let p := getTrunk s port
    let frame := fun (t : State) => t = { s with trunks := t.trunks, out := t.out } ∧ ∀ q, q ≠ port → getTrunk t q = getTrunk s q
    let is := fun (t : State) (k : TPort) => getTrunk t port = { k with tx := (getTrunk t port).tx }
    let quiet := fun (t : State) (k : TPort) => t = { s with trunks := t.trunks } ∧ (∀ q, q ≠ port → getTrunk t q = getTrunk s q) ∧
      getTrunk t port = k
    let idle := fun (t : State) (k : TPort) (nak : Bool) => frame t ∧ is t { k with cvc := (k.cvc + 1) % 8, unacked := 0 } ∧
      ∃ b, flitsOut port t = flitsOut port s ++ [b] ∧ b.length = 256 ∧ ofBytesBE (b.take 8) / 2 ^ 63 = 1 ∧
        ofBytesBE (b.take 8) / 2 ^ 37 % 2 = nak.toNat
    let resent := fun (i : Instr) (k : TPort) => ∀ e rest, k.replay = e :: rest →
      (k.replayed = true → k.fails ≥ 7 →
        let w := { k with
          replay := { e with flit := { e.flit with lost := true, payload := [] } } :: rest, drops := min 65535 (k.drops + 1)
          fails := 0, replayed := false }
        ∃ t, exec i s = .next t ∧ flitsOut port t = flitsOut port s ∧
          (p.st ≠ 7 → quiet t w) ∧
          (p.st = 7 → Mastered (putTrunk port { w with
            st := 3, retraining := true, ctrlRetrain := false, retrains := min 65535 (k.retrains + 1), lanesFailed := 0#9
            spareUsed := false, swap := none } s) t)) ∧
      (k.replayed = false ∨ k.fails < 7 → ∃ t, exec i s = .next t ∧ frame t ∧
        is t { k with
          replays := min 0xFFFFFFFF (k.replays + 1), replayed := true, unacked := 0
          fails := if k.replayed then k.fails + 1 else 0 } ∧
        flitsOut port t = flitsOut port s ++ k.replay.map fun x => flitBytes (flitHeader k false false x.flit x.seq) x.flit.payload)
    (∀ bytes crc errors,
      let b := bytes ++ bytesBE 8 crc.toNat
      let hdr := ofBytesBE (b.take 8)
      let counted := { p with
        fecCorr := min 0xFFFFFFFF (p.fecCorr + (errors.filter fun n => decide (1 ≤ n) && decide (n ≤ 15)).length)
        fecUnc := min 0xFFFFFFFF (p.fecUnc + (errors.filter fun n => decide (15 < n)).length) }
      let k := takeAck (takeCredit counted hdr) (hdr / 2 ^ 38 % 1024)
      let good := b.length = 256 ∧ (crc64 (b.take 248)).toNat = ofBytesBE (b.drop 248)
      let go := fun (q : State → Prop) => ∃ t, exec (.trunkFlitReceive port bytes crc errors) s = .next t ∧ q t
      (p.st < 6 → go fun t => quiet t p) ∧
      (p.st ≥ 6 → p.cvc < 8 →
        (¬ good → go fun t => idle t { counted with crcFail := min 65535 (p.crcFail + 1) } true) ∧
        (good → hdr / 2 ^ 63 % 2 = 1 → hdr / 2 ^ 37 % 2 = 0 → go fun t => quiet t k) ∧
        (good → hdr / 2 ^ 63 % 2 = 1 → hdr / 2 ^ 37 % 2 = 1 → k.replay = [] → go fun t => quiet t k) ∧
        (good → hdr / 2 ^ 63 % 2 = 1 → hdr / 2 ^ 37 % 2 = 1 → resent (.trunkFlitReceive port bytes crc errors) k) ∧
        (good → hdr / 2 ^ 63 % 2 = 0 → hdr / 2 ^ 37 % 2 = 0 →
          (hdr / 2 ^ 48 % 1024 ≠ p.rxSeq → go fun t => idle t k true) ∧
          (hdr / 2 ^ 48 % 1024 = p.rxSeq →
            let f := parseTFlit hdr b
            let x := acceptTFlit k f
            (p.unacked < 15 → go fun t => quiet t x) ∧ (p.unacked ≥ 15 → go fun t => idle t x false) ∧
            x.rxSeq = (p.rxSeq + 1) % 1024 ∧ x.replay = k.replay ∧ x.credits = k.credits ∧
            smGet 0 x.freed f.vc = (smGet 0 p.freed f.vc + 1) % 64 ∧
            (f.first = true → f.last = true → f.lost = false →
              let m := (parseFirst f.payload).1
              x.inbox = (if msgKnown m then p.inbox ++ [m] else p.inbox) ∧
              x.drops = (if msgKnown m then p.drops else min 65535 (p.drops + 1))) ∧
            (f.first = true → f.last = false → x.inbox = p.inbox ∧ x.drops = p.drops) ∧
            (∀ y, f.first = false → f.lost = false → smGet none p.parts f.vc = some y →
              let z := joinData y f
              (f.last = false → smGet none x.parts f.vc = some z ∧ x.inbox = p.inbox) ∧
              (f.last = true → y.lost = false → smGet none x.parts f.vc = none ∧
                x.inbox = if msgKnown z.msg then p.inbox ++ [z.msg] else p.inbox)))))) ∧
    (p.st ≥ 6 → resent (.trunkReplayTimeout port) p) ∧
    (p.st < 6 ∨ p.replay = [] → ∃ t, exec (.trunkReplayTimeout port) s = .next t ∧ quiet t p) ∧
    (p.st ≥ 6 → p.unacked > 0 → p.cvc < 8 → ∃ t, exec (.trunkAckTimer port) s = .next t ∧ idle t p false) ∧
    (p.st < 6 ∨ p.unacked = 0 → ∃ t, exec (.trunkAckTimer port) s = .next t ∧ quiet t p))

/-- A DISCOVER gives the neighbour entry, and another partner than the one held has left; the time master is the lowest module id
known, its parent port the one with the least distance; the timers send DISCOVER and HEARTBEAT; 5 ms without one the partner has
left. TIME REQ, RESP and the measured offset follow the time rules. A command whose message is not there does nothing. The phase
of a time stamp within its cycle is a free value (assumption 3). -/
def Obligations.NeighboursAndTime : Prop :=
  ∀ (port : Nat) (s : State), port < 12 →
    let p := getTrunk s port
    let only := fun (t : State) (p' : TPort) =>
      t = { s with trunks := t.trunks } ∧ ∀ q, getTrunk t q = if q = port then p' else getTrunk s q
    ((∀ m ∈ p.inbox, m.typ ≠ 1) → exec (.discover port) s = .next s) ∧
    ((∀ m ∈ p.inbox, m.typ ≠ 2) → exec (.heartbeat port) s = .next s) ∧
    ((∀ m ∈ p.inbox, m.typ ≠ 3) → exec (.timeReq port) s = .next s ∧ exec (.timeResp port) s = .next s) ∧
    (∀ m rest, p.inbox = m :: rest →
      (m.typ = 1 → m.kind = 0 →
        let n := parseNeigh m.inl
        ∃ t, exec (.discover port) s = .next t ∧ (getTrunk t port).neigh = some n ∧ t.box.timeParent = (timeRole t).2.2 ∧
          (∀ q, q < 12 → (getTrunk t q).parent = decide (t.box.timeParent = some q)) ∧
          (∀ x, p.neigh = some x → x.moduleId ≠ n.moduleId → (getTrunk t port).leaves = min 65535 (p.leaves + 1) ∧
            (getTrunk t port).inbox = [] ∧ (getTrunk t port).replay = [] ∧ (getTrunk t port).rxSeq = 0 ∧
            (∀ y ∈ s.jobs, y.ended = false → port ∈ treePorts y → ∃ z, getJob t y.id = some z ∧ z.ended = true) ∧
            ((∀ y ∈ s.jobs, y.ended = true ∨ port ∉ treePorts y) →
              Mastered (putTrunk port { clearLink p with leaves := min 65535 (p.leaves + 1), neigh := some n } s) t)) ∧
          (p.neigh = none ∨ (∃ x, p.neigh = some x ∧ x.moduleId = n.moduleId) →
            Mastered (putTrunk port { p with inbox := rest, neigh := some n } s) t)) ∧
      (m.typ = 2 → m.kind = 0 → exec (.heartbeat port) s = .next (putTrunk port { p with inbox := rest } s)) ∧
      (m.typ = 3 → m.kind = 0 →
        let t2 := timestamp s 0
        let t3 := max t2 (timestamp s 1)
        ∃ t, exec (.timeReq port) s = .next t ∧ t = { s with trunks := t.trunks, free := s.free + 2 } ∧
          t2 / 32 = s.clock.time % 2 ^ 59 ∧ t3 / 32 = t2 / 32 ∧ t2 ≤ t3 ∧
          ∀ q, getTrunk t q = if q = port then queueMsg { p with inbox := rest } { TMsg.blank with
            typ := 3, kind := 1, id := m.id, inl := bytesLE 8 t2 ++ bytesLE 8 t3 } false else getTrunk s q) ∧
      (m.typ = 3 → m.kind = 1 →
        (s.box.timeParent ≠ some port ∨ s.box.timeReq ≠ some m.id →
          exec (.timeResp port) s = .next (putTrunk port { p with inbox := rest } s)) ∧
        (s.box.timeParent = some port → s.box.timeReq = some m.id →
          let ps := halfRcPs (((byteField m.inl 0 8 : Int) - (m.id : Int)) - ((timestamp s 0 : Int) - (byteField m.inl 8 8 : Int)))
          ∃ t, exec (.timeResp port) s = .next t ∧
            t = { putTrunk port { p with inbox := rest } s with
              free := s.free + 1, box := { s.box with timeReq := none }, clock := t.clock } ∧
            t.clock = { s.clock with time := t.clock.time, offsetPs := t.clock.offsetPs, aligned := t.clock.aligned } ∧
            t.clock.offsetPs = BitVec.ofInt 32 (max (-(2 ^ 31)) (min (2 ^ 31 - 1) ps)) ∧
            t.clock.aligned = (if ps.natAbs ≤ 10000 then true else if ps.natAbs > 20000 then false else s.clock.aligned) ∧
            t.clock.time = (if ps.natAbs ≤ 1000000 ∨ s.jobs.any (fun j => !j.ended) = true then s.clock.time
              else ((s.clock.time : Int) + (ps + 1250) / 2500).toNat % 2 ^ 64)))) ∧
    (p.st = 7 →
      (∃ t, exec (.discoverTimer port) s = .next t ∧ only t (queueMsg p (discoverMsg s port) false)) ∧
      (∃ t, exec (.trunkHeartbeatTimer port) s = .next t ∧ only t (queueMsg { p with hbCount := (p.hbCount + 1) % 2 ^ 64 }
        { TMsg.blank with typ := 2, id := (p.hbCount + 1) % 2 ^ 64 } false)) ∧
      (p.neigh.isSome = true → ∃ t, exec (.heartbeatTimeout port) s = .next t ∧ PartnerGone port p s t)) ∧
    (p.st ≠ 7 → exec (.discoverTimer port) s = .next s ∧ exec (.trunkHeartbeatTimer port) s = .next s) ∧
    (p.st ≠ 7 ∨ p.neigh = none → exec (.heartbeatTimeout port) s = .next s) ∧
    (∀ q, s.box.timeParent = some q → ∃ t, exec .timeSyncTimer s = .next t ∧
      t = { s with trunks := t.trunks, free := s.free + 1, box := { s.box with timeReq := some (timestamp s 0) } } ∧
      ∀ x, getTrunk t x = if x = q then queueMsg (getTrunk s q) { TMsg.blank with typ := 3, id := timestamp s 0 } false
        else getTrunk s x) ∧
    (s.box.timeParent = none → exec .timeSyncTimer s = .next s)

/-! ### Jobs over several modules -/

/-- FREQ_SET: a member schedules the leader's divider at its tick, or counts it as refused; the leader keeps each member's permitted
divider, and once all have reported sends the largest, its own included, where it differs from the last, and again after a
cancellation; APPLIED changes nothing. Without such a message nothing happens. At a stop of several modules a member's arrival
is kept, and with the last one and no exchange left the leader sends RELEASE and goes on; a member goes on at RELEASE. JOB_END
ends the job here: its requests fail, its placement, pages and queues are released. Nothing else changes. -/
def Obligations.MembersMoveTogether : Prop :=
  (∀ (port : Nat) (s : State), port < 12 →
     ((∀ m ∈ (getTrunk s port).inbox, m.typ ≠ 4) → exec (.freqSetSet port) s = .next s ∧ exec (.freqSetLimit port) s = .next s ∧
       exec (.freqSetApplied port) s = .next s ∧ exec (.freqSetCancelled port) s = .next s) ∧
     ∀ (m : TMsg) (rest : List TMsg) (j : Job), (getTrunk s port).inbox = m :: rest → m.typ = 4 →
     keyJobAt s port m.jkey = some j → getJob s j.id = some j → (s.jobs.map (·.id)).Nodup →
     let s0 := putTrunk port { getTrunk s port with inbox := rest } s
     let told := fun (t : State) (q d : Nat) => ∃ l, smGet [] (getTrunk t q).txq 0 = smGet [] (getTrunk s q).txq 0 ++
       msgFlits { TMsg.blank with typ := 4, kind := 0, srcRank := 0, dstRank := 0xFE, jkey := j.jkey, id := s.clock.time + 80000,
                                  arg := d } false ++ l
     (m.kind = 0 → m.dstRank = 0xFE → treeSize j > 1 → (∀ x ∈ s.jobs, treeRank x ≠ 0 ∨ treeSize x ≤ 1) →
       ∃ t, exec (.freqSetSet port) s = .next t ∧
         t = { s0 with
           jobs := t.jobs, trunks := t.trunks, clock := t.clock, power := { s.power with clusters := t.power.clusters } } ∧
         (∀ i, i ≠ j.id → getJob t i = getJob s i) ∧
         (divOk s.clock m.arg m.id = true → getJob t j.id = some { j with freqDiv := m.arg } ∧ t.clock = { s.clock with
           target := m.arg, tick := m.id, pending := some { target := m.arg, tick := m.id, job := some j.id }, deferred := false }) ∧
         (divOk s.clock m.arg m.id = false → getJob t j.id = some j ∧ t.clock = { s.clock with
           target := m.arg, tick := m.id, refused := min 255 (s.clock.refused + 1) })) ∧
     (treeRank j = 0 → m.dstRank = 0 → treeSize j > 1 →
       let frame := fun (t : State) => t = { s0 with
           jobs := t.jobs, trunks := t.trunks, clock := t.clock, power := { s.power with clusters := t.power.clusters } } ∧
         t.clock = { s.clock with
           target := t.clock.target, tick := t.clock.tick, pending := t.clock.pending, deferred := t.clock.deferred
           refused := t.clock.refused }
       let ls := (j.limits.filter fun l => !decide (l.1 = m.srcRank)) ++ [(m.srcRank, m.arg)]
       (m.kind = 1 → ∃ t u, exec (.freqSetLimit port) s = .next t ∧ getJob t j.id = some u ∧ u.limits = ls ∧ frame t ∧
         ∀ q, treePorts j = [q] → (∀ r, r + 1 < treeSize j → ∃ l ∈ ls, l.1 = r + 1) →
           let d := ls.foldl (fun m l => max m l.2) (wanted s)
           d ≠ j.freqDiv → told t q d) ∧
       (m.kind = 3 → ∃ t u, exec (.freqSetCancelled port) s = .next t ∧ getJob t j.id = some u ∧ u.limits = j.limits ∧ frame t ∧
         ∀ q, treePorts j = [q] → (∀ r, r + 1 < treeSize j → ∃ l ∈ j.limits, l.1 = r + 1) →
           told t q (j.limits.foldl (fun m l => max m l.2) (wanted s))) ∧
       (m.kind = 2 → exec (.freqSetApplied port) s = .next s0))) ∧
  (∀ (port : Nat) (s : State) (m : TMsg) (rest : List TMsg) (j : Job), port < 12 → (getTrunk s port).inbox = m :: rest → m.typ = 6 →
     keyJobAt s port m.jkey = some j → getJob s j.id = some j →
     let s0 := putTrunk port { getTrunk s port with inbox := rest } s
     let job := fun (t : State) (j' : Job) => getJob t j.id = some j' ∧ ∀ i, i ≠ j.id → getJob t i = getJob s i
     let goesOn := fun (t : State) => Noted { s0 with jobs := t.jobs, cores := t.cores, trunks := t.trunks } t ∧
       (∀ k ∈ jobSites j, (getCore t k).stream.state = .running ∧ (getCore t k).slab.words = (getCore s k).slab.words ∧
         (getCore t k).aregs = (getCore s k).aregs) ∧
       ∀ k, k ∉ jobSites j → getCore t k = getCore s k
     (m.kind = 1 → m.dstRank = treeRank j → m.dstRank < 0xFE →
       (jobRuns j = false ∨ (m.srcRank, m.id) ∈ j.arrived → exec (.completeArrived port) s = .next s0) ∧
       (jobRuns j = true → (m.srcRank, m.id) ∉ j.arrived →
         (j.atStop = none → ∃ t, exec (.completeArrived port) s = .next t ∧ t = { s0 with jobs := t.jobs } ∧
           job t { j with arrived := j.arrived ++ [(m.srcRank, m.id)] }) ∧
         (∀ a q, j.atStop = some a → a.k = m.id → a.released = false → a.final = false → a.outDone = true → a.exBusy = false →
           j.exch = [] → treeRank j = 0 → treeSize j = 2 → m.srcRank = 1 → treePorts j = [q] → j.saves = [] → j.shed = [] →
           j.retire = [] → j.halted = false → j.suspect = false → arbsTaken s j = true →
           (∀ k ∈ jobSites j, (getCore s k).stream.state = .arrived) →
           ∃ t u, exec (.completeArrived port) s = .next t ∧ job t u ∧ u.atStop = none ∧ goesOn t ∧
             ∀ x, getTrunk t x = if x = q then queueMsg (getTrunk s0 q) { TMsg.blank with
               typ := 6, kind := 2, id := a.k, srcRank := 0, dstRank := 0xFE, jkey := j.jkey } false else getTrunk s0 x))) ∧
     (m.kind = 2 → m.dstRank = 0xFE →
       (∀ a, j.atStop = some a → a.k = m.id → a.final = false → a.outDone = true → a.exBusy = false →
         j.exch = [] → treeRank j ≠ 0 → j.saves = [] → j.shed = [] → j.retire = [] → j.halted = false → j.suspect = false →
         arbsTaken s j = true → (∀ k ∈ jobSites j, (getCore s k).stream.state = .arrived) →
         ∃ t, exec (.completeRelease port) s = .next t ∧ job t { j with atStop := none, devSave := none } ∧ goesOn t) ∧
       ((∀ a, j.atStop = some a → a.k ≠ m.id) → ∃ t, exec (.completeRelease port) s = .next t ∧ t = { s0 with trunks := t.trunks })) ∧
     (m.kind = 3 → j.saves = [] → j.resuming = none → j.retire = [] → j.waits = [] →
       ∃ t v u, exec (.completeJobEnd port) s = .next t ∧ Reported v t ∧
         Noted { s0 with
           cores := t.cores, jobs := v.jobs, hbm := unmapPages s.hbm j.id, queues := t.queues, meter := t.meter, trunks := v.trunks
           box := { s.box with finished := t.box.finished, spares := t.box.spares, suspects := t.box.suspects
                               replaying := t.box.replaying, replayBad := t.box.replayBad } } v ∧
         getJob t j.id = some u ∧ u.ended = true ∧ u.st = 0 ∧ u.place = none ∧ u.ready = [] ∧ u.sel = [] ∧
         jobRun t.hbm j.id = none ∧
         t.box.finished.map (fun f => (f.ticket, f.status)) =
           s.box.finished.map (fun f => (f.ticket, f.status)) ++ (ownReqs j).map (fun r => (r.ticket, 3)) ∧
         (∀ k ∈ jobSites j, (getCore t k).place.placed = false ∧ (getCore t k).stream.state = .idle) ∧
         (∀ k, k ∉ jobSites j → getCore t k = getCore s k) ∧
         ∀ q, (getQ t.queues q).en = ((getQ s.queues q).en && !decide ((getQ s.queues q).job = j.id))))

/-- A forwarded command is accepted by the member that it names, an ADMIT_JOB of several modules with the place in the tree that the
member keeps, and one that breaks the common rules is answered FORMAT_REJECTED; the leader's command ends when the last member
has answered, with the first failing status in rank order; an admission not answered in time ends NO_CAPACITY, and its job is
gone. An announced request joins the leader's ready list, and a member begins a step that its leader dispatches once it stands
between steps, the padding rows zero. Nothing else changes. The host port to which a forwarded command answers is the model's
choice (assumption 30). -/
def Obligations.CommandsReachEveryMember : Prop :=
  (∀ (port : Nat) (s : State) (m : TMsg) (rest : List TMsg), port < 12 → (getTrunk s port).inbox = m :: rest →
    let s0 := putTrunk port { getTrunk s port with inbox := rest } s
    let d := m.inl.take 64
    let taken := fun (t : State) (relays : List Relay) =>
      (ctlDescOk d = true → ∃ c, t = { s0 with box := { s.box with
          acc := s.box.acc + 1, accepted := s.box.accepted ++ [c], relays := relays } } ∧
        c.origin = port + 2 ∧ c.desc = d ∧ c.data = m.data ∧ c.srcId = m.id ∧ c.jkey = m.jkey ∧ c.rank = m.dstRank) ∧
      (ctlDescOk d = false → t = { s0 with
          trunks := t.trunks, box := { s.box with acc := s.box.acc + 1, relays := relays, rejected := t.box.rejected } } ∧
        ∀ q, getTrunk t q = if q = port then queueMsg (getTrunk s0 port) { TMsg.blank with
            typ := 6, kind := 0, srcRank := m.dstRank, dstRank := 0, jkey := m.jkey, id := m.id, arg := 5
            inl := padTo 32 [] ++ bytesLE 4 0 } false else getTrunk s q)
    (m.typ = 5 → m.kind = 0 → m.dstRank < 0xFE →
      (∀ j, dfield m.inl 0 1 ≠ 1 → keyJobAt s port m.jkey = some j → m.dstRank = treeRank j →
        ∃ t, exec (.submitCommand port) s = .next t ∧ taken t s.box.relays) ∧
      (dfield m.inl 0 1 = 1 → dfield d 1 1 % 2 = 1 → ∃ t, exec (.submitCommand port) s = .next t ∧ taken t s.box.relays) ∧
      (∀ b, dfield m.inl 0 1 = 1 → dfield d 1 1 % 2 = 0 → parseMulti (m.data.take (dfield d 4 4)) = some b →
        (b.members.findIdx? (fun x => decide (x = s.fuses.moduleId)) = some m.dstRank →
          ∃ t, exec (.submitCommand port) s = .next t ∧ taken t ((s.box.relays.filter fun x => !decide (x.jkey = m.jkey)) ++
            [{ jkey := m.jkey, rank := m.dstRank, up := port, downs := (treeLinks s b.members m.dstRank).2 }])) ∧
        (b.members.findIdx? (fun x => decide (x = s.fuses.moduleId)) = none → exec (.submitCommand port) s =
          .next (putTrunk port { getTrunk s0 port with drops := min 65535 ((getTrunk s port).drops + 1) } s0)))) ∧
    (∀ j : Job, getJob s j.id = some j →
      let job := fun (t : State) (j' : Job) => getJob t j.id = some j' ∧ ∀ i, i ≠ j.id → getJob t i = getJob s i
      (m.typ = 5 → m.kind = 1 → keyJobAt s port m.jkey = some j → m.dstRank = treeRank j → m.dstRank < 0xFE →
        ∃ t, exec (.submitAnnounce port) s = .next t ∧ job t { j with ready := insertReq (announced s m) j.ready } ∧
          t = { s0 with jobs := t.jobs, box := { s.box with acc := s.box.acc + 1 } }) ∧
      (m.typ = 5 → m.kind = 2 → keyJobAt s port m.jkey = some j → m.dstRank = 0xFE →
        (∀ e, j.st ∈ [1, 5] → stepOpen s j = true → j.early = [] → j.pkg.buckets[m.arg]? = some e →
          let es := (List.range (m.data.length / 16)).map fun i => (m.data.drop (16 * i)).take 16
          let d0 := ((es.map (dispatchedReq j)).map fun r => r.dims.getD 0 0).sum
          ∃ t u, exec (.submitDispatch port) s = .next t ∧ job t u ∧ u.loading = true ∧ u.steps = m.id - 1 ∧
            u.bucket = some m.arg ∧ u.sel.map (·.ticket) = es.map (byteField · 0 8) ∧ u.awaitRows = es.map (byteField · 8 4) ∧
            u.dispatched = j.dispatched ∧
            t = { unitWrite (boxUnit s) j.id (j.pkg.arenaVa + d0 * j.inRow)
                    (List.replicate ((e.dims.getD 0 0 - d0) * j.inRow) 0#8) [] s with
              jobs := t.jobs, trunks := t.trunks }) ∧
        (j.st ∈ [1, 5] → stepOpen s j = false → rest = [] → exec (.submitDispatch port) s = .next s) ∧
        (j.st ∉ [1, 5] → ∃ t, exec (.submitDispatch port) s = .next t ∧ t = { s0 with trunks := t.trunks })) ∧
      (m.typ = 6 → m.kind = 0 → ∀ w, waitingJob s m.jkey m.id = some j → j.ended = false → j.waits = [w] → w.cmd.ticket = m.id →
        w.op ≠ 1 → w.cmd.origin ≥ 14 →
        let fs := if m.arg = 0 then w.fails else w.fails ++ [(m.srcRank, m.arg)]
        ∃ t u, exec (.completeCommand port) s = .next t ∧ job t u ∧
          t = { s0 with jobs := t.jobs, box := { s.box with finished := t.box.finished, rejected := t.box.rejected } } ∧
          (w.ranks = [m.srcRank] → u = { j with waits := [] } ∧
            ∃ f, t.box.finished = s.box.finished ++ [f] ∧ f.ticket = m.id ∧ f.status = firstFail fs ∧ f.port = w.cmd.origin - 14) ∧
          (∀ r l, w.ranks = m.srcRank :: r :: l → r ≠ m.srcRank → t.box.finished = s.box.finished ∧
            ∃ x, u = { j with waits := [x] } ∧ x.fails = fs ∧ m.srcRank ∉ x.ranks ∧ r ∈ x.ranks)))) ∧
  (∀ (s : State) (j : Job), getJob s j.id = some j → j.id < 32 →
    ((∀ w ∈ j.waits, w.op ≠ 1) → exec (.multiAdmitTimeout j.id) s = .next s) ∧
    (∀ w, j.waits = [w] → w.op = 1 → w.cmd.origin ≥ 14 →
      ∃ t f, exec (.multiAdmitTimeout j.id) s = .next t ∧ getJob t j.id = none ∧ (∀ i, i ≠ j.id → getJob t i = getJob s i) ∧
        Noted { s with
          cores := t.cores, jobs := t.jobs, hbm := unmapPages s.hbm j.id, queues := t.queues, meter := t.meter, trunks := t.trunks
          box := { s.box with finished := s.box.finished ++ [f], spares := t.box.spares } } t ∧
        f.ticket = w.cmd.ticket ∧ f.status = 6 ∧ jobRun t.hbm j.id = none ∧
        (∀ k ∈ jobSites j, (getCore t k).place.placed = false ∧ (getCore t k).stream.state = .idle) ∧
        ∀ k, k ∉ jobSites j → getCore t k = getCore s k))

/-- Data between modules: a PUSH TO or BROADCAST of the exchange entry that runs here is written at its destination and ends the
entry, a broadcast going on along the tree, and so is the sum of a COLLECT; it waits for its entry; rows of a step are written,
or kept for the step to come; one outside the job's pages writes nothing and ends the job; a PULL reads, and its DATA writes. -/
def Obligations.ExchangesMoveData : Prop :=
  ∀ (port : Nat) (s : State) (m : TMsg) (rest : List TMsg) (j : Job), port < 12 → (getTrunk s port).inbox = m :: rest →
    keyJobAt s port m.jkey = some j → getJob s j.id = some j →
    let s0 := putTrunk port { getTrunk s port with inbox := rest } s
    let job := fun (t : State) (j' : Job) => getJob t j.id = some j' ∧ ∀ i, i ≠ j.id → getJob t i = getJob s i
    let w := unitWrite (.trunk port) j.id m.addr m.data (m.craz.map (4 * ·)) s
    let written := fun (t : State) => t = { w with jobs := t.jobs, trunks := t.trunks }
    let sent := fun (t : State) (qs : List Nat) (m' : Nat → TMsg) (fast : Bool) => ∀ q, q < 12 →
      getTrunk t q = if q ∈ qs then queueMsg (getTrunk s0 q) (m' q) fast else getTrunk s0 q
    let quiet := fun (t : State) => t.trunks = s0.trunks
    ((m.typ = 7 ∨ m.typ = 9) → m.id < 2 ^ 32 → jobRuns j = true → rangeOk s.hbm j.id true m.addr m.data.length = true →
      (∀ a e, j.exch[m.id]? = some e → j.atStop = some a → a.released = false → a.final = false → treeRank j ≠ 0 →
        let next := fun (t : State) => job t { j with
          collect := none, atStop := some { a with exBusy := false, exNext := a.exNext + 1 } } ∧ written t
        (busyEntry j = some (m.id, e) →
          (m.typ = 7 → m.kind = 0 → ∃ t, exec (.pushTo port) s = .next t ∧ next t ∧ quiet t) ∧
          (m.typ = 7 → m.kind = 1 → (treePorts j).Nodup → ∃ t, exec (.pushBroadcast port) s = .next t ∧ next t ∧
            sent t ((treePorts j).filter fun q => !decide (q = port)) (fun _ => m) false) ∧
          (m.typ = 9 → m.kind = 1 → e.op = 3 → j.collect = none → (j.downPorts.map (·.2)).Nodup →
            ∃ t, exec (.collectDown port) s = .next t ∧ next t ∧ sent t (j.downPorts.map (·.2))
              (fun q => { m with srcRank := treeRank j, dstRank := ((j.downPorts.find? fun d => decide (d.2 = q)).map (·.1)).getD 0 })
              (decide (e.mode = 0)))) ∧
        (busyEntry j = none → rest = [] → m.typ = 7 →
          (m.kind = 0 → exec (.pushTo port) s = .next s) ∧ (m.kind = 1 → exec (.pushBroadcast port) s = .next s)) ∧
        (busyEntry j = none → rest = [] → m.typ = 9 → m.kind = 1 → e.op = 3 → exec (.collectDown port) s = .next s)) ∧
      (j.exch[m.id]? = none → m.typ = 7 →
        (m.kind = 0 → ∃ t, exec (.pushTo port) s = .next t ∧ written t ∧ t.jobs = s.jobs ∧ quiet t) ∧
        (m.kind = 1 → ∃ t, exec (.pushBroadcast port) s = .next t ∧ written t ∧ t.jobs = s.jobs ∧ quiet t))) ∧
    (m.typ = 7 → m.kind = 1 → 2 ^ 32 ≤ m.id → (treePorts j).Nodup → jobRuns j = true →
      rangeOk s.hbm j.id true m.addr m.data.length = true →
      let onward := fun (t : State) => sent t ((treePorts j).filter fun q => !decide (q = port)) (fun _ => m) false
      let left := j.awaitRows.filter fun r => !decide (r = m.arg)
      (j.loading = true → m.id = rowsId (j.steps + 1) → left ≠ [] → ∃ t, exec (.pushBroadcast port) s = .next t ∧ written t ∧
        onward t ∧ job t { j with awaitRows := left }) ∧
      (∀ b e, j.loading = true → m.id = rowsId (j.steps + 1) → left = [] → j.bucket = some b → j.pkg.buckets[b]? = some e →
        arbsTaken s j = true → mayDispatch s = true →
        (∀ k ∈ jobSites j, (getCore s k).stream.state = .idle ∨ (getCore s k).stream.state = .arrived) →
        ∃ t u, exec (.pushBroadcast port) s = .next t ∧
          Noted { w with cores := t.cores, jobs := t.jobs, meter := t.meter, trunks := t.trunks } t ∧ onward t ∧ job t u ∧
          u.dispatched = true ∧ u.loading = false ∧ u.steps = min 0xFFFFFFF (j.steps + 1) ∧
          ∀ k ∈ jobSites j, (getCore t k).stream.state = .running ∧ (getCore t k).place.bucket = b) ∧
      (j.loading = false → m.id > rowsId j.steps → ∃ t, exec (.pushBroadcast port) s = .next t ∧
        t = { s0 with jobs := t.jobs, trunks := t.trunks } ∧ onward t ∧ job t { j with early := j.early ++ [m] })) ∧
    (m.typ = 7 → m.kind = 0 → jobRuns j = true → rangeOk s.hbm j.id true m.addr m.data.length = false →
      ∃ t u, exec (.pushTo port) s = .next t ∧ getJob t j.id = some u ∧ u.ended = true ∧ t.hbm.words = s.hbm.words ∧
        ∀ k, k ∉ jobSites j → getCore t k = getCore s k) ∧
    (m.typ = 7 → m.kind = 0 → jobRuns j = false → exec (.pushTo port) s = .next s0) ∧
    (m.typ = 8 → m.kind = 0 →
      (rangeOk s.hbm j.id false m.addr m.arg = true →
        let r := unitRead (.trunk port) j.id m.addr m.arg s
        ∃ t z, exec (.pullReq port) s = .next t ∧ t = { r.2 with trunks := t.trunks } ∧
          (∀ k, k ∈ z ↔ k < m.arg / 4 ∧ ((r.1.drop (4 * k)).take 4).any (·.2) = true) ∧
          sent t [port] (fun _ => { TMsg.blank with
            typ := 8, kind := 1, srcRank := treeRank j, dstRank := m.srcRank, jkey := j.jkey, id := m.id, addr := byteField m.inl 0 8
            data := r.1.map (·.1), craz := z }) false) ∧
      (rangeOk s.hbm j.id false m.addr m.arg = false → ∃ t u, exec (.pullReq port) s = .next t ∧ getJob t j.id = some u ∧
        u.ended = true ∧ t.hbm.words = s.hbm.words)) ∧
    (m.typ = 8 → m.kind = 1 →
      (rangeOk s.hbm j.id true m.addr m.data.length = true →
        ∃ t, exec (.pullData port) s = .next t ∧ written t ∧ t.jobs = s.jobs ∧ quiet t) ∧
      (rangeOk s.hbm j.id true m.addr m.data.length = false → ∃ t u, exec (.pullData port) s = .next t ∧ getJob t j.id = some u ∧
        u.ended = true ∧ t.hbm.words = s.hbm.words))

/-- An exchange entry starts on its members: a PUSH leaves its source, its destination waits, one that concerns neither is passed,
and a COLLECT's leaf sends its partial up; at rank 0 the last child's partial is added, and the sum is written and goes down. A
pair's equal digests are a match; different ones halt both modules, and the records name the lowest virtual core that differs; a
digest not answered in 1 s is a partner that left. Nothing else changes. -/
def Obligations.CollectsAndLockStep : Prop :=
  (∀ (s : State) (j : Job) (a : AtStop), getJob s j.id = some j → j.id < 32 → jobAdmitted j = true →
    jobRuns j = true → j.atStop = some a →
    let job := fun (t : State) (j' : Job) => getJob t j.id = some j' ∧ ∀ i, i ≠ j.id → getJob t i = getJob s i
    (a.exBusy = true ∨ (stopEntries j a)[a.exNext]? = none → exec (.exchangeEntry j.id) s = .next s) ∧
    ∀ (i : Nat) (e : ExEnt), a.exBusy = false → a.released = false → a.final = false → j.arrived = [] → treeSize j > 1 →
    (stopEntries j a)[a.exNext]? = some (i, e) →
    let r := unitRead (dataUnit s j) j.id e.src e.bytes s
    let busy := { j with atStop := some { a with exBusy := true } }
    let next := { j with collect := none, atStop := some { a with exBusy := false, exNext := a.exNext + 1 } }
    let sent := fun (t : State) (p : Nat) (m : TMsg) (fast : Bool) => t = { r.2 with jobs := t.jobs, trunks := t.trunks } ∧
      (∀ q, getTrunk t q = if q = p then queueMsg (getTrunk s q) m fast else getTrunk s q) ∧
      ∀ k, k ∈ m.craz ↔ k < e.bytes / 4 ∧ ((r.1.drop (4 * k)).take 4).any (·.2) = true
    let go := fun (j' : Job) (q : State → Prop) => ∃ t, exec (.exchangeEntry j.id) s = .next t ∧ job t j' ∧ q t
    (e.op = 1 → e.from_ = treeRank j → ∀ p, portTo j e.to_ = some p → ∃ z, go next fun t => sent t p { TMsg.blank with
      typ := 7, kind := 0, srcRank := treeRank j, dstRank := e.to_, jkey := j.jkey, id := i, addr := e.dst
      data := r.1.map (·.1), craz := z } false) ∧
    ((e.op = 1 ∧ e.to_ = treeRank j ∧ e.from_ ≠ treeRank j) ∨ (e.op = 2 ∧ e.from_ ≠ treeRank j) →
      go busy fun t => t = { s with jobs := t.jobs }) ∧
    (e.op = 1 → e.to_ ≠ treeRank j → e.from_ ≠ treeRank j → go next fun t => t = { s with jobs := t.jobs }) ∧
    (e.op = 3 → kidRanks j = [] → treeRank j ≠ 0 → ∀ p, j.upPort = some p →
      ∃ z, go { busy with collect := none } fun t => sent t p { TMsg.blank with
        typ := 9, kind := 0, srcRank := treeRank j, dstRank := rankParent (treeRank j), jkey := j.jkey, id := i, addr := e.dst
        data := ofElems (toElems (r.1.map (·.1))), craz := z } (decide (e.mode = 0))) ∧
    (e.op = 3 → ∀ k l, kidRanks j = k :: l → ∃ c, go { busy with collect := some c } fun t =>
      t = { r.2 with jobs := t.jobs } ∧ c.entry = i ∧ c.acc = toElems (r.1.map (·.1)) ∧ c.kids = [])) ∧
  (∀ (port : Nat) (s : State) (m : TMsg) (rest : List TMsg) (j : Job), port < 12 → (getTrunk s port).inbox = m :: rest →
    keyJobAt s port m.jkey = some j → getJob s j.id = some j →
    let s0 := putTrunk port { getTrunk s port with inbox := rest } s
    let job := fun (t : State) (j' : Job) => getJob t j.id = some j' ∧ ∀ i, i ≠ j.id → getJob t i = getJob s i
    (∀ e, m.typ = 9 → m.kind = 0 → jobRuns j = true → rangeOk s.hbm j.id true m.addr m.data.length = true → j.exch[m.id]? = some e →
      e.op = 3 →
      (busyEntry j = none → rest = [] → exec (.collectUp port) s = .next s) ∧
      ∀ a c p, busyEntry j = some (m.id, e) → j.collect = some c → c.kids = [] → treeRank j = 0 → treeSize j = 2 →
      m.srcRank = 1 → j.downPorts = [(1, p)] → j.arrived = [] → j.atStop = some a → a.released = false → a.final = false →
      let sum := (c.acc.zip (toElems m.data)).map (fun x => fpAdd x.1 x.2)
      let z := (c.craz ++ m.craz).eraseDups
      ∃ t, exec (.collectUp port) s = .next t ∧
        job t { j with collect := none, atStop := some { a with exBusy := false, exNext := a.exNext + 1 } } ∧
        t = { unitWrite (dataUnit s j) j.id e.dst (ofElems sum) (z.map (4 * ·)) s with jobs := t.jobs, trunks := t.trunks } ∧
        ∀ q, getTrunk t q = if q = p then queueMsg (getTrunk s0 q) { TMsg.blank with
          typ := 9, kind := 1, srcRank := 0, dstRank := 1, jkey := j.jkey, id := m.id, addr := e.dst, data := ofElems sum
          craz := z } (decide (e.mode = 0)) else getTrunk s0 q) ∧
    (∀ q, m.typ = 10 → m.kind = 0 → j.pair = some q →
      (∀ st k d, m.data = [] → q.mine = [(st, k, d)] → q.theirs = [] → m.id = st → j.atStop = none →
        (m.inl.take 32 = d → ∃ t, exec (.digest port) s = .next t ∧
          t = { s0 with jobs := t.jobs, box := { s.box with matched := (s.box.matched + 1) % 2 ^ 32 } } ∧
          job t { j with pair := some { q with mine := [], theirs := [] } }) ∧
        (m.inl.take 32 ≠ d → ∃ t, exec (.digest port) s = .next t ∧
          job t { j with sel := [], pair := some { q with mine := [], theirs := [], bad := some (st, k) } } ∧
          Noted { s0 with
            jobs := t.jobs, cores := t.cores, trunks := t.trunks, meter := t.meter
            box := { s.box with finished := t.box.finished } } t ∧
          (∀ y ∈ jobSites j, (getCore t y).stream.haltEn = true ∧ (getCore t y).stream.haltAt = (j.stopCount + 1) % 2 ^ 32 ∧
            (getCore t y).slab.words = (getCore s y).slab.words) ∧
          (∀ y, y ∉ jobSites j → getCore t y = getCore s y) ∧
          t.box.finished.map (fun f => (f.ticket, f.status)) = s.box.finished.map (fun f => (f.ticket, f.status)) ++
            (j.sel.filter fun r => !r.inFailed && !r.orphan && decide (r.rank = treeRank j) && q.primary).map fun r => (r.ticket, 3))) ∧
      (∀ bad r v, m.data ≠ [] → q.bad = some bad → q.records.find? (fun r => decide (r.1 = bad.2)) = some r →
        firstDiffer r.2 m.data = some v →
        ∃ t, exec (.digest port) s = .next t ∧
          Noted { s0 with box := { s.box with lockValid := true, lockStep := bad.1, lockStop := bad.2, lockVcid := v } } t ∧
          t.errlog.nextSeq = (s.errlog.nextSeq + 1) % 2 ^ 32) ∧
      (m.data ≠ [] → q.bad = none → rest = [] → exec (.digest port) s = .next s))) ∧
  (∀ (s : State) (j : Job), getJob s j.id = some j → j.id < 32 → j.ended = false →
    (j.pair = none → exec (.digestTimeout j.id) s = .next s) ∧
    ∀ q, j.pair = some q →
      (q.mine = [] ∨ q.theirs ≠ [] → exec (.digestTimeout j.id) s = .next s) ∧
      (q.mine ≠ [] → q.theirs = [] → ∃ t, exec (.digestTimeout j.id) s = .next t ∧
        PartnerGone q.port (getTrunk s q.port) s t))

/-! ### Recovery -/

/-- A recovery that is due halts the job's cores, discards what they have queued, returns its step's requests to the ready list and
is counted, unless the same fault has come again or a fourth recovery would start: then the job ends; with a reset near it
waits. 2^20 cc after the halt what has not completed is abandoned. Then, with no reset near, the job is placed again: from its
device save or its checkpoint when AUTO is set, else RESUME_WAIT; with neither a save nor a page that holds state it starts
again from admission, its memory zero; with no placement it ends. No core of another job changes. That a recovery is two
RECOVERY commands, the halt and the new placement, is the model's choice (assumption 41). -/
def Obligations.JobsRecover : Prop :=
  ∀ (s : State) (j : Job) (b : HostBuf), getJob s j.id = some j → j.id < 32 → j.ended = false → j.saves = [] →
    let others := fun (t : State) => ∀ k, k ∉ jobSites j → getCore t k = getCore s k
    (∀ c, j.cause = some c → (resetNear s j false = true ∨ (j.suspect = true ∧ j.st = 2) → exec (.recovery j.id b) s = .next s) ∧
      (resetNear s j false = false → j.st ≠ 2 → treeSize j ≤ 1 →
        (faultEnds j c.code c.vcid c.icount = none →
          ∃ t u, exec (.recovery j.id b) s = .next t ∧ getJob t j.id = some u ∧ (∀ i, i ≠ j.id → getJob t i = getJob s i) ∧
            Noted { s with
              cores := t.cores, jobs := t.jobs, meter := t.meter, mesh := { s.mesh with fields := t.mesh.fields }
              hbm := t.hbm } t ∧
            (c.site = none ∨ c.dump = none → t.hbm = s.hbm ∧ t.mesh = s.mesh ∧ t.errlog.dumpsUnsaved = s.errlog.dumpsUnsaved) ∧
            (∀ x i, c.site = some x → c.dump = some i → ∃ d, t.errlog.dumpsUnsaved = s.errlog.dumpsUnsaved ++ [d] ∧
              t.hbm = { s.hbm with
                words := t.hbm.words, chans := t.hbm.chans, stks := t.hbm.stks, grants := t.hbm.grants, events := t.hbm.events } ∧
              let a := dumpAddr ((siteField x + 4) % 8) i
              ∀ y, 8 * y < a ∨ a + d.length + 31 ≤ 8 * y → smGet 0#72 t.hbm.words y = smGet 0#72 s.hbm.words y) ∧
            u.st = 2 ∧ u.cause = none ∧ u.sel = [] ∧ u.bucket = none ∧
            u.atStop = none ∧ u.recoveries = min 255 (j.recoveries + 1) ∧ u.lastCode = c.code ∧ u.lastVcid = c.vcid ∧
            u.lastIcount = c.icount ∧ u.lastSame = true ∧ u.place = j.place ∧ u.table = j.table ∧ (∀ r ∈ j.ready, r ∈ u.ready) ∧
            (∀ r ∈ j.sel, r.inFailed = false → r.orphan = false → treeRank j = 0 → r.ticket ∈ u.ready.map (·.ticket)) ∧
            t.errlog.recoveries = min 65535 (s.errlog.recoveries + 1) ∧
            (∀ k ∈ jobSites j, let x := getCore t k
              x.stream.haltEn = true ∧ x.queue = [] ∧ x.qmat = [] ∧ x.qxfer = [] ∧ x.qsync = [] ∧
              x.stream.state = (if (getCore s k).stream.state = .faulted then .faulted else .halted) ∧
              x.started = (getCore s k).started ∧ x.slab.words = (getCore s k).slab.words) ∧ others t) ∧
        (∀ st, faultEnds j c.code c.vcid c.icount = some st →
          ∃ t u, exec (.recovery j.id b) s = .next t ∧ getJob t j.id = some u ∧ u.place = none ∧ u.ready = [] ∧ u.sel = [] ∧
            (if st = 8 then u.st = 4 ∧ u.ended = false ∧ t.hbm = s.hbm else u.ended = true ∧ jobRun t.hbm j.id = none) ∧
            t.hbm.words = s.hbm.words ∧ (∀ k ∈ jobSites j, (getCore t k).place.placed = false ∧ (getCore t k).stream.state = .idle) ∧
            others t))) ∧
    (j.st = 2 → j.haltOver = false →
      ∃ t, exec (.recoveryHaltTimeout j.id) s = .next t ∧ getJob t j.id = some { j with haltOver := true } ∧
        (∀ i, i ≠ j.id → getJob t i = getJob s i) ∧ Noted { s with cores := t.cores, jobs := t.jobs, mesh := t.mesh } t ∧
        (∀ k ∈ jobSites j, workDone (getCore t k) = true ∧ (getCore t k).slab.words = (getCore s k).slab.words) ∧ others t) ∧
    (j.st ≠ 2 ∨ j.haltOver = true → exec (.recoveryHaltTimeout j.id) s = .next s) ∧
    (j.cause = none → j.st ≠ 2 ∨ j.suspect = true ∨ retirable s j = false → exec (.recovery j.id b) s = .next s) ∧
    (j.cause = none → j.st = 2 → j.suspect = false → retirable s j = true → j.retire = [] → j.shed = [] →
      let free := unplaceJob j.id s
      let p := choosePlace (usable free) (heldPlaces free) j.pkg.vw j.pkg.vh j.oldPlace
      ∃ t u, exec (.recovery j.id b) s = .next t ∧ getJob t j.id = some u ∧
        (∀ k, k ∉ jobSites j → (∀ y, p = some y → ∀ e ∈ placeTable (usable free) y j.pkg.vw j.pkg.vh, e.site ≠ k) →
          getCore t k = { getCore s k with fenced := (getCore t k).fenced }) ∧
        (j.devSave = none → j.ckpt = none → holdsState s j = true → u.ended = true) ∧
        (j.devSave = none → j.ckpt = none → holdsState s j = false →
          (p = none → u.ended = true) ∧
          (∀ x, p = some x → u.st = 1 ∧ u.place = some x ∧ u.steps = 0 ∧ u.stopCount = 0 ∧ u.dispatched = false ∧
            t.hbm = zeroJobPages s.hbm j.id ∧
            ∀ e ∈ u.table, (getCore t e.site).stream.state = .idle ∧ (getCore t e.site).place.job = j.id ∧
              (getCore t e.site).slab.words = [])) ∧
        (∀ d x, j.devSave = some d → d.valid = true → p = some x →
          (j.auto = true → u.st = 1 ∧ u.place = some x ∧ u.stopCount = d.stop ∧ u.steps = d.steps ∧ u.bucket = d.bucket ∧
            (∃ a, u.atStop = some a ∧ a.k = d.stop) ∧ t.box.resumes = min 65535 (s.box.resumes + 1)) ∧
          (j.auto = false → u.st = 3 ∧ u.place = some x ∧ t.box.resumes = s.box.resumes)) ∧
        (∀ ck x, j.devSave = none → j.ckpt = some ck → p = some x →
          (j.auto = false ∨ portPresent (getHost s ck.port) = false → u.st = 3 ∧ u.place = some x ∧ t.box.resumes = s.box.resumes) ∧
          (j.auto = true → portPresent (getHost s ck.port) = true → (fillRead ck.len b).2 = [] →
            let f : SaveFile := { bytes := (fillRead ck.len b).1, failed := [] }
            (saveOk j f = true → u.st = 1 ∧ u.place = some x ∧ u.stopCount = fieldLE f.bytes 0x10 4 ∧
              (∃ a, u.atStop = some a ∧ a.k = fieldLE f.bytes 0x10 4) ∧ t.box.resumes = min 65535 (s.box.resumes + 1)) ∧
            (saveOk j f = false → u.st = 3 ∧ u.place = none ∧ t.box.resumes = s.box.resumes))))

/-- A heartbeat that a placed core misses twice in a row is a hang: its job's partitions are to be reset, and it recovers; one that
a channel misses twice has its partition reset. A reset that is due begins: the partition is out of service, its ports close,
its cores are cleared and fenced, its pages marked CRAZED, its jobs halted with a recovery due; it ends with the partition back,
its stacks trained and its good sites free, or, with a stack that fails, a field rail that is off, or after 1.5 s, with the
partition out of service; a job that has lost pages with W clear ends with RELOAD_NEEDED. A suspect's replay is its recovery,
from admission where it has no save; a replay in which no core arrives in time has its job quarantined, with its partitions to
be reset and it as the only suspect. Else neither command does anything. That a suspect's replay is a command of its own is the
model's choice (assumption 41). -/
def Obligations.HangsAndReplays : Prop :=
  ((∀ (s : State), exec (.heartbeatTimer [] []) s =
     .next { s with box := { s.box with heartbeat := (s.box.heartbeat + 1) % 2 ^ 64, beats := [] } }) ∧
   (∀ (x : Nat) (s : State) (j : Job), siteOk x = true → (getCore s x).place.placed = true → getJob s j.id = some j →
     (getCore s x).place.job = j.id →
     let box := { s.box with heartbeat := (s.box.heartbeat + 1) % 2 ^ 64 }
     (smGet 0 s.box.beats x = 0 → exec (.heartbeatTimer [x] []) s = .next { s with box := { box with beats := [(x, 1)] } }) ∧
     (smGet 0 s.box.beats x ≥ 1 → mayRecover j = false →
       exec (.heartbeatTimer [x] []) s = .next { s with box := { box with beats := [] } }) ∧
     (smGet 0 s.box.beats x ≥ 1 → mayRecover j = true → s.box.replaying = none →
       ∃ t, exec (.heartbeatTimer [x] []) s = .next t ∧
         t = { s with jobs := t.jobs, box := { box with beats := [], resets := t.box.resets } } ∧
         getJob t j.id = some { j with cause := some Cause.plain } ∧ (∀ i, i ≠ j.id → getJob t i = getJob s i) ∧
         (∀ p ∈ jobParts j, p ∉ s.box.partsOut → ∃ r ∈ t.box.resets, r.part = p ∧ (r.begun = false → r.hang = true)) ∧
         ∀ r ∈ t.box.resets, r.part ∈ jobParts j ∨ r ∈ s.box.resets)) ∧
   (∀ (n : Nat) (s : State), n < 512 →
     let box := { s.box with heartbeat := (s.box.heartbeat + 1) % 2 ^ 64 }
     (smGet 0 s.box.beats (4096 + n) = 0 →
       exec (.heartbeatTimer [] [n]) s = .next { s with box := { box with beats := [(4096 + n, 1)] } }) ∧
     (smGet 0 s.box.beats (4096 + n) ≥ 1 →
       ∃ t, exec (.heartbeatTimer [] [n]) s = .next t ∧ t = { s with box := { box with beats := [], resets := t.box.resets } } ∧
         (n / 64 ∉ s.box.partsOut → ∃ r ∈ t.box.resets, r.part = n / 64))) ∧
   (∀ (p : Nat) (s : State) (tests : List SliceTest) (failed : List CoreTest) (unstable : List (Nat × List Nat)), p < 8 →
     let run := fun (t : State) => exec (.partitionReset p tests failed unstable) s = .next t
     (resetOf s p = none → run s ∧ exec (.partitionResetTimeout p) s = .next s) ∧
     ∀ e : PartRst, resetOf s p = some e →
     (e.begun = false → exec (.partitionResetTimeout p) s = .next s ∧
       ∃ t, run t ∧ partInService t p = false ∧ t.box.partsOut = s.box.partsOut ∧
         (∃ r ∈ t.box.resets, r.part = p ∧ r.begun = true) ∧ t.errlog.partResets = min 65535 (s.errlog.partResets + 1) ∧
         (∀ x ∈ fieldSites p, let c := getCore t x
           c.stream.state = .idle ∧ c.place = Place.reset ∧ c.slab.words = [] ∧ c.queue = [] ∧ c.started = [] ∧ c.fenced = true ∧
           c.slab.spare = (getCore s x).slab.spare ∧ (getPort t.mesh x).closed = true) ∧
         (∀ k, k < 640 → clusterField k = p → (getCluster t k).state = (if (getCluster s k).state = 5 then 5 else 0)) ∧
         (∀ k, k < 640 → clusterField k ≠ p → getCluster t k = getCluster s k) ∧
         (∀ i, pageEntry t.hbm i = (let q := pageEntry s.hbm i
           if entValid q = true ∧ entDev q = false ∧ entPage q / partPages = p then setField q 62 1 1 else q)) ∧
         (∀ y, s.errlog.dumpSlot < 16 → addrPart (8 * y) ≠ (p + 4) % 8 → smGet 0#72 t.hbm.words y = smGet 0#72 s.hbm.words y) ∧
         (∀ r ∈ t.hbm.reqs, r.chan / 64 = p → ∀ q ∈ s.hbm.jobs, q.id ≠ r.job) ∧
         (∀ j, getJob s j.id = some j → j.ended = false → p ∈ jobParts j → j.st = 1 → j.saves = [] → ∃ u, getJob t j.id = some u ∧
           u.st = 2 ∧ u.cause.isSome = true ∧ u.place = j.place ∧ (e.hang = true → e.only = none → u.suspect = true)) ∧
         ∀ j, (s.jobs.map (·.id)).Nodup → getJob s j.id = some j → p ∉ jobParts j → j.devSave = none → getJob t j.id = some j) ∧
     (e.begun = true →
       let lost := unstable.any fun f => decide (f.1 / 2 = p)
       let on := (getRail s.power p).fieldOn
       let out := fun (t : State) => p ∈ t.box.partsOut ∧ (∀ r ∈ t.box.resets, r.part ≠ p) ∧ partInService t p = false
       let reload := fun (t : State) => ∀ j, getJob s j.id = some j → losesWeights s p j = true → ∃ u, getJob t j.id = some u ∧
         u.st = 4 ∧ u.place = none ∧ u.ready = [] ∧ u.sel = []
       ∃ t v, run t ∧ exec (.partitionResetTimeout p) s = .next v ∧ out v ∧ reload v ∧ reload t ∧
         (∀ k, k / 2 = p → (getStack t.hbm k).state = (if on = false then (getStack s.hbm k).state
           else if unstable.any (fun f => decide (f.1 = k)) then 4 else 2)) ∧
         (lost = false → on = true → t.box.partsOut = s.box.partsOut ∧ (∀ r ∈ t.box.resets, r.part ≠ p) ∧
           ((∀ y, (getCore s y).events = []) → ∀ x ∈ fieldSites p,
             let free := coreLive t x && decide ((getCluster t (siteCluster x)).thermState ≤ 1) && !t.box.kiln.contains x &&
               !permanentSite t x
             (getCore t x).fenced = !free ∧ (getPort t.mesh x).closed = !free)) ∧
         (lost = true ∨ on = false → out t)))) ∧
  ((∀ (s : State) (b : HostBuf), nextSuspect s = none → exec (.suspectReplay b) s = .next s) ∧
   (∀ (s : State) (j : Job) (b : HostBuf), nextSuspect s = some j → getJob s j.id = some j → j.ended = false →
     (j.st = 5 → exec (.suspectReplay b) s = .next { s with box := { s.box with replaying := some j.id } }) ∧
     (∀ x, j.st = 2 → j.suspect = true → j.cause = none → j.saves = [] → j.retire = [] → j.shed = [] → j.devSave = none → j.ckpt = none →
       holdsState s j = false →
       choosePlace (usable (unplaceJob j.id s)) (heldPlaces (unplaceJob j.id s)) j.pkg.vw j.pkg.vh j.oldPlace = some x →
       ∃ t u, exec (.suspectReplay b) s = .next t ∧ getJob t j.id = some u ∧ u.st = 5 ∧ u.place = some x ∧ u.steps = 0 ∧
         u.dispatched = false ∧ (∀ i, i ≠ j.id → getJob t i = getJob s i) ∧
         t.box.replaying = some j.id ∧ t.hbm = zeroJobPages s.hbm j.id ∧
         (∀ e ∈ u.table, (getCore t e.site).stream.state = .idle ∧ (getCore t e.site).slab.words = []) ∧
         ∀ k, k ∉ jobSites j → (∀ e ∈ u.table, e.site ≠ k) → getCore t k = { getCore s k with fenced := (getCore t k).fenced })) ∧
   (∀ (s : State) (j : Job), getJob s j.id = some j → j.id < 32 →
     (s.box.replaying ≠ some j.id ∨ j.st ≠ 5 ∨ j.dispatched = false ∨ j.atStop.isSome = true ∨ j.cause.isSome = true ∨
       (∃ x ∈ jobSites j, coreStop (getCore s x) ≠ none) → exec (.replayWatchdog j.id) s = .next s) ∧
     (s.box.replaying = some j.id → j.st = 5 → j.dispatched = true → j.atStop = none → j.cause = none → j.saves = [] →
       (∀ x ∈ jobSites j, coreStop (getCore s x) = none) →
       ∃ t u, exec (.replayWatchdog j.id) s = .next t ∧ getJob t j.id = some u ∧ u.st = 6 ∧ u.place = none ∧ u.ready = [] ∧ u.sel = [] ∧
         t.box.suspects = [j.id] ∧ t.box.replaying = none ∧ t.errlog.quarantines = min 65535 (s.errlog.quarantines + 1) ∧
         t.hbm.entries = s.hbm.entries ∧ t.hbm.runs = s.hbm.runs ∧
         (∀ x ∈ jobSites j, (getCore t x).place.placed = false ∧ (getCore t x).stream.state = .idle) ∧
         (∀ k, k ∉ jobSites j → getCore t k = getCore s k) ∧
         (∀ i x, i ≠ j.id → getJob s i = some x → getJob t i = some { x with suspect := false }) ∧
         ∀ p ∈ jobParts j, p ∉ s.box.partsOut → ∃ r ∈ t.box.resets, r.part = p)))

/-! ### Bring-up, resets, the mailbox -/

/-- Bring-up: a good feed brings the standby plane; step 2 takes signal box A, else B, else NO_BOX; step 3 accepts copy A, else copy
B, else stops with IMAGE; bisque firing starts the clocks at divider 16 and loads its registers, the repairs, the bypass map,
the spare banks and the kiln map, with every local port closed, or stops with MESH_RAIL, PLL, WIRE, whose links the boot record
names, or EDGE; the core self-tests fence what fails and open the other ports of the wave; HBM training holds a failing
partition out and stops when both partitions of a pair fail; glaze firing writes the page map's reserved entries, the RESIDENT
section, the timetables and the image's values; READY follows; a step past its limit stops the module, every rail off. At any
other time each command does nothing. That the boot record names the links (assumption 115) and that a lost spare group needs no
repair (assumption 114) are the model's choices. The order in which the steps' commands come is the model's reading of chapter
20 (assumption 46). -/
def Obligations.BringUp : Prop :=
  ∀ (s : State),
    let b := s.boot
    let stops := fun (i : Instr) (cause : Nat) => ∃ t, exec i s = .next t ∧ t.boot.phase = 9 ∧ t.boot.cause = cause ∧
      t.boot.lastPhase = b.phase ∧ RailsOff t ∧ (4 ≤ b.phase → cause ≠ 6 → t.hosts = s.hosts) ∧ t.flash = s.flash ∧ t.fuses = s.fuses
    (∀ x y strap, b.feedGood = false → 10800 ≤ x ∨ 10800 ≤ y →
      ∃ t, exec (.feedGood x y strap) s = .next t ∧ t = { s with power := { s.power with feeds := t.power.feeds }, boot := t.boot } ∧
        t.boot.standby = true ∧ t.boot.feedGood = true ∧ t.boot.phase = 0 ∧ t.boot.smbAddr = strap % 8 ∧ t.boot.flashClosed = false ∧
        t.power.feeds = { readFeeds s.power.feeds x y with onB := decide (x < 10800) }) ∧
    (∀ x y strap, b.feedGood = true ∨ x < 10800 ∧ y < 10800 → exec (.feedGood x y strap) s = .next s) ∧
    (∀ okA okB, b.feedGood = true → b.box2 = false → b.noBox = false → b.phase ≠ 9 →
      ∃ t, exec (.signalBoxSelfTest okA okB) s = .next t ∧ t = { s with boot := t.boot } ∧
        ((okA || okB) = true → t.boot.box2 = true ∧ t.boot.boxB = !okA ∧ t.boot.noBox = false ∧
          t.boot.phase = (if s.tripped || s.clock.lost then 0 else if b.inReset then 1 else 3)) ∧
        ((okA || okB) = false → t.boot = { b with noBox := true })) ∧
    (∀ okA okB, b.feedGood = false ∨ b.box2 = true ∨ b.noBox = true ∨ b.phase = 9 →
      exec (.signalBoxSelfTest okA okB) s = .next s) ∧
    (∀ readOk sigOk v, b.phase = 3 →
      let h := flashBytes s.flash (if b.checkB then 0x10000000 else 0) 0x300
      let r := imageResult h readOk sigOk s.fuses
      let i := Instr.imageCheck b.checkB readOk sigOk v
      (r = 1 → ∃ t, exec i s = .next t ∧ t = { s with boot := t.boot, trunks := t.trunks } ∧
        (∀ n, n < 12 → getTrunk t n = { getTrunk s n with present := (getTrunk s n).rawPresent }) ∧ t.boot.phase = 4 ∧ t.boot.copyB = b.checkB ∧
        t.boot.version = fieldLE h 0x10 4 ∧ t.boot.image = some { v with version := fieldLE h 0x10 4 } ∧
        (if b.checkB then t.boot.bResult else t.boot.aResult) = 1) ∧
      (r ≠ 1 → b.checkB = false → exec i s = .next { s with boot := { b with aResult := r, checkB := true } }) ∧
      (r ≠ 1 → b.checkB = true → stops i 1)) ∧
    (∀ found, b.phase = 4 →
      (found.meshOk = false → stops (.bisqueFiring found) 5) ∧
      (found.meshOk = true → meshRailsOk (startMeshRails s) = false → stops (.bisqueFiring found) 5) ∧
      (found.meshOk = true → meshRailsOk (startMeshRails s) = true →
        let v := imageVals s
        let cut := edgeCut (((v.badRouters ++ found.routers).filter siteOk).eraseDups)
        (found.pllA = false → found.pllB = false → stops (.bisqueFiring found) 2) ∧
        ((found.pllA || found.pllB) = true →
          (brokenLinks found.groups ≠ [] → stops (.bisqueFiring found) 3 ∧ ∀ t, exec (.bisqueFiring found) s = .next t → b.box2 = true →
            t.boot.records = b.records ++ [{ phase := 4, cause := 3, links := brokenLinks found.groups }]) ∧
          (brokenLinks found.groups = [] → cut = true → stops (.bisqueFiring found) 4) ∧
          (brokenLinks found.groups = [] → cut = false →
            ∃ t, exec (.bisqueFiring found) s = .next t ∧ t = { s with
                boot := t.boot, clock := t.clock, mesh := t.mesh, hbm := { s.hbm with arbs := t.hbm.arbs }, power := t.power, box := t.box
                cores := t.cores, errlog := t.errlog, history := { s.history with time := s.history.savedTime }, meter := t.meter } ∧
              t.boot = { b with phase := 5, pllB := !found.pllA } ∧
              t.clock = { s.clock with
                locked := true, selB := !found.pllA, div := 16, fastest := s.fuses.grade.fastest
                monTh := v.monTh, droopTh := v.droopTh } ∧
              t.errlog = { s.errlog with nextSeq := s.errlog.flashSeq } ∧ t.meter = { s.meter with idPub := s.fuses.idPub } ∧
              (∀ f, f < 8 → (getRail t.power f).meshOn = true ∧
                (smGet ArbBank.reset t.mesh.arbs f).ptr = 0 ∧ (smGet ArbBank.reset t.hbm.arbs f).ptr = 0) ∧
              (∀ l, l < 20480 → linkGroups found.groups l = [] → (repairWord found.groups (l / 2)).getLsbD (if l % 2 = 0 then 31 else 15) = false) ∧
              (∀ k, k < 10240 → smGet 0#32 t.mesh.repairs k = repairWord found.groups k) ∧
              (∀ x b, x < 2560 → spareOf s.fuses v s.history x = some b → (getCore t x).slab.spare = some b) ∧
              (∀ x, x < 2560 → x ∈ s.fuses.badSites ∨ x ∈ v.badSites ∨ x ∈ s.box.kiln → x ∈ t.box.kiln) ∧
              ∀ x, x < 2560 → (getPort t.mesh x).closed = true ∧
                ((getPort t.mesh x).bypass = true ↔ x ∈ v.badRouters ∨ x ∈ found.routers))))) ∧
    (b.phase = 5 → b.testsDone < b.wavesDone →
      (∃ t, exec (.coreSelfTest []) s = .next t ∧
        t = { s with boot := t.boot, mesh := t.mesh, box := { s.box with spares := t.box.spares } } ∧
        t.boot = { b with testsDone := b.testsDone + 1, fenced := min 0xFFF b.fenced, phase := if b.testsDone = 19 then 6 else 5 } ∧
        ∀ x, x < 2560 →
          (siteY x % 20 = b.testsDone → coreLive s x = true → (getPort s.mesh x).bypass = false →
            ((getPort t.mesh x).closed = true ↔ x ∈ s.box.kiln ∨ permanentSite s x = true)) ∧
          (siteY x % 20 ≠ b.testsDone ∨ coreLive s x = false ∨ (getPort s.mesh x).bypass = true →
            getPort t.mesh x = getPort s.mesh x)) ∧
      (∀ x, x.site < 2560 → siteY x.site % 20 = b.testsDone → coreLive s x.site = true →
        ∃ t, exec (.coreSelfTest [x]) s = .next t ∧ (getCore t x.site).fenced = true ∧ (getPort t.mesh x.site).closed = true ∧
          x.site ∈ t.box.kiln ∧ t.boot.fenced = min 0xFFF (b.fenced + 1) ∧
          (x.witness = true → x.banks = [] → t.history = (addHistory s.history (unitCore x.site)).1) ∧
          (∀ k, x.witness = false → x.banks = [k] → t.history = (addHistory s.history (unitBank x.site k)).1) ∧
          ∀ y, y < 2560 → y ≠ x.site → (getCore t y).fenced = (getCore s y).fenced ∧ (y ∈ t.box.kiln ↔ y ∈ s.box.kiln))) ∧
    (∀ l, b.phase ≠ 5 ∨ b.wavesDone ≤ b.testsDone → exec (.coreSelfTest l) s = .next s) ∧
    (b.phase = 6 → s.box.partsOut = [] → (∀ p, p < 8 → (getRail s.power p).fieldOn = true) →
      (∀ temps, ∃ t, exec (.hbmTraining temps []) s = .next t ∧
        t = { s with
          boot := { b with phase := 7 }, hbm := { s.hbm with stks := t.hbm.stks }, box := { s.box with spares := t.box.spares } } ∧
        ∀ k, k < 16 → getStack t.hbm k =
          { getStack s.hbm k with state := 2, trainTemp := temps.getD k 0 % 256, temp := temps.getD k 0 % 256 }) ∧
      (∀ temps k l, k < 16 → ∃ t, exec (.hbmTraining temps [(k, l)]) s = .next t ∧ t.boot.phase = 7 ∧ t.box.partsOut = [k / 2] ∧
        (getStack t.hbm k).state = 4) ∧
      (∀ temps k l k' l', k < 8 → k' / 2 = k / 2 + 4 → stops (.hbmTraining temps [(k, l), (k', l')]) 6)) ∧
    (b.phase = 7 → b.glazed = false →
      ∃ t, exec .glazeFiring s = .next t ∧ t.boot = { b with glazed := true } ∧ t.queues = { s.queues with states := [] } ∧
        t.jobs = s.jobs ∧ t.clock = s.clock ∧
        (∀ e, e < 194560 → pageEntry t.hbm e = 0#64) ∧
        (∀ i, i < 2048 → pageEntry t.hbm (194560 + i) =
          BitVec.ofNat 64 (2 ^ 63 + 2 ^ 59 + (i / 256 * 24576 + 24320 + i % 256))) ∧
        (∀ f, f < 8 → (smGet ArbBank.reset t.mesh.arbs f).effV = routerDefault ∧ (smGet ArbBank.reset t.hbm.arbs f).effV = hbmDefault) ∧
        (∀ n, n < 12 → (getTrunk t n).arb.eff = trunkDefault) ∧
        (∀ x, x < 2560 → coreLive s x = true → (getCore t x).arbRd.eff = rdDefault ∧ (getCore t x).arbWr.eff = wrDefault ∧
          (getCore t x).rd.gsg = 0 ∧ (getCore t x).wr.gsg = 0) ∧
        (∀ p k, p < 8 → UnitReaches s (boxUnit s) p → 8 * (k + 1) ≤ (residentBytes s).length → (residentBytes s).length ≤ 32 * 2 ^ 20 →
          smGet 0#72 t.hbm.words ((p * partBytes + partFree * 0x400000 + 656 * 0x100000) / 8 + k) = bytesWord (residentBytes s) k) ∧
        let v := imageVals s
        t.hbm.rate = v.hbmRate ∧ t.power.feeds = { s.power.feeds with bLimit := v.bLimit % 65536 } ∧
          t.power.pm.fastPct = v.fastPct % 256 ∧ t.power.pm.wCol = v.wCol % 65536 ∧ t.power.pm.wSlab = v.wSlab % 65536 ∧
          t.power.pm.wVec = v.wVec % 65536 ∧ t.power.pm.wXfer = v.wXfer % 65536 ∧ t.meter.hUj = v.meterCfg / 2 ^ 32 % 65536 ∧
          t.meter.attrPpm = v.meterCfg % 2 ^ 32 ∧ t.meter.cert = padTo 4096 v.cert) ∧
    (∀ ms, b.phase = 7 → b.glazed = true →
      ∃ t, exec (.ready ms) s = .next t ∧ t = { s with boot := t.boot, clock := t.clock, meter := t.meter, power := t.power } ∧
        t.boot = { b with phase := 8, readyMs := min ms 0xFFFFFFFF } ∧ t.power = { s.power with
          feeds := { s.power.feeds with lastGasp := false }
          pm := { s.power.pm with capDiv := s.clock.div, capW := min (capInEffect s.power s.fuses.grade) 0xFFFF } } ∧ t.clock = ownMaster s.clock ∧
        t.meter = meterFlags (startEpoch s.meter (timeNow s))) ∧
    (3 ≤ b.phase → b.phase ≤ 7 → stops .bootStepTimeout 7) ∧
    (b.phase = 0 → b.feedGood = true → b.box2 = false → b.noBox = false → stops .bootStepTimeout 7) ∧
    (b.phase = 1 ∨ 8 ≤ b.phase ∨ b.phase = 0 ∧ (b.feedGood = false ∨ b.box2 = true ∨ b.noBox = true) →
      exec .bootStepTimeout s = .next s)

/-- MOD_RESET_N: a pulse under 10 us is ignored and counted, one within the millisecond of a reset is part of it, any other resets
the module: everything it holds is gone but flash, fuses, the mailbox and the fault history; with it high for 1 ms step 3
starts. Without the standby plane only flash and fuses keep what they hold. The flash switch closes only with both feeds absent. -/
def Obligations.ResetsAndPlaneLoss : Prop :=
  ∀ (s : State),
    let b := s.boot
    (∀ us, b.standby = true →
      (us < 10 → exec (.modResetLow us) s = .next { s with boot := { b with ignored := min 65535 (b.ignored + 1) } }) ∧
      (10 ≤ us → b.inReset = true → b.held = true → b.resets > 0 →
        exec (.modResetLow us) s = .next { s with boot := { b with coalesced := min 65535 (b.coalesced + 1) } }) ∧
      (10 ≤ us → b.inReset = false ∨ b.held = false ∨ b.resets = 0 →
        ∃ t, exec (.modResetLow us) s = .next t ∧ t.boot.phase = 0 ∧ t.boot.inReset = true ∧ t.boot.held = true ∧ t.boot.box2 = false ∧
          t.boot.resets = min 65535 (b.resets + 1) ∧ t.boot.records = b.records ∧ t.cores = [] ∧ t.jobs = [] ∧ t.mesh = Mesh.reset ∧
          t.hbm = Hbm.reset ∧ t.clock = Clock.reset ∧ t.queues = Queues.reset ∧ t.box = Box.reset ∧ t.tripped = false ∧
          t.fuses = s.fuses ∧ t.flash = s.flash ∧ t.mail = s.mail ∧ t.jtag = s.jtag ∧
          t.history = { s.history with time := 0, query := 0 } ∧ t.power = { Power.reset with feeds := keptFeeds s.power.feeds } ∧
          (∀ p, p < 2 → getHost t p = { HostPort.reset with perst := (getHost s p).perst }) ∧
          (∀ n, n < 12 → getTrunk t n = { TPort.reset with rawPresent := (getTrunk s n).rawPresent }) ∧
          t.meter = { Meter.reset with flash := s.meter.flash } ∧ historyWord t 8 = 0 ∧ t.pending = s.pending)) ∧
    (∀ us, b.standby = false → exec (.modResetLow us) s = .next s ∧ exec .modResetRelease s = .next s ∧
      exec .standbyPlaneLoss s = .next s) ∧
    (b.inReset = false → exec .modResetRelease s = .next s) ∧
    (b.standby = true → b.inReset = true →
      ∃ t, exec .modResetRelease s = .next t ∧ t = { s with boot := t.boot } ∧ t.boot.inReset = false ∧ t.boot.held = false ∧
        t.boot.phase = (if b.box2 ∧ b.phase = 1 then (if s.tripped || s.clock.lost then 0 else 3) else b.phase)) ∧
    (b.standby = true →
      ∃ t, exec .standbyPlaneLoss s = .next t ∧ t.boot.standby = false ∧ t.boot.phase = 0 ∧ t.boot.resets = 0 ∧ t.cores = [] ∧
        t.jobs = [] ∧ t.mesh = Mesh.reset ∧ t.hbm = Hbm.reset ∧ t.mail = Mailbox.reset ∧ t.power = Power.reset ∧
        (∀ p, p < 2 → getHost t p = { HostPort.reset with perst := (getHost s p).perst }) ∧
        (∀ n, n < 12 → getTrunk t n = { TPort.reset with rawPresent := (getTrunk s n).rawPresent }) ∧ t.flash = s.flash ∧ t.fuses = s.fuses ∧ t.jtag = { Jtag.reset with locked := s.jtag.locked } ∧
        t.boot.records = b.records ∧ t.history.records = s.history.records) ∧
    (∀ mv, exec (.flashSwitch mv) s = .next { s with boot := { b with
      flashClosed := decide (s.power.feeds.aGood = false ∧ s.power.feeds.bGood = false ∧ 1710 ≤ mv ∧ mv ≤ 1890) } })

/-- The mailbox: STATUS shows and clears ERROR and REFUSED; while BUSY every other command is not acknowledged; a wrong PEC or byte
count sets ERROR; ADDR and LEN take their bytes, WRITE reaches only the allowed registers, READ advances ADDR or answers zeros
and REFUSED; the flash commands erase and write only a copy that may be written, set BUSY, and change no other byte. The Alert
Response Address gives the module's address. A locked JTAG port falls to BYPASS. The oldest dump goes to its flash slot, whole,
and log entries to theirs; no other byte of the flash changes; HISTORY.TIME counts powered seconds and is saved every tenth.
With nothing to do nothing changes. How long BUSY stands and which errors discard a command (assumption 24), the bytes of open
areas of the flash (assumption 25) and JTAG's instruction at power-up (assumption 22) are the model's choices. -/
def Obligations.MailboxFlashAndJtag : Prop :=
  (∀ (s : State),
     let m := s.mail
     let out := fun (l : List Byte) => s.out ++ [OutMsg.smbus l]
     let writable := fun (o n : Nat) =>
       if s.boot.phase = 9 ∧ s.boot.cause = 1 then o + n ≤ 0x10000000 ∨ 0x10000000 ≤ o ∧ o + n ≤ 0x20000000
       else if s.boot.copyB then o + n ≤ 0x10000000 else 0x10000000 ≤ o ∧ o + n ≤ 0x20000000
     (answersSmbus s = true →
       (exec .mailboxStatus s = .next { s with
         mail := { m with error := false, refused := false }
         out := out [BitVec.ofNat 8 (m.busy.toNat + 2 * m.error.toNat + 4 * m.refused.toNat + 128 * (decide (s.boot.phase = 8)).toNat)] }) ∧
       (m.busy = true → ∀ l n, ∀ i ∈ [Instr.mailboxAddr l true, .mailboxWrite l true, .mailboxLen n true, .mailboxRead,
         .flashErase l true, .flashWrite l true, .flashRead l true], exec i s = .next { s with out := s.out ++ [.nackSmbus] }) ∧
       (m.busy = false →
         (∀ l, l.length = 8 → exec (.mailboxAddr l true) s = .next { s with mail := { m with addr := ofBytesLE l } }) ∧
         (∀ l ok, l.length ≠ 8 ∨ ok = false → exec (.mailboxAddr l ok) s = .next { s with mail := { m with error := true } }) ∧
         (∀ n, 4 ≤ n → n ≤ 32 → exec (.mailboxLen n true) s = .next { s with mail := { m with len := n } }) ∧
         (∀ l, l.length = 4 → m.addr = 0x20000304000 → exec (.mailboxWrite l true) s = .next { s with
           power := { s.power with pm := { s.power.pm with hostCap := ofBytesLE l % 65536 } }, mail := { m with addr := 0x20000304004 } }) ∧
         (∀ l, l.length = 8 →
           let v := ofBytesLE l
           let past := { m with addr := m.addr + 8 }
           (m.addr = 0x20000500030 → exec (.mailboxWrite l true) s = .next { s with
             meter := meterFlags { s.meter with readIdx := v % 2 ^ 40 }, mail := past }) ∧
           (m.addr = 0x20000500038 → exec (.mailboxWrite l true) s = .next { s with
             meter := { s.meter with wbase := v % 2 ^ 40 }, mail := past }) ∧
           (m.addr = 0x2000A000000 → exec (.mailboxWrite l true) s = .next { s with
             errlog := { s.errlog with
               watchdogMs := nbits v 32 16, en1 := nbit v 31, vec1 := nbits v 16 11, en0 := nbit v 15, vec0 := nbits v 0 11 }
             mail := past }) ∧
           (m.addr = 0x2000B000010 → exec (.mailboxWrite l true) s = .next { s with
             history := { s.history with query := v % 2 ^ 32 }, mail := past })) ∧
         (∀ l, l.length = 4 ∨ l.length = 8 → m.addr % l.length ≠ 0 ∨ m.addr / 8 * 8 ∉ [0x20000304000, 0x20000500030, 0x20000500038,
             0x2000A000000, 0x2000B000010] →
           exec (.mailboxWrite l true) s = .next { s with mail := { m with refused := true } }) ∧
         (∀ l, l.length ≠ 4 → l.length ≠ 8 → exec (.mailboxWrite l true) s = .next { s with mail := { m with error := true } }) ∧
         (∀ n, n < 4 ∨ 32 < n → exec (.mailboxLen n true) s = .next { s with mail := { m with error := true } }) ∧
         (∃ t, exec .mailboxRead s = .next t ∧
           (mailReadable m.addr = true → m.len ≤ 32 → t.mail = { m with addr := (m.addr + m.len) % 2 ^ 64 } ∧
             ∃ l, l.length = m.len ∧ t.out = out l) ∧
           (mailReadable m.addr = false → t = { s with mail := { m with refused := true }, out := out (List.replicate m.len 0#8) })) ∧
         (∀ l, l.length = 4 →
           let o := ofBytesLE l / 65536 * 65536
           ∃ t, exec (.flashErase l true) s = .next t ∧ t = { s with flash := t.flash, mail := t.mail } ∧
             (writable o 65536 → t.mail = { m with busy := true } ∧
               ∀ x, smGet 0xFF#8 t.flash x = (if o ≤ x ∧ x < o + 65536 then 0xFF#8 else smGet 0xFF#8 s.flash x)) ∧
             (¬ writable o 65536 → t.mail = { m with refused := true } ∧ t.flash = s.flash)) ∧
         (∀ l, l.length = 132 →
           let o := ofBytesLE (l.take 4)
           ∃ t, exec (.flashWrite l true) s = .next t ∧ t = { s with flash := t.flash, mail := t.mail } ∧
             (writable o 128 → t.mail = { m with busy := true } ∧ flashBytes t.flash o 128 = l.drop 4 ∧
               ∀ x, x < o ∨ o + 128 ≤ x → smGet 0xFF#8 t.flash x = smGet 0xFF#8 s.flash x) ∧
             (¬ writable o 128 → t.mail = { m with refused := true } ∧ t.flash = s.flash)) ∧
         (∀ l, l.length = 4 → ∃ t x, exec (.flashRead l true) s = .next t ∧ t = { s with out := out x, free := s.free + 32 } ∧
           x.length = 32 ∧ ∀ k, k < 32 → flashOpen (ofBytesLE l + k) = false → x[k]? = some (smGet 0xFF#8 s.flash (ofBytesLE l + k)))) ∧
       (alertAsserted s = true → s.boot.smbAddr < 8 →
         ∃ v : Byte, exec .alertResponse s = .next { s with out := out [v] } ∧ v.toNat = 2 * (0x58 + s.boot.smbAddr)) ∧
       (∀ op bits, ∃ t x, exec (.jtagInstruction op bits) s = .next t ∧ x.length = bits.length ∧
         t = { s with jtag := t.jtag, out := s.out ++ [.tdo x], free := s.free + bits.length } ∧ t.jtag.locked = s.jtag.locked ∧
         (∀ n, op = .other n → t.jtag.ir = (if s.jtag.locked then .bypass else .other n)) ∧
         (op = .idcode → t.jtag.ir = .idcode ∧ ∀ k, k < 32 → k < bits.length → x[k]? = some ((0x0A816C4B : Nat).testBit k)) ∧
         (op = .bypass → t.jtag.ir = .bypass ∧ (0 < bits.length → x[0]? = some false) ∧ ∀ k, k + 1 < bits.length → x[k + 1]? = bits[k]?))) ∧
     (answersSmbus s = false → ∀ l n op bits, ∀ i ∈ [Instr.mailboxStatus, .mailboxAddr l true, .mailboxWrite l true, .mailboxLen n true,
       .mailboxRead, .flashErase l true, .flashWrite l true, .flashRead l true, .alertResponse, .jtagInstruction op bits],
       exec i s = .next s) ∧
     (alertAsserted s = false → exec .alertResponse s = .next s) ∧
     (exec .mailboxBusyEnd s = .next { s with mail := { m with busy := false } })) ∧
  (∀ (s : State),
     (∀ d rest, s.errlog.dumpsUnsaved = d :: rest → d.length ≤ 0x800000 →
       let a := 0x21000000 + s.errlog.flashDumps % 4 * 0x800000
       ∃ t, exec .dumpFlashCopy s = .next t ∧ t = { s with
           flash := t.flash, errlog := { s.errlog with dumpsUnsaved := rest, flashDumps := s.errlog.flashDumps + 1 } } ∧
         flashBytes t.flash a d.length = d ∧
         ∀ x, x < a ∨ a + 0x800000 ≤ x → smGet 0xFF#8 t.flash x = smGet 0xFF#8 s.flash x) ∧
     (s.errlog.dumpsUnsaved = [] → exec .dumpFlashCopy s = .next s) ∧
     (∀ q l, s.errlog.unsaved = [(q, l)] → l.length ≤ 64 →
       let a := 0x20000000 + q % 65536 * 64
       ∃ t, exec .errlogFlashWrite s = .next t ∧ t = { s with
           flash := t.flash, errlog := { s.errlog with unsaved := [], flashSeq := s.errlog.nextSeq } } ∧
         flashBytes t.flash a l.length = l ∧
         ∀ x, x < a ∨ a + 64 ≤ x → smGet 0xFF#8 t.flash x = smGet 0xFF#8 s.flash x) ∧
     (s.errlog.unsaved = [] → exec .errlogFlashWrite s = .next s) ∧
     (historyLoaded s.boot = true →
       let n := (s.history.time + 1) % 2 ^ 32
       exec .historyTimeTick s = .next { s with history := { s.history with
         time := n, savedTime := if n % 10 = 0 then n else s.history.savedTime } }) ∧
     (historyLoaded s.boot = false → exec .historyTimeTick s = .next s))

/-! ### The whole module -/

/-- Every command keeps the module's modes legal, and none changes the fuses or the JTAG lock; no command but READY brings a module
to READY. Which values of a mode are legal is read from the manual's encodings (DEDUCED, assumption 42). -/
def Obligations.ModesStayLegal : Prop :=
  ∀ (i : Instr) (s t : State), exec i s = .next t →
    (LegalModes s → LegalModes t) ∧ t.fuses = s.fuses ∧ t.jtag.locked = s.jtag.locked ∧
    (t.boot.phase = 8 → s.boot.phase = 8 ∨ ∃ ms, i = .ready ms)

/-- The module right after power-up: its modes are legal, its memories canonical, no command waits; no core has anything under way,
every register of a core that is given a reset value has it, no link is up, and the boot registers read as reset leaves them.
The values of what the manual gives no reset value are the model's choices (assumptions 2, 17, 21, 22, 43 and 44) and no clause
names one as the manual's. -/
def Obligations.ResetState : Prop :=
  let s := State.reset
  LegalModes s ∧ Memory.wf s = true ∧ s.pending = [] ∧ s.jobs = [] ∧ bootReg s.boot = 0 ∧ s.clock.time = 0 ∧ s.clock.div = 16 ∧
  (∀ site, let c := getCore s site
    c.stream.state = .idle ∧ c.stream.pc = 0 ∧ c.stream.icount = 0 ∧ c.stream.loops = [] ∧ c.stream.fault = none ∧ c.queue = [] ∧
      c.started = [] ∧ c.place.placed = false ∧ (∀ n, getA c n = { value := 0#48, stride0 := 0#32, stride1 := 0#32 }) ∧
      (∀ n, getV c n = Row.zero) ∧ c.matrix.mode = none ∧ c.matrix.live = 0#1024) ∧
  (∀ n, (getTrunk s n).st = 0 ∧ (getTrunk s n).inbox = [] ∧ (getTrunk s n).replay = []) ∧
  (∀ p, portPresent (getHost s p) = false) ∧ (∀ v, pageEntry s.hbm v = 0#64) ∧ ∀ k, (getStack s.hbm k).state = 0
end

