-- ==== Sys2Proof/Laws/SMap.lean ====
section
/-!
SUPPORT. Sys2Proof/Laws/SMap.lean: what the sparse store does: read after write, and that every write keeps the
canonical form.
-/

namespace Sys2Proof.Machine

variable {α : Type}

theorem smGet_smDel_same (d : α) (m : SMap α) (k : Nat) : smGet d (smDel m k) k = d := by
  induction m with
  | nil => rfl
  | cons a m ih =>
    obtain ⟨j, v⟩ := a
    by_cases h : j = k
    · simp [smDel, h, ih]
    · simp [smDel, h, smGet, ih]

theorem smGet_smDel_other (d : α) (m : SMap α) {k j : Nat} (h : j ≠ k) :
    smGet d (smDel m k) j = smGet d m j := by
  induction m with
  | nil => rfl
  | cons a m ih =>
    obtain ⟨i, v⟩ := a
    by_cases hi : i = k
    · have : i ≠ j := fun e => h (e ▸ hi)
      simp [smDel, hi, ih, smGet, Ne.symm h]
    · simp [smDel, hi, smGet, ih]

theorem smGet_smIns_same (d : α) (m : SMap α) (k : Nat) (v : α) (hk : smGet d m k = d)
    (hd : ∀ w, (k, w) ∉ m) : smGet d (smIns m k v) k = v := by
  induction m with
  | nil => simp [smIns, smGet]
  | cons a m ih =>
    obtain ⟨j, w⟩ := a
    have hj : j ≠ k := fun e => hd w (by simp [e])
    by_cases hlt : k < j
    · simp [smIns, hlt, smGet]
    · simp only [smIns, if_neg hlt, smGet, if_neg hj]
      exact ih (by simpa [smGet, hj] using hk) (fun w' hm => hd w' (List.mem_cons_of_mem _ hm))

theorem smGet_smIns_other (d : α) (m : SMap α) {k j : Nat} (v : α) (h : j ≠ k) :
    smGet d (smIns m k v) j = smGet d m j := by
  induction m with
  | nil => simp [smIns, smGet, Ne.symm h]
  | cons a m ih =>
    obtain ⟨i, w⟩ := a
    by_cases hlt : k < i
    · simp [smIns, hlt, smGet, Ne.symm h]
    · simp [smIns, hlt, smGet, ih]

theorem not_mem_smDel (m : SMap α) (k : Nat) (w : α) : (k, w) ∉ smDel m k := by
  induction m with
  | nil => simp [smDel]
  | cons a m ih =>
    obtain ⟨j, v⟩ := a
    by_cases h : j = k
    · simp [smDel, h, ih]
    · simp only [smDel, if_neg h, List.mem_cons, Prod.mk.injEq, not_or, ih, not_false_eq_true, and_true]
      exact fun e => h e.1.symm

/-- A read after a write to the same key gives the value written. -/
@[simp] theorem smGet_smSet_same [DecidableEq α] (d : α) (m : SMap α) (k : Nat) (v : α) :
    smGet d (smSet d m k v) k = v := by
  unfold smSet
  split
  · rename_i h; rw [smGet_smDel_same, h]
  · exact smGet_smIns_same d _ k v (smGet_smDel_same d m k) (not_mem_smDel m k)

/-- A write leaves every other key alone. -/
theorem smGet_smSet_other [DecidableEq α] (d : α) (m : SMap α) {k j : Nat} (v : α) (h : j ≠ k) :
    smGet d (smSet d m k v) j = smGet d m j := by
  unfold smSet
  split
  · exact smGet_smDel_other d m h
  · rw [smGet_smIns_other d _ v h, smGet_smDel_other d m h]

theorem smGet_smSet [DecidableEq α] (d : α) (m : SMap α) (k j : Nat) (v : α) :
    smGet d (smSet d m k v) j = if j = k then v else smGet d m j := by
  by_cases h : j = k
  · subst h; simp
  · simp [h, smGet_smSet_other d m v h]

theorem smAbove_smDel (m : SMap α) (k j : Nat) (h : smAbove j m = true) : smAbove j (smDel m k) = true := by
  induction m with
  | nil => rfl
  | cons a m ih =>
    obtain ⟨i, v⟩ := a
    simp only [smAbove, Bool.and_eq_true, decide_eq_true_eq] at h
    by_cases hi : i = k
    · simp [smDel, hi, ih h.2]
    · simp [smDel, hi, smAbove, h.1, ih h.2]

theorem smWf_smDel [DecidableEq α] (d : α) (m : SMap α) (k : Nat) (h : smWf d m = true) :
    smWf d (smDel m k) = true := by
  induction m with
  | nil => rfl
  | cons a m ih =>
    obtain ⟨i, v⟩ := a
    simp only [smWf, Bool.and_eq_true, decide_eq_true_eq] at h
    by_cases hi : i = k
    · simp [smDel, hi, ih h.2]
    · simp only [smDel, if_neg hi, smWf, Bool.and_eq_true, decide_eq_true_eq]
      exact ⟨⟨h.1.1, smAbove_smDel m k i h.1.2⟩, ih h.2⟩

theorem smAbove_trans (m : SMap α) {i j : Nat} (hij : i < j) (h : smAbove j m = true) : smAbove i m = true := by
  induction m with
  | nil => rfl
  | cons a m ih =>
    simp only [smAbove, Bool.and_eq_true, decide_eq_true_eq] at h ⊢
    exact ⟨by omega, ih h.2⟩

theorem smAbove_smIns (m : SMap α) (k : Nat) (v : α) (j : Nat) (hj : j < k) (h : smAbove j m = true) :
    smAbove j (smIns m k v) = true := by
  induction m with
  | nil => simp [smIns, smAbove, hj]
  | cons a m ih =>
    obtain ⟨i, w⟩ := a
    simp only [smAbove, Bool.and_eq_true, decide_eq_true_eq] at h
    by_cases hlt : k < i
    · simp [smIns, hlt, smAbove, hj, h.1, h.2]
    · simp [smIns, hlt, smAbove, h.1, ih h.2]

theorem smWf_smIns [DecidableEq α] (d : α) (m : SMap α) (k : Nat) (v : α) (hv : v ≠ d)
    (hd : ∀ w, (k, w) ∉ m) (h : smWf d m = true) : smWf d (smIns m k v) = true := by
  induction m with
  | nil => simp [smIns, smWf, smAbove, hv]
  | cons a m ih =>
    obtain ⟨i, w⟩ := a
    have hik : i ≠ k := fun e => hd w (by simp [e])
    simp only [smWf, Bool.and_eq_true, decide_eq_true_eq] at h
    by_cases hlt : k < i
    · simp only [smIns, if_pos hlt, smWf, smAbove, Bool.and_eq_true, decide_eq_true_eq]
      exact ⟨⟨hv, hlt, smAbove_trans m hlt h.1.2⟩, ⟨h.1.1, h.1.2⟩, h.2⟩
    · simp only [smIns, if_neg hlt, smWf, Bool.and_eq_true, decide_eq_true_eq]
      exact ⟨⟨h.1.1, smAbove_smIns m k v i (by omega) h.1.2⟩,
        ih (fun w' hm => hd w' (List.mem_cons_of_mem _ hm)) h.2⟩

/-- Every write keeps the canonical form. -/
theorem smWf_smSet [DecidableEq α] (d : α) (m : SMap α) (k : Nat) (v : α) (h : smWf d m = true) :
    smWf d (smSet d m k v) = true := by
  unfold smSet
  split
  · exact smWf_smDel d m k h
  · rename_i hv
    exact smWf_smIns d _ k v hv (not_mem_smDel m k) (smWf_smDel d m k h)

theorem smWf_smMod [DecidableEq α] (d : α) (m : SMap α) (k : Nat) (f : α → α) (h : smWf d m = true) :
    smWf d (smMod d m k f) = true := smWf_smSet d m k _ h

@[simp] theorem smGet_smMod_same [DecidableEq α] (d : α) (m : SMap α) (k : Nat) (f : α → α) :
    smGet d (smMod d m k f) k = f (smGet d m k) := by simp [smMod]

theorem smGet_smMod_other [DecidableEq α] (d : α) (m : SMap α) {k j : Nat} (f : α → α) (h : j ≠ k) :
    smGet d (smMod d m k f) j = smGet d m j := smGet_smSet_other d m _ h

theorem smWf_smModAll [DecidableEq α] (d : α) (ks : List Nat) (f : Nat → α → α) :
    ∀ m : SMap α, smWf d m = true → smWf d (smModAll d m ks f) = true := by
  induction ks with
  | nil => intro m h; exact h
  | cons k ks ih => intro m h; exact ih _ (smWf_smSet d m k _ h)

theorem smAbove_smMap [DecidableEq α] (d : α) (f : Nat → α → α) (k : Nat) (m : SMap α) (h : smAbove k m = true) :
    smAbove k (smMap d f m) = true := by
  induction m with
  | nil => rfl
  | cons a m ih =>
    simp only [smAbove, Bool.and_eq_true, decide_eq_true_eq] at h
    have := ih h.2
    simp only [smMap, List.map_cons, List.filter_cons] at this ⊢
    split
    · simp only [smAbove, Bool.and_eq_true, decide_eq_true_eq]
      exact ⟨h.1, this⟩
    · exact this

/-- Mapping keeps the canonical form. -/
theorem smWf_smMap [DecidableEq α] (d : α) (f : Nat → α → α) (m : SMap α) (h : smWf d m = true) :
    smWf d (smMap d f m) = true := by
  induction m with
  | nil => rfl
  | cons a m ih =>
    simp only [smWf, Bool.and_eq_true, decide_eq_true_eq] at h
    have hm := ih h.2
    have ha := smAbove_smMap d f a.1 m h.1.2
    simp only [smMap, List.map_cons, List.filter_cons] at hm ha ⊢
    split
    · rename_i hv
      simp only [smWf, Bool.and_eq_true]
      exact ⟨⟨hv, ha⟩, hm⟩
    · exact hm

end Sys2Proof.Machine
end

