-- ==== Sys2Proof/Laws/Core.lean ====
section
/-!
SUPPORT. Sys2Proof/Laws/Core.lean: the shared operations on one core, field by field, and what reading back a register, a slot
or a queue gives.
-/

namespace Sys2Proof.Machine

/-! ### setA -/

@[simp] theorem setA_stream (c : Core) (n : Nat) (v : AReg) : (setA c n v).stream = c.stream := rfl
@[simp] theorem setA_queue (c : Core) (n : Nat) (v : AReg) : (setA c n v).queue = c.queue := rfl
@[simp] theorem setA_qmat (c : Core) (n : Nat) (v : AReg) : (setA c n v).qmat = c.qmat := rfl
@[simp] theorem setA_qxfer (c : Core) (n : Nat) (v : AReg) : (setA c n v).qxfer = c.qxfer := rfl
@[simp] theorem setA_qsync (c : Core) (n : Nat) (v : AReg) : (setA c n v).qsync = c.qsync := rfl
@[simp] theorem setA_started (c : Core) (n : Nat) (v : AReg) : (setA c n v).started = c.started := rfl
@[simp] theorem setA_sync (c : Core) (n : Nat) (v : AReg) : (setA c n v).sync = c.sync := rfl
@[simp] theorem setA_vec (c : Core) (n : Nat) (v : AReg) : (setA c n v).vec = c.vec := rfl
@[simp] theorem setA_matrix (c : Core) (n : Nat) (v : AReg) : (setA c n v).matrix = c.matrix := rfl
@[simp] theorem setA_xfer (c : Core) (n : Nat) (v : AReg) : (setA c n v).xfer = c.xfer := rfl
@[simp] theorem setA_mon (c : Core) (n : Nat) (v : AReg) : (setA c n v).mon = c.mon := rfl
@[simp] theorem setA_seed (c : Core) (n : Nat) (v : AReg) : (setA c n v).seed = c.seed := rfl
@[simp] theorem setA_slab (c : Core) (n : Nat) (v : AReg) : (setA c n v).slab = c.slab := rfl
@[simp] theorem setA_arbRd (c : Core) (n : Nat) (v : AReg) : (setA c n v).arbRd = c.arbRd := rfl
@[simp] theorem setA_arbWr (c : Core) (n : Nat) (v : AReg) : (setA c n v).arbWr = c.arbWr := rfl
@[simp] theorem setA_rd (c : Core) (n : Nat) (v : AReg) : (setA c n v).rd = c.rd := rfl
@[simp] theorem setA_wr (c : Core) (n : Nat) (v : AReg) : (setA c n v).wr = c.wr := rfl
@[simp] theorem setA_place (c : Core) (n : Nat) (v : AReg) : (setA c n v).place = c.place := rfl
@[simp] theorem setA_activity (c : Core) (n : Nat) (v : AReg) : (setA c n v).activity = c.activity := rfl
@[simp] theorem setA_lockDrain (c : Core) (n : Nat) (v : AReg) : (setA c n v).lockDrain = c.lockDrain := rfl
@[simp] theorem setA_lockStore (c : Core) (n : Nat) (v : AReg) : (setA c n v).lockStore = c.lockStore := rfl
@[simp] theorem setA_stepCc (c : Core) (n : Nat) (v : AReg) : (setA c n v).stepCc = c.stepCc := rfl
@[simp] theorem setA_fenced (c : Core) (n : Nat) (v : AReg) : (setA c n v).fenced = c.fenced := rfl
@[simp] theorem setA_out (c : Core) (n : Nat) (v : AReg) : (setA c n v).out = c.out := rfl
@[simp] theorem setA_events (c : Core) (n : Nat) (v : AReg) : (setA c n v).events = c.events := rfl
@[simp] theorem setA_cc (c : Core) (n : Nat) (v : AReg) : (setA c n v).cc = c.cc := rfl

/-! ### setAVal -/

@[simp] theorem setAVal_stream (c : Core) (n : Nat) (v : W48) : (setAVal c n v).stream = c.stream := rfl
@[simp] theorem setAVal_queue (c : Core) (n : Nat) (v : W48) : (setAVal c n v).queue = c.queue := rfl
@[simp] theorem setAVal_qmat (c : Core) (n : Nat) (v : W48) : (setAVal c n v).qmat = c.qmat := rfl
@[simp] theorem setAVal_qxfer (c : Core) (n : Nat) (v : W48) : (setAVal c n v).qxfer = c.qxfer := rfl
@[simp] theorem setAVal_qsync (c : Core) (n : Nat) (v : W48) : (setAVal c n v).qsync = c.qsync := rfl
@[simp] theorem setAVal_started (c : Core) (n : Nat) (v : W48) : (setAVal c n v).started = c.started := rfl
@[simp] theorem setAVal_sync (c : Core) (n : Nat) (v : W48) : (setAVal c n v).sync = c.sync := rfl
@[simp] theorem setAVal_vec (c : Core) (n : Nat) (v : W48) : (setAVal c n v).vec = c.vec := rfl
@[simp] theorem setAVal_matrix (c : Core) (n : Nat) (v : W48) : (setAVal c n v).matrix = c.matrix := rfl
@[simp] theorem setAVal_xfer (c : Core) (n : Nat) (v : W48) : (setAVal c n v).xfer = c.xfer := rfl
@[simp] theorem setAVal_mon (c : Core) (n : Nat) (v : W48) : (setAVal c n v).mon = c.mon := rfl
@[simp] theorem setAVal_seed (c : Core) (n : Nat) (v : W48) : (setAVal c n v).seed = c.seed := rfl
@[simp] theorem setAVal_slab (c : Core) (n : Nat) (v : W48) : (setAVal c n v).slab = c.slab := rfl
@[simp] theorem setAVal_arbRd (c : Core) (n : Nat) (v : W48) : (setAVal c n v).arbRd = c.arbRd := rfl
@[simp] theorem setAVal_arbWr (c : Core) (n : Nat) (v : W48) : (setAVal c n v).arbWr = c.arbWr := rfl
@[simp] theorem setAVal_rd (c : Core) (n : Nat) (v : W48) : (setAVal c n v).rd = c.rd := rfl
@[simp] theorem setAVal_wr (c : Core) (n : Nat) (v : W48) : (setAVal c n v).wr = c.wr := rfl
@[simp] theorem setAVal_place (c : Core) (n : Nat) (v : W48) : (setAVal c n v).place = c.place := rfl
@[simp] theorem setAVal_activity (c : Core) (n : Nat) (v : W48) : (setAVal c n v).activity = c.activity := rfl
@[simp] theorem setAVal_lockDrain (c : Core) (n : Nat) (v : W48) : (setAVal c n v).lockDrain = c.lockDrain := rfl
@[simp] theorem setAVal_lockStore (c : Core) (n : Nat) (v : W48) : (setAVal c n v).lockStore = c.lockStore := rfl
@[simp] theorem setAVal_stepCc (c : Core) (n : Nat) (v : W48) : (setAVal c n v).stepCc = c.stepCc := rfl
@[simp] theorem setAVal_fenced (c : Core) (n : Nat) (v : W48) : (setAVal c n v).fenced = c.fenced := rfl
@[simp] theorem setAVal_out (c : Core) (n : Nat) (v : W48) : (setAVal c n v).out = c.out := rfl
@[simp] theorem setAVal_events (c : Core) (n : Nat) (v : W48) : (setAVal c n v).events = c.events := rfl
@[simp] theorem setAVal_cc (c : Core) (n : Nat) (v : W48) : (setAVal c n v).cc = c.cc := rfl

/-! ### setV -/

@[simp] theorem setV_stream (c : Core) (n : Nat) (v : Row) : (setV c n v).stream = c.stream := rfl
@[simp] theorem setV_aregs (c : Core) (n : Nat) (v : Row) : (setV c n v).aregs = c.aregs := rfl
@[simp] theorem setV_queue (c : Core) (n : Nat) (v : Row) : (setV c n v).queue = c.queue := rfl
@[simp] theorem setV_qmat (c : Core) (n : Nat) (v : Row) : (setV c n v).qmat = c.qmat := rfl
@[simp] theorem setV_qxfer (c : Core) (n : Nat) (v : Row) : (setV c n v).qxfer = c.qxfer := rfl
@[simp] theorem setV_qsync (c : Core) (n : Nat) (v : Row) : (setV c n v).qsync = c.qsync := rfl
@[simp] theorem setV_started (c : Core) (n : Nat) (v : Row) : (setV c n v).started = c.started := rfl
@[simp] theorem setV_sync (c : Core) (n : Nat) (v : Row) : (setV c n v).sync = c.sync := rfl
@[simp] theorem setV_matrix (c : Core) (n : Nat) (v : Row) : (setV c n v).matrix = c.matrix := rfl
@[simp] theorem setV_xfer (c : Core) (n : Nat) (v : Row) : (setV c n v).xfer = c.xfer := rfl
@[simp] theorem setV_mon (c : Core) (n : Nat) (v : Row) : (setV c n v).mon = c.mon := rfl
@[simp] theorem setV_seed (c : Core) (n : Nat) (v : Row) : (setV c n v).seed = c.seed := rfl
@[simp] theorem setV_slab (c : Core) (n : Nat) (v : Row) : (setV c n v).slab = c.slab := rfl
@[simp] theorem setV_arbRd (c : Core) (n : Nat) (v : Row) : (setV c n v).arbRd = c.arbRd := rfl
@[simp] theorem setV_arbWr (c : Core) (n : Nat) (v : Row) : (setV c n v).arbWr = c.arbWr := rfl
@[simp] theorem setV_rd (c : Core) (n : Nat) (v : Row) : (setV c n v).rd = c.rd := rfl
@[simp] theorem setV_wr (c : Core) (n : Nat) (v : Row) : (setV c n v).wr = c.wr := rfl
@[simp] theorem setV_place (c : Core) (n : Nat) (v : Row) : (setV c n v).place = c.place := rfl
@[simp] theorem setV_activity (c : Core) (n : Nat) (v : Row) : (setV c n v).activity = c.activity := rfl
@[simp] theorem setV_lockDrain (c : Core) (n : Nat) (v : Row) : (setV c n v).lockDrain = c.lockDrain := rfl
@[simp] theorem setV_lockStore (c : Core) (n : Nat) (v : Row) : (setV c n v).lockStore = c.lockStore := rfl
@[simp] theorem setV_stepCc (c : Core) (n : Nat) (v : Row) : (setV c n v).stepCc = c.stepCc := rfl
@[simp] theorem setV_fenced (c : Core) (n : Nat) (v : Row) : (setV c n v).fenced = c.fenced := rfl
@[simp] theorem setV_out (c : Core) (n : Nat) (v : Row) : (setV c n v).out = c.out := rfl
@[simp] theorem setV_events (c : Core) (n : Nat) (v : Row) : (setV c n v).events = c.events := rfl
@[simp] theorem setV_cc (c : Core) (n : Nat) (v : Row) : (setV c n v).cc = c.cc := rfl

/-! ### setSlot -/

@[simp] theorem setSlot_stream (c : Core) (n : Nat) (v : Slot) : (setSlot c n v).stream = c.stream := rfl
@[simp] theorem setSlot_aregs (c : Core) (n : Nat) (v : Slot) : (setSlot c n v).aregs = c.aregs := rfl
@[simp] theorem setSlot_queue (c : Core) (n : Nat) (v : Slot) : (setSlot c n v).queue = c.queue := rfl
@[simp] theorem setSlot_qmat (c : Core) (n : Nat) (v : Slot) : (setSlot c n v).qmat = c.qmat := rfl
@[simp] theorem setSlot_qxfer (c : Core) (n : Nat) (v : Slot) : (setSlot c n v).qxfer = c.qxfer := rfl
@[simp] theorem setSlot_qsync (c : Core) (n : Nat) (v : Slot) : (setSlot c n v).qsync = c.qsync := rfl
@[simp] theorem setSlot_started (c : Core) (n : Nat) (v : Slot) : (setSlot c n v).started = c.started := rfl
@[simp] theorem setSlot_vec (c : Core) (n : Nat) (v : Slot) : (setSlot c n v).vec = c.vec := rfl
@[simp] theorem setSlot_matrix (c : Core) (n : Nat) (v : Slot) : (setSlot c n v).matrix = c.matrix := rfl
@[simp] theorem setSlot_xfer (c : Core) (n : Nat) (v : Slot) : (setSlot c n v).xfer = c.xfer := rfl
@[simp] theorem setSlot_mon (c : Core) (n : Nat) (v : Slot) : (setSlot c n v).mon = c.mon := rfl
@[simp] theorem setSlot_seed (c : Core) (n : Nat) (v : Slot) : (setSlot c n v).seed = c.seed := rfl
@[simp] theorem setSlot_slab (c : Core) (n : Nat) (v : Slot) : (setSlot c n v).slab = c.slab := rfl
@[simp] theorem setSlot_arbRd (c : Core) (n : Nat) (v : Slot) : (setSlot c n v).arbRd = c.arbRd := rfl
@[simp] theorem setSlot_arbWr (c : Core) (n : Nat) (v : Slot) : (setSlot c n v).arbWr = c.arbWr := rfl
@[simp] theorem setSlot_rd (c : Core) (n : Nat) (v : Slot) : (setSlot c n v).rd = c.rd := rfl
@[simp] theorem setSlot_wr (c : Core) (n : Nat) (v : Slot) : (setSlot c n v).wr = c.wr := rfl
@[simp] theorem setSlot_place (c : Core) (n : Nat) (v : Slot) : (setSlot c n v).place = c.place := rfl
@[simp] theorem setSlot_activity (c : Core) (n : Nat) (v : Slot) : (setSlot c n v).activity = c.activity := rfl
@[simp] theorem setSlot_lockDrain (c : Core) (n : Nat) (v : Slot) : (setSlot c n v).lockDrain = c.lockDrain := rfl
@[simp] theorem setSlot_lockStore (c : Core) (n : Nat) (v : Slot) : (setSlot c n v).lockStore = c.lockStore := rfl
@[simp] theorem setSlot_stepCc (c : Core) (n : Nat) (v : Slot) : (setSlot c n v).stepCc = c.stepCc := rfl
@[simp] theorem setSlot_fenced (c : Core) (n : Nat) (v : Slot) : (setSlot c n v).fenced = c.fenced := rfl
@[simp] theorem setSlot_out (c : Core) (n : Nat) (v : Slot) : (setSlot c n v).out = c.out := rfl
@[simp] theorem setSlot_events (c : Core) (n : Nat) (v : Slot) : (setSlot c n v).events = c.events := rfl
@[simp] theorem setSlot_cc (c : Core) (n : Nat) (v : Slot) : (setSlot c n v).cc = c.cc := rfl

/-! ### sendPkts -/

@[simp] theorem sendPkts_stream (c : Core) (ps : List Packet) : (sendPkts c ps).stream = c.stream := rfl
@[simp] theorem sendPkts_aregs (c : Core) (ps : List Packet) : (sendPkts c ps).aregs = c.aregs := rfl
@[simp] theorem sendPkts_queue (c : Core) (ps : List Packet) : (sendPkts c ps).queue = c.queue := rfl
@[simp] theorem sendPkts_qmat (c : Core) (ps : List Packet) : (sendPkts c ps).qmat = c.qmat := rfl
@[simp] theorem sendPkts_qxfer (c : Core) (ps : List Packet) : (sendPkts c ps).qxfer = c.qxfer := rfl
@[simp] theorem sendPkts_qsync (c : Core) (ps : List Packet) : (sendPkts c ps).qsync = c.qsync := rfl
@[simp] theorem sendPkts_started (c : Core) (ps : List Packet) : (sendPkts c ps).started = c.started := rfl
@[simp] theorem sendPkts_sync (c : Core) (ps : List Packet) : (sendPkts c ps).sync = c.sync := rfl
@[simp] theorem sendPkts_vec (c : Core) (ps : List Packet) : (sendPkts c ps).vec = c.vec := rfl
@[simp] theorem sendPkts_matrix (c : Core) (ps : List Packet) : (sendPkts c ps).matrix = c.matrix := rfl
@[simp] theorem sendPkts_xfer (c : Core) (ps : List Packet) : (sendPkts c ps).xfer = c.xfer := rfl
@[simp] theorem sendPkts_mon (c : Core) (ps : List Packet) : (sendPkts c ps).mon = c.mon := rfl
@[simp] theorem sendPkts_seed (c : Core) (ps : List Packet) : (sendPkts c ps).seed = c.seed := rfl
@[simp] theorem sendPkts_slab (c : Core) (ps : List Packet) : (sendPkts c ps).slab = c.slab := rfl
@[simp] theorem sendPkts_arbRd (c : Core) (ps : List Packet) : (sendPkts c ps).arbRd = c.arbRd := rfl
@[simp] theorem sendPkts_arbWr (c : Core) (ps : List Packet) : (sendPkts c ps).arbWr = c.arbWr := rfl
@[simp] theorem sendPkts_rd (c : Core) (ps : List Packet) : (sendPkts c ps).rd = c.rd := rfl
@[simp] theorem sendPkts_wr (c : Core) (ps : List Packet) : (sendPkts c ps).wr = c.wr := rfl
@[simp] theorem sendPkts_place (c : Core) (ps : List Packet) : (sendPkts c ps).place = c.place := rfl
@[simp] theorem sendPkts_activity (c : Core) (ps : List Packet) : (sendPkts c ps).activity = c.activity := rfl
@[simp] theorem sendPkts_lockDrain (c : Core) (ps : List Packet) : (sendPkts c ps).lockDrain = c.lockDrain := rfl
@[simp] theorem sendPkts_lockStore (c : Core) (ps : List Packet) : (sendPkts c ps).lockStore = c.lockStore := rfl
@[simp] theorem sendPkts_stepCc (c : Core) (ps : List Packet) : (sendPkts c ps).stepCc = c.stepCc := rfl
@[simp] theorem sendPkts_fenced (c : Core) (ps : List Packet) : (sendPkts c ps).fenced = c.fenced := rfl
@[simp] theorem sendPkts_events (c : Core) (ps : List Packet) : (sendPkts c ps).events = c.events := rfl
@[simp] theorem sendPkts_cc (c : Core) (ps : List Packet) : (sendPkts c ps).cc = c.cc := rfl

/-! ### admitWait -/

@[simp] theorem admitWait_stream (c : Core) (w : BitVec 8) : (admitWait c w).stream = c.stream := by
  unfold admitWait; split <;> rfl
@[simp] theorem admitWait_aregs (c : Core) (w : BitVec 8) : (admitWait c w).aregs = c.aregs := by
  unfold admitWait; split <;> rfl
@[simp] theorem admitWait_queue (c : Core) (w : BitVec 8) : (admitWait c w).queue = c.queue := by
  unfold admitWait; split <;> rfl
@[simp] theorem admitWait_qmat (c : Core) (w : BitVec 8) : (admitWait c w).qmat = c.qmat := by
  unfold admitWait; split <;> rfl
@[simp] theorem admitWait_qxfer (c : Core) (w : BitVec 8) : (admitWait c w).qxfer = c.qxfer := by
  unfold admitWait; split <;> rfl
@[simp] theorem admitWait_qsync (c : Core) (w : BitVec 8) : (admitWait c w).qsync = c.qsync := by
  unfold admitWait; split <;> rfl
@[simp] theorem admitWait_started (c : Core) (w : BitVec 8) : (admitWait c w).started = c.started := by
  unfold admitWait; split <;> rfl
@[simp] theorem admitWait_vec (c : Core) (w : BitVec 8) : (admitWait c w).vec = c.vec := by
  unfold admitWait; split <;> rfl
@[simp] theorem admitWait_matrix (c : Core) (w : BitVec 8) : (admitWait c w).matrix = c.matrix := by
  unfold admitWait; split <;> rfl
@[simp] theorem admitWait_xfer (c : Core) (w : BitVec 8) : (admitWait c w).xfer = c.xfer := by
  unfold admitWait; split <;> rfl
@[simp] theorem admitWait_mon (c : Core) (w : BitVec 8) : (admitWait c w).mon = c.mon := by
  unfold admitWait; split <;> rfl
@[simp] theorem admitWait_seed (c : Core) (w : BitVec 8) : (admitWait c w).seed = c.seed := by
  unfold admitWait; split <;> rfl
@[simp] theorem admitWait_slab (c : Core) (w : BitVec 8) : (admitWait c w).slab = c.slab := by
  unfold admitWait; split <;> rfl
@[simp] theorem admitWait_arbRd (c : Core) (w : BitVec 8) : (admitWait c w).arbRd = c.arbRd := by
  unfold admitWait; split <;> rfl
@[simp] theorem admitWait_arbWr (c : Core) (w : BitVec 8) : (admitWait c w).arbWr = c.arbWr := by
  unfold admitWait; split <;> rfl
@[simp] theorem admitWait_rd (c : Core) (w : BitVec 8) : (admitWait c w).rd = c.rd := by
  unfold admitWait; split <;> rfl
@[simp] theorem admitWait_wr (c : Core) (w : BitVec 8) : (admitWait c w).wr = c.wr := by
  unfold admitWait; split <;> rfl
@[simp] theorem admitWait_place (c : Core) (w : BitVec 8) : (admitWait c w).place = c.place := by
  unfold admitWait; split <;> rfl
@[simp] theorem admitWait_activity (c : Core) (w : BitVec 8) : (admitWait c w).activity = c.activity := by
  unfold admitWait; split <;> rfl
@[simp] theorem admitWait_lockDrain (c : Core) (w : BitVec 8) : (admitWait c w).lockDrain = c.lockDrain := by
  unfold admitWait; split <;> rfl
@[simp] theorem admitWait_lockStore (c : Core) (w : BitVec 8) : (admitWait c w).lockStore = c.lockStore := by
  unfold admitWait; split <;> rfl
@[simp] theorem admitWait_stepCc (c : Core) (w : BitVec 8) : (admitWait c w).stepCc = c.stepCc := by
  unfold admitWait; split <;> rfl
@[simp] theorem admitWait_fenced (c : Core) (w : BitVec 8) : (admitWait c w).fenced = c.fenced := by
  unfold admitWait; split <;> rfl
@[simp] theorem admitWait_out (c : Core) (w : BitVec 8) : (admitWait c w).out = c.out := by
  unfold admitWait; split <;> rfl
@[simp] theorem admitWait_events (c : Core) (w : BitVec 8) : (admitWait c w).events = c.events := by
  unfold admitWait; split <;> rfl
@[simp] theorem admitWait_cc (c : Core) (w : BitVec 8) : (admitWait c w).cc = c.cc := by
  unfold admitWait; split <;> rfl

/-! ### releaseSlot -/

@[simp] theorem releaseSlot_stream (c : Core) (n g : Nat) : (releaseSlot c n g).stream = c.stream := by
  unfold releaseSlot; split <;> rfl
@[simp] theorem releaseSlot_aregs (c : Core) (n g : Nat) : (releaseSlot c n g).aregs = c.aregs := by
  unfold releaseSlot; split <;> rfl
@[simp] theorem releaseSlot_queue (c : Core) (n g : Nat) : (releaseSlot c n g).queue = c.queue := by
  unfold releaseSlot; split <;> rfl
@[simp] theorem releaseSlot_qmat (c : Core) (n g : Nat) : (releaseSlot c n g).qmat = c.qmat := by
  unfold releaseSlot; split <;> rfl
@[simp] theorem releaseSlot_qxfer (c : Core) (n g : Nat) : (releaseSlot c n g).qxfer = c.qxfer := by
  unfold releaseSlot; split <;> rfl
@[simp] theorem releaseSlot_qsync (c : Core) (n g : Nat) : (releaseSlot c n g).qsync = c.qsync := by
  unfold releaseSlot; split <;> rfl
@[simp] theorem releaseSlot_started (c : Core) (n g : Nat) : (releaseSlot c n g).started = c.started := by
  unfold releaseSlot; split <;> rfl
@[simp] theorem releaseSlot_vec (c : Core) (n g : Nat) : (releaseSlot c n g).vec = c.vec := by
  unfold releaseSlot; split <;> rfl
@[simp] theorem releaseSlot_matrix (c : Core) (n g : Nat) : (releaseSlot c n g).matrix = c.matrix := by
  unfold releaseSlot; split <;> rfl
@[simp] theorem releaseSlot_xfer (c : Core) (n g : Nat) : (releaseSlot c n g).xfer = c.xfer := by
  unfold releaseSlot; split <;> rfl
@[simp] theorem releaseSlot_mon (c : Core) (n g : Nat) : (releaseSlot c n g).mon = c.mon := by
  unfold releaseSlot; split <;> rfl
@[simp] theorem releaseSlot_seed (c : Core) (n g : Nat) : (releaseSlot c n g).seed = c.seed := by
  unfold releaseSlot; split <;> rfl
@[simp] theorem releaseSlot_slab (c : Core) (n g : Nat) : (releaseSlot c n g).slab = c.slab := by
  unfold releaseSlot; split <;> rfl
@[simp] theorem releaseSlot_arbRd (c : Core) (n g : Nat) : (releaseSlot c n g).arbRd = c.arbRd := by
  unfold releaseSlot; split <;> rfl
@[simp] theorem releaseSlot_arbWr (c : Core) (n g : Nat) : (releaseSlot c n g).arbWr = c.arbWr := by
  unfold releaseSlot; split <;> rfl
@[simp] theorem releaseSlot_rd (c : Core) (n g : Nat) : (releaseSlot c n g).rd = c.rd := by
  unfold releaseSlot; split <;> rfl
@[simp] theorem releaseSlot_wr (c : Core) (n g : Nat) : (releaseSlot c n g).wr = c.wr := by
  unfold releaseSlot; split <;> rfl
@[simp] theorem releaseSlot_place (c : Core) (n g : Nat) : (releaseSlot c n g).place = c.place := by
  unfold releaseSlot; split <;> rfl
@[simp] theorem releaseSlot_activity (c : Core) (n g : Nat) : (releaseSlot c n g).activity = c.activity := by
  unfold releaseSlot; split <;> rfl
@[simp] theorem releaseSlot_lockDrain (c : Core) (n g : Nat) : (releaseSlot c n g).lockDrain = c.lockDrain := by
  unfold releaseSlot; split <;> rfl
@[simp] theorem releaseSlot_lockStore (c : Core) (n g : Nat) : (releaseSlot c n g).lockStore = c.lockStore := by
  unfold releaseSlot; split <;> rfl
@[simp] theorem releaseSlot_stepCc (c : Core) (n g : Nat) : (releaseSlot c n g).stepCc = c.stepCc := by
  unfold releaseSlot; split <;> rfl
@[simp] theorem releaseSlot_fenced (c : Core) (n g : Nat) : (releaseSlot c n g).fenced = c.fenced := by
  unfold releaseSlot; split <;> rfl
@[simp] theorem releaseSlot_out (c : Core) (n g : Nat) : (releaseSlot c n g).out = c.out := by
  unfold releaseSlot; split <;> rfl
@[simp] theorem releaseSlot_events (c : Core) (n g : Nat) : (releaseSlot c n g).events = c.events := by
  unfold releaseSlot; split <;> rfl
@[simp] theorem releaseSlot_cc (c : Core) (n g : Nat) : (releaseSlot c n g).cc = c.cc := by
  unfold releaseSlot; split <;> rfl

/-! ### releaseWait -/

@[simp] theorem releaseWait_stream (c : Core) (w : BitVec 8) (g : Nat) : (releaseWait c w g).stream = c.stream := by
  unfold releaseWait; split <;> simp
@[simp] theorem releaseWait_aregs (c : Core) (w : BitVec 8) (g : Nat) : (releaseWait c w g).aregs = c.aregs := by
  unfold releaseWait; split <;> simp
@[simp] theorem releaseWait_queue (c : Core) (w : BitVec 8) (g : Nat) : (releaseWait c w g).queue = c.queue := by
  unfold releaseWait; split <;> simp
@[simp] theorem releaseWait_qmat (c : Core) (w : BitVec 8) (g : Nat) : (releaseWait c w g).qmat = c.qmat := by
  unfold releaseWait; split <;> simp
@[simp] theorem releaseWait_qxfer (c : Core) (w : BitVec 8) (g : Nat) : (releaseWait c w g).qxfer = c.qxfer := by
  unfold releaseWait; split <;> simp
@[simp] theorem releaseWait_qsync (c : Core) (w : BitVec 8) (g : Nat) : (releaseWait c w g).qsync = c.qsync := by
  unfold releaseWait; split <;> simp
@[simp] theorem releaseWait_started (c : Core) (w : BitVec 8) (g : Nat) : (releaseWait c w g).started = c.started := by
  unfold releaseWait; split <;> simp
@[simp] theorem releaseWait_vec (c : Core) (w : BitVec 8) (g : Nat) : (releaseWait c w g).vec = c.vec := by
  unfold releaseWait; split <;> simp
@[simp] theorem releaseWait_matrix (c : Core) (w : BitVec 8) (g : Nat) : (releaseWait c w g).matrix = c.matrix := by
  unfold releaseWait; split <;> simp
@[simp] theorem releaseWait_xfer (c : Core) (w : BitVec 8) (g : Nat) : (releaseWait c w g).xfer = c.xfer := by
  unfold releaseWait; split <;> simp
@[simp] theorem releaseWait_mon (c : Core) (w : BitVec 8) (g : Nat) : (releaseWait c w g).mon = c.mon := by
  unfold releaseWait; split <;> simp
@[simp] theorem releaseWait_seed (c : Core) (w : BitVec 8) (g : Nat) : (releaseWait c w g).seed = c.seed := by
  unfold releaseWait; split <;> simp
@[simp] theorem releaseWait_slab (c : Core) (w : BitVec 8) (g : Nat) : (releaseWait c w g).slab = c.slab := by
  unfold releaseWait; split <;> simp
@[simp] theorem releaseWait_arbRd (c : Core) (w : BitVec 8) (g : Nat) : (releaseWait c w g).arbRd = c.arbRd := by
  unfold releaseWait; split <;> simp
@[simp] theorem releaseWait_arbWr (c : Core) (w : BitVec 8) (g : Nat) : (releaseWait c w g).arbWr = c.arbWr := by
  unfold releaseWait; split <;> simp
@[simp] theorem releaseWait_rd (c : Core) (w : BitVec 8) (g : Nat) : (releaseWait c w g).rd = c.rd := by
  unfold releaseWait; split <;> simp
@[simp] theorem releaseWait_wr (c : Core) (w : BitVec 8) (g : Nat) : (releaseWait c w g).wr = c.wr := by
  unfold releaseWait; split <;> simp
@[simp] theorem releaseWait_place (c : Core) (w : BitVec 8) (g : Nat) : (releaseWait c w g).place = c.place := by
  unfold releaseWait; split <;> simp
@[simp] theorem releaseWait_activity (c : Core) (w : BitVec 8) (g : Nat) : (releaseWait c w g).activity = c.activity := by
  unfold releaseWait; split <;> simp
@[simp] theorem releaseWait_lockDrain (c : Core) (w : BitVec 8) (g : Nat) : (releaseWait c w g).lockDrain = c.lockDrain := by
  unfold releaseWait; split <;> simp
@[simp] theorem releaseWait_lockStore (c : Core) (w : BitVec 8) (g : Nat) : (releaseWait c w g).lockStore = c.lockStore := by
  unfold releaseWait; split <;> simp
@[simp] theorem releaseWait_stepCc (c : Core) (w : BitVec 8) (g : Nat) : (releaseWait c w g).stepCc = c.stepCc := by
  unfold releaseWait; split <;> simp
@[simp] theorem releaseWait_fenced (c : Core) (w : BitVec 8) (g : Nat) : (releaseWait c w g).fenced = c.fenced := by
  unfold releaseWait; split <;> simp
@[simp] theorem releaseWait_out (c : Core) (w : BitVec 8) (g : Nat) : (releaseWait c w g).out = c.out := by
  unfold releaseWait; split <;> simp
@[simp] theorem releaseWait_events (c : Core) (w : BitVec 8) (g : Nat) : (releaseWait c w g).events = c.events := by
  unfold releaseWait; split <;> simp
@[simp] theorem releaseWait_cc (c : Core) (w : BitVec 8) (g : Nat) : (releaseWait c w g).cc = c.cc := by
  unfold releaseWait; split <;> simp

/-! ### postSlot -/

@[simp] theorem postSlot_stream (c : Core) (n : Nat) : (postSlot c n).stream = c.stream := rfl
@[simp] theorem postSlot_aregs (c : Core) (n : Nat) : (postSlot c n).aregs = c.aregs := rfl
@[simp] theorem postSlot_queue (c : Core) (n : Nat) : (postSlot c n).queue = c.queue := rfl
@[simp] theorem postSlot_qmat (c : Core) (n : Nat) : (postSlot c n).qmat = c.qmat := rfl
@[simp] theorem postSlot_qxfer (c : Core) (n : Nat) : (postSlot c n).qxfer = c.qxfer := rfl
@[simp] theorem postSlot_qsync (c : Core) (n : Nat) : (postSlot c n).qsync = c.qsync := rfl
@[simp] theorem postSlot_started (c : Core) (n : Nat) : (postSlot c n).started = c.started := rfl
@[simp] theorem postSlot_vec (c : Core) (n : Nat) : (postSlot c n).vec = c.vec := rfl
@[simp] theorem postSlot_matrix (c : Core) (n : Nat) : (postSlot c n).matrix = c.matrix := rfl
@[simp] theorem postSlot_xfer (c : Core) (n : Nat) : (postSlot c n).xfer = c.xfer := rfl
@[simp] theorem postSlot_mon (c : Core) (n : Nat) : (postSlot c n).mon = c.mon := rfl
@[simp] theorem postSlot_seed (c : Core) (n : Nat) : (postSlot c n).seed = c.seed := rfl
@[simp] theorem postSlot_slab (c : Core) (n : Nat) : (postSlot c n).slab = c.slab := rfl
@[simp] theorem postSlot_arbRd (c : Core) (n : Nat) : (postSlot c n).arbRd = c.arbRd := rfl
@[simp] theorem postSlot_arbWr (c : Core) (n : Nat) : (postSlot c n).arbWr = c.arbWr := rfl
@[simp] theorem postSlot_rd (c : Core) (n : Nat) : (postSlot c n).rd = c.rd := rfl
@[simp] theorem postSlot_wr (c : Core) (n : Nat) : (postSlot c n).wr = c.wr := rfl
@[simp] theorem postSlot_place (c : Core) (n : Nat) : (postSlot c n).place = c.place := rfl
@[simp] theorem postSlot_activity (c : Core) (n : Nat) : (postSlot c n).activity = c.activity := rfl
@[simp] theorem postSlot_lockDrain (c : Core) (n : Nat) : (postSlot c n).lockDrain = c.lockDrain := rfl
@[simp] theorem postSlot_lockStore (c : Core) (n : Nat) : (postSlot c n).lockStore = c.lockStore := rfl
@[simp] theorem postSlot_stepCc (c : Core) (n : Nat) : (postSlot c n).stepCc = c.stepCc := rfl
@[simp] theorem postSlot_fenced (c : Core) (n : Nat) : (postSlot c n).fenced = c.fenced := rfl
@[simp] theorem postSlot_out (c : Core) (n : Nat) : (postSlot c n).out = c.out := rfl
@[simp] theorem postSlot_events (c : Core) (n : Nat) : (postSlot c n).events = c.events := rfl
@[simp] theorem postSlot_cc (c : Core) (n : Nat) : (postSlot c n).cc = c.cc := rfl

/-! ### postField -/

@[simp] theorem postField_stream (c : Core) (p : BitVec 8) : (postField c p).stream = c.stream := by
  unfold postField; split <;> simp
@[simp] theorem postField_aregs (c : Core) (p : BitVec 8) : (postField c p).aregs = c.aregs := by
  unfold postField; split <;> simp
@[simp] theorem postField_queue (c : Core) (p : BitVec 8) : (postField c p).queue = c.queue := by
  unfold postField; split <;> simp
@[simp] theorem postField_qmat (c : Core) (p : BitVec 8) : (postField c p).qmat = c.qmat := by
  unfold postField; split <;> simp
@[simp] theorem postField_qxfer (c : Core) (p : BitVec 8) : (postField c p).qxfer = c.qxfer := by
  unfold postField; split <;> simp
@[simp] theorem postField_qsync (c : Core) (p : BitVec 8) : (postField c p).qsync = c.qsync := by
  unfold postField; split <;> simp
@[simp] theorem postField_started (c : Core) (p : BitVec 8) : (postField c p).started = c.started := by
  unfold postField; split <;> simp
@[simp] theorem postField_vec (c : Core) (p : BitVec 8) : (postField c p).vec = c.vec := by
  unfold postField; split <;> simp
@[simp] theorem postField_matrix (c : Core) (p : BitVec 8) : (postField c p).matrix = c.matrix := by
  unfold postField; split <;> simp
@[simp] theorem postField_xfer (c : Core) (p : BitVec 8) : (postField c p).xfer = c.xfer := by
  unfold postField; split <;> simp
@[simp] theorem postField_mon (c : Core) (p : BitVec 8) : (postField c p).mon = c.mon := by
  unfold postField; split <;> simp
@[simp] theorem postField_seed (c : Core) (p : BitVec 8) : (postField c p).seed = c.seed := by
  unfold postField; split <;> simp
@[simp] theorem postField_slab (c : Core) (p : BitVec 8) : (postField c p).slab = c.slab := by
  unfold postField; split <;> simp
@[simp] theorem postField_arbRd (c : Core) (p : BitVec 8) : (postField c p).arbRd = c.arbRd := by
  unfold postField; split <;> simp
@[simp] theorem postField_arbWr (c : Core) (p : BitVec 8) : (postField c p).arbWr = c.arbWr := by
  unfold postField; split <;> simp
@[simp] theorem postField_rd (c : Core) (p : BitVec 8) : (postField c p).rd = c.rd := by
  unfold postField; split <;> simp
@[simp] theorem postField_wr (c : Core) (p : BitVec 8) : (postField c p).wr = c.wr := by
  unfold postField; split <;> simp
@[simp] theorem postField_place (c : Core) (p : BitVec 8) : (postField c p).place = c.place := by
  unfold postField; split <;> simp
@[simp] theorem postField_activity (c : Core) (p : BitVec 8) : (postField c p).activity = c.activity := by
  unfold postField; split <;> simp
@[simp] theorem postField_lockDrain (c : Core) (p : BitVec 8) : (postField c p).lockDrain = c.lockDrain := by
  unfold postField; split <;> simp
@[simp] theorem postField_lockStore (c : Core) (p : BitVec 8) : (postField c p).lockStore = c.lockStore := by
  unfold postField; split <;> simp
@[simp] theorem postField_stepCc (c : Core) (p : BitVec 8) : (postField c p).stepCc = c.stepCc := by
  unfold postField; split <;> simp
@[simp] theorem postField_fenced (c : Core) (p : BitVec 8) : (postField c p).fenced = c.fenced := by
  unfold postField; split <;> simp
@[simp] theorem postField_out (c : Core) (p : BitVec 8) : (postField c p).out = c.out := by
  unfold postField; split <;> simp
@[simp] theorem postField_events (c : Core) (p : BitVec 8) : (postField c p).events = c.events := by
  unfold postField; split <;> simp
@[simp] theorem postField_cc (c : Core) (p : BitVec 8) : (postField c p).cc = c.cc := by
  unfold postField; split <;> simp

/-! ### completeEntry -/

@[simp] theorem completeEntry_stream (c : Core) (st : Started) : (completeEntry c st).stream = c.stream := by
  unfold completeEntry; simp
@[simp] theorem completeEntry_aregs (c : Core) (st : Started) : (completeEntry c st).aregs = c.aregs := by
  unfold completeEntry; simp
@[simp] theorem completeEntry_queue (c : Core) (st : Started) : (completeEntry c st).queue = c.queue := by
  unfold completeEntry; simp
@[simp] theorem completeEntry_qmat (c : Core) (st : Started) : (completeEntry c st).qmat = c.qmat := by
  unfold completeEntry; simp
@[simp] theorem completeEntry_qxfer (c : Core) (st : Started) : (completeEntry c st).qxfer = c.qxfer := by
  unfold completeEntry; simp
@[simp] theorem completeEntry_qsync (c : Core) (st : Started) : (completeEntry c st).qsync = c.qsync := by
  unfold completeEntry; simp
@[simp] theorem completeEntry_started (c : Core) (st : Started) : (completeEntry c st).started = c.started := by
  unfold completeEntry; simp
@[simp] theorem completeEntry_vec (c : Core) (st : Started) : (completeEntry c st).vec = c.vec := by
  unfold completeEntry; simp
@[simp] theorem completeEntry_matrix (c : Core) (st : Started) : (completeEntry c st).matrix = c.matrix := by
  unfold completeEntry; simp
@[simp] theorem completeEntry_xfer (c : Core) (st : Started) : (completeEntry c st).xfer = c.xfer := by
  unfold completeEntry; simp
@[simp] theorem completeEntry_mon (c : Core) (st : Started) : (completeEntry c st).mon = c.mon := by
  unfold completeEntry; simp
@[simp] theorem completeEntry_seed (c : Core) (st : Started) : (completeEntry c st).seed = c.seed := by
  unfold completeEntry; simp
@[simp] theorem completeEntry_slab (c : Core) (st : Started) : (completeEntry c st).slab = c.slab := by
  unfold completeEntry; simp
@[simp] theorem completeEntry_arbRd (c : Core) (st : Started) : (completeEntry c st).arbRd = c.arbRd := by
  unfold completeEntry; simp
@[simp] theorem completeEntry_arbWr (c : Core) (st : Started) : (completeEntry c st).arbWr = c.arbWr := by
  unfold completeEntry; simp
@[simp] theorem completeEntry_rd (c : Core) (st : Started) : (completeEntry c st).rd = c.rd := by
  unfold completeEntry; simp
@[simp] theorem completeEntry_wr (c : Core) (st : Started) : (completeEntry c st).wr = c.wr := by
  unfold completeEntry; simp
@[simp] theorem completeEntry_place (c : Core) (st : Started) : (completeEntry c st).place = c.place := by
  unfold completeEntry; simp
@[simp] theorem completeEntry_activity (c : Core) (st : Started) : (completeEntry c st).activity = c.activity := by
  unfold completeEntry; simp
@[simp] theorem completeEntry_lockDrain (c : Core) (st : Started) : (completeEntry c st).lockDrain = c.lockDrain := by
  unfold completeEntry; simp
@[simp] theorem completeEntry_lockStore (c : Core) (st : Started) : (completeEntry c st).lockStore = c.lockStore := by
  unfold completeEntry; simp
@[simp] theorem completeEntry_stepCc (c : Core) (st : Started) : (completeEntry c st).stepCc = c.stepCc := by
  unfold completeEntry; simp
@[simp] theorem completeEntry_fenced (c : Core) (st : Started) : (completeEntry c st).fenced = c.fenced := by
  unfold completeEntry; simp
@[simp] theorem completeEntry_out (c : Core) (st : Started) : (completeEntry c st).out = c.out := by
  unfold completeEntry; simp
@[simp] theorem completeEntry_events (c : Core) (st : Started) : (completeEntry c st).events = c.events := by
  unfold completeEntry; simp
@[simp] theorem completeEntry_cc (c : Core) (st : Started) : (completeEntry c st).cc = c.cc := by
  unfold completeEntry; simp

/-! ### coreFault -/

@[simp] theorem coreFault_aregs (c : Core) (code : FaultCode) (e : Engine) (pc icount : Nat) : (coreFault c code e pc icount).aregs = c.aregs := by
  unfold coreFault; split
  · split <;> rfl
  · rfl
@[simp] theorem coreFault_queue (c : Core) (code : FaultCode) (e : Engine) (pc icount : Nat) : (coreFault c code e pc icount).queue = c.queue := by
  unfold coreFault; split
  · split <;> rfl
  · rfl
@[simp] theorem coreFault_qmat (c : Core) (code : FaultCode) (e : Engine) (pc icount : Nat) : (coreFault c code e pc icount).qmat = c.qmat := by
  unfold coreFault; split
  · split <;> rfl
  · rfl
@[simp] theorem coreFault_qxfer (c : Core) (code : FaultCode) (e : Engine) (pc icount : Nat) : (coreFault c code e pc icount).qxfer = c.qxfer := by
  unfold coreFault; split
  · split <;> rfl
  · rfl
@[simp] theorem coreFault_qsync (c : Core) (code : FaultCode) (e : Engine) (pc icount : Nat) : (coreFault c code e pc icount).qsync = c.qsync := by
  unfold coreFault; split
  · split <;> rfl
  · rfl
@[simp] theorem coreFault_started (c : Core) (code : FaultCode) (e : Engine) (pc icount : Nat) : (coreFault c code e pc icount).started = c.started := by
  unfold coreFault; split
  · split <;> rfl
  · rfl
@[simp] theorem coreFault_sync (c : Core) (code : FaultCode) (e : Engine) (pc icount : Nat) : (coreFault c code e pc icount).sync = c.sync := by
  unfold coreFault; split
  · split <;> rfl
  · rfl
@[simp] theorem coreFault_vec (c : Core) (code : FaultCode) (e : Engine) (pc icount : Nat) : (coreFault c code e pc icount).vec = c.vec := by
  unfold coreFault; split
  · split <;> rfl
  · rfl
@[simp] theorem coreFault_matrix (c : Core) (code : FaultCode) (e : Engine) (pc icount : Nat) : (coreFault c code e pc icount).matrix = c.matrix := by
  unfold coreFault; split
  · split <;> rfl
  · rfl
@[simp] theorem coreFault_xfer (c : Core) (code : FaultCode) (e : Engine) (pc icount : Nat) : (coreFault c code e pc icount).xfer = c.xfer := by
  unfold coreFault; split
  · split <;> rfl
  · rfl
@[simp] theorem coreFault_mon (c : Core) (code : FaultCode) (e : Engine) (pc icount : Nat) : (coreFault c code e pc icount).mon = c.mon := by
  unfold coreFault; split
  · split <;> rfl
  · rfl
@[simp] theorem coreFault_seed (c : Core) (code : FaultCode) (e : Engine) (pc icount : Nat) : (coreFault c code e pc icount).seed = c.seed := by
  unfold coreFault; split
  · split <;> rfl
  · rfl
@[simp] theorem coreFault_slab (c : Core) (code : FaultCode) (e : Engine) (pc icount : Nat) : (coreFault c code e pc icount).slab = c.slab := by
  unfold coreFault; split
  · split <;> rfl
  · rfl
@[simp] theorem coreFault_arbRd (c : Core) (code : FaultCode) (e : Engine) (pc icount : Nat) : (coreFault c code e pc icount).arbRd = c.arbRd := by
  unfold coreFault; split
  · split <;> rfl
  · rfl
@[simp] theorem coreFault_arbWr (c : Core) (code : FaultCode) (e : Engine) (pc icount : Nat) : (coreFault c code e pc icount).arbWr = c.arbWr := by
  unfold coreFault; split
  · split <;> rfl
  · rfl
@[simp] theorem coreFault_rd (c : Core) (code : FaultCode) (e : Engine) (pc icount : Nat) : (coreFault c code e pc icount).rd = c.rd := by
  unfold coreFault; split
  · split <;> rfl
  · rfl
@[simp] theorem coreFault_wr (c : Core) (code : FaultCode) (e : Engine) (pc icount : Nat) : (coreFault c code e pc icount).wr = c.wr := by
  unfold coreFault; split
  · split <;> rfl
  · rfl
@[simp] theorem coreFault_place (c : Core) (code : FaultCode) (e : Engine) (pc icount : Nat) : (coreFault c code e pc icount).place = c.place := by
  unfold coreFault; split
  · split <;> rfl
  · rfl
@[simp] theorem coreFault_activity (c : Core) (code : FaultCode) (e : Engine) (pc icount : Nat) : (coreFault c code e pc icount).activity = c.activity := by
  unfold coreFault; split
  · split <;> rfl
  · rfl
@[simp] theorem coreFault_lockDrain (c : Core) (code : FaultCode) (e : Engine) (pc icount : Nat) : (coreFault c code e pc icount).lockDrain = c.lockDrain := by
  unfold coreFault; split
  · split <;> rfl
  · rfl
@[simp] theorem coreFault_lockStore (c : Core) (code : FaultCode) (e : Engine) (pc icount : Nat) : (coreFault c code e pc icount).lockStore = c.lockStore := by
  unfold coreFault; split
  · split <;> rfl
  · rfl
@[simp] theorem coreFault_stepCc (c : Core) (code : FaultCode) (e : Engine) (pc icount : Nat) : (coreFault c code e pc icount).stepCc = c.stepCc := by
  unfold coreFault; split
  · split <;> rfl
  · rfl
@[simp] theorem coreFault_fenced (c : Core) (code : FaultCode) (e : Engine) (pc icount : Nat) : (coreFault c code e pc icount).fenced = c.fenced := by
  unfold coreFault; split
  · split <;> rfl
  · rfl
@[simp] theorem coreFault_events (c : Core) (code : FaultCode) (e : Engine) (pc icount : Nat) : (coreFault c code e pc icount).events = c.events := by
  unfold coreFault; split
  · split <;> rfl
  · rfl
@[simp] theorem coreFault_cc (c : Core) (code : FaultCode) (e : Engine) (pc icount : Nat) : (coreFault c code e pc icount).cc = c.cc := by
  unfold coreFault; split
  · split <;> rfl
  · rfl

/-! ### entryFault -/

@[simp] theorem entryFault_aregs (c : Core) (code : FaultCode) (e : QEntry) : (entryFault c code e).aregs = c.aregs := by
  unfold entryFault; simp
@[simp] theorem entryFault_queue (c : Core) (code : FaultCode) (e : QEntry) : (entryFault c code e).queue = c.queue := by
  unfold entryFault; simp
@[simp] theorem entryFault_qmat (c : Core) (code : FaultCode) (e : QEntry) : (entryFault c code e).qmat = c.qmat := by
  unfold entryFault; simp
@[simp] theorem entryFault_qxfer (c : Core) (code : FaultCode) (e : QEntry) : (entryFault c code e).qxfer = c.qxfer := by
  unfold entryFault; simp
@[simp] theorem entryFault_qsync (c : Core) (code : FaultCode) (e : QEntry) : (entryFault c code e).qsync = c.qsync := by
  unfold entryFault; simp
@[simp] theorem entryFault_started (c : Core) (code : FaultCode) (e : QEntry) : (entryFault c code e).started = c.started := by
  unfold entryFault; simp
@[simp] theorem entryFault_sync (c : Core) (code : FaultCode) (e : QEntry) : (entryFault c code e).sync = c.sync := by
  unfold entryFault; simp
@[simp] theorem entryFault_vec (c : Core) (code : FaultCode) (e : QEntry) : (entryFault c code e).vec = c.vec := by
  unfold entryFault; simp
@[simp] theorem entryFault_matrix (c : Core) (code : FaultCode) (e : QEntry) : (entryFault c code e).matrix = c.matrix := by
  unfold entryFault; simp
@[simp] theorem entryFault_xfer (c : Core) (code : FaultCode) (e : QEntry) : (entryFault c code e).xfer = c.xfer := by
  unfold entryFault; simp
@[simp] theorem entryFault_mon (c : Core) (code : FaultCode) (e : QEntry) : (entryFault c code e).mon = c.mon := by
  unfold entryFault; simp
@[simp] theorem entryFault_seed (c : Core) (code : FaultCode) (e : QEntry) : (entryFault c code e).seed = c.seed := by
  unfold entryFault; simp
@[simp] theorem entryFault_slab (c : Core) (code : FaultCode) (e : QEntry) : (entryFault c code e).slab = c.slab := by
  unfold entryFault; simp
@[simp] theorem entryFault_arbRd (c : Core) (code : FaultCode) (e : QEntry) : (entryFault c code e).arbRd = c.arbRd := by
  unfold entryFault; simp
@[simp] theorem entryFault_arbWr (c : Core) (code : FaultCode) (e : QEntry) : (entryFault c code e).arbWr = c.arbWr := by
  unfold entryFault; simp
@[simp] theorem entryFault_rd (c : Core) (code : FaultCode) (e : QEntry) : (entryFault c code e).rd = c.rd := by
  unfold entryFault; simp
@[simp] theorem entryFault_wr (c : Core) (code : FaultCode) (e : QEntry) : (entryFault c code e).wr = c.wr := by
  unfold entryFault; simp
@[simp] theorem entryFault_place (c : Core) (code : FaultCode) (e : QEntry) : (entryFault c code e).place = c.place := by
  unfold entryFault; simp
@[simp] theorem entryFault_activity (c : Core) (code : FaultCode) (e : QEntry) : (entryFault c code e).activity = c.activity := by
  unfold entryFault; simp
@[simp] theorem entryFault_lockDrain (c : Core) (code : FaultCode) (e : QEntry) : (entryFault c code e).lockDrain = c.lockDrain := by
  unfold entryFault; simp
@[simp] theorem entryFault_lockStore (c : Core) (code : FaultCode) (e : QEntry) : (entryFault c code e).lockStore = c.lockStore := by
  unfold entryFault; simp
@[simp] theorem entryFault_stepCc (c : Core) (code : FaultCode) (e : QEntry) : (entryFault c code e).stepCc = c.stepCc := by
  unfold entryFault; simp
@[simp] theorem entryFault_fenced (c : Core) (code : FaultCode) (e : QEntry) : (entryFault c code e).fenced = c.fenced := by
  unfold entryFault; simp
@[simp] theorem entryFault_events (c : Core) (code : FaultCode) (e : QEntry) : (entryFault c code e).events = c.events := by
  unfold entryFault; simp
@[simp] theorem entryFault_cc (c : Core) (code : FaultCode) (e : QEntry) : (entryFault c code e).cc = c.cc := by
  unfold entryFault; simp

/-! ### setQueue -/

@[simp] theorem setQueue_stream (c : Core) (e : Engine) (q : List QEntry) : (setQueue c e q).stream = c.stream := by
  cases e <;> rfl
@[simp] theorem setQueue_aregs (c : Core) (e : Engine) (q : List QEntry) : (setQueue c e q).aregs = c.aregs := by
  cases e <;> rfl
@[simp] theorem setQueue_started (c : Core) (e : Engine) (q : List QEntry) : (setQueue c e q).started = c.started := by
  cases e <;> rfl
@[simp] theorem setQueue_sync (c : Core) (e : Engine) (q : List QEntry) : (setQueue c e q).sync = c.sync := by
  cases e <;> rfl
@[simp] theorem setQueue_vec (c : Core) (e : Engine) (q : List QEntry) : (setQueue c e q).vec = c.vec := by
  cases e <;> rfl
@[simp] theorem setQueue_matrix (c : Core) (e : Engine) (q : List QEntry) : (setQueue c e q).matrix = c.matrix := by
  cases e <;> rfl
@[simp] theorem setQueue_xfer (c : Core) (e : Engine) (q : List QEntry) : (setQueue c e q).xfer = c.xfer := by
  cases e <;> rfl
@[simp] theorem setQueue_mon (c : Core) (e : Engine) (q : List QEntry) : (setQueue c e q).mon = c.mon := by
  cases e <;> rfl
@[simp] theorem setQueue_seed (c : Core) (e : Engine) (q : List QEntry) : (setQueue c e q).seed = c.seed := by
  cases e <;> rfl
@[simp] theorem setQueue_slab (c : Core) (e : Engine) (q : List QEntry) : (setQueue c e q).slab = c.slab := by
  cases e <;> rfl
@[simp] theorem setQueue_arbRd (c : Core) (e : Engine) (q : List QEntry) : (setQueue c e q).arbRd = c.arbRd := by
  cases e <;> rfl
@[simp] theorem setQueue_arbWr (c : Core) (e : Engine) (q : List QEntry) : (setQueue c e q).arbWr = c.arbWr := by
  cases e <;> rfl
@[simp] theorem setQueue_rd (c : Core) (e : Engine) (q : List QEntry) : (setQueue c e q).rd = c.rd := by
  cases e <;> rfl
@[simp] theorem setQueue_wr (c : Core) (e : Engine) (q : List QEntry) : (setQueue c e q).wr = c.wr := by
  cases e <;> rfl
@[simp] theorem setQueue_place (c : Core) (e : Engine) (q : List QEntry) : (setQueue c e q).place = c.place := by
  cases e <;> rfl
@[simp] theorem setQueue_activity (c : Core) (e : Engine) (q : List QEntry) : (setQueue c e q).activity = c.activity := by
  cases e <;> rfl
@[simp] theorem setQueue_lockDrain (c : Core) (e : Engine) (q : List QEntry) : (setQueue c e q).lockDrain = c.lockDrain := by
  cases e <;> rfl
@[simp] theorem setQueue_lockStore (c : Core) (e : Engine) (q : List QEntry) : (setQueue c e q).lockStore = c.lockStore := by
  cases e <;> rfl
@[simp] theorem setQueue_stepCc (c : Core) (e : Engine) (q : List QEntry) : (setQueue c e q).stepCc = c.stepCc := by
  cases e <;> rfl
@[simp] theorem setQueue_fenced (c : Core) (e : Engine) (q : List QEntry) : (setQueue c e q).fenced = c.fenced := by
  cases e <;> rfl
@[simp] theorem setQueue_out (c : Core) (e : Engine) (q : List QEntry) : (setQueue c e q).out = c.out := by
  cases e <;> rfl
@[simp] theorem setQueue_events (c : Core) (e : Engine) (q : List QEntry) : (setQueue c e q).events = c.events := by
  cases e <;> rfl
@[simp] theorem setQueue_cc (c : Core) (e : Engine) (q : List QEntry) : (setQueue c e q).cc = c.cc := by
  cases e <;> rfl

/-! ### Reading back -/

@[simp] theorem getA_setA_same (c : Core) (n : Nat) (v : AReg) : getA (setA c n v) n = v := by simp [getA, setA]

theorem getA_setA_other (c : Core) (v : AReg) {n r : Nat} (h : r ≠ n) : getA (setA c n v) r = getA c r := by
  simp [getA, setA, smGet_smSet_other _ _ _ h]

@[simp] theorem getA_setAVal_same (c : Core) (n : Nat) (v : W48) : getA (setAVal c n v) n = { getA c n with value := v } := by
  simp [setAVal]

theorem getA_setAVal_other (c : Core) (v : W48) {n r : Nat} (h : r ≠ n) : getA (setAVal c n v) r = getA c r := by
  simp [setAVal, getA_setA_other _ _ h]

@[simp] theorem getV_setV_same (c : Core) (n : Nat) (v : Row) : getV (setV c n v) n = v := by simp [getV, setV]

theorem getV_setV_other (c : Core) (v : Row) {n r : Nat} (h : r % 64 ≠ n % 64) : getV (setV c n v) r = getV c r := by
  simp [getV, setV, smGet_smSet_other _ _ _ h]

@[simp] theorem getSlot_setSlot_same (c : Core) (n : Nat) (v : Slot) : getSlot (setSlot c n v) n = v := by
  simp [getSlot, setSlot]

theorem getSlot_setSlot_other (c : Core) (v : Slot) {n r : Nat} (h : r ≠ n) : getSlot (setSlot c n v) r = getSlot c r := by
  simp [getSlot, setSlot, smGet_smSet_other _ _ _ h]

/-- An admission, a release or a post changes no slot but its own. -/
theorem getSlot_admitWait_other (c : Core) (w : BitVec 8) {r : Nat} (h : r ≠ w.toNat) :
    getSlot (admitWait c w) r = getSlot c r := by
  unfold admitWait; split
  · rfl
  · exact getSlot_setSlot_other _ _ h

theorem getSlot_releaseWait_other (c : Core) (w : BitVec 8) (g : Nat) {r : Nat} (h : r ≠ w.toNat) :
    getSlot (releaseWait c w g) r = getSlot c r := by
  unfold releaseWait releaseSlot; split
  · rfl
  · split
    · exact getSlot_setSlot_other _ _ h
    · rfl

theorem getSlot_postField_other (c : Core) (p : BitVec 8) {r : Nat} (h : r ≠ p.toNat) :
    getSlot (postField c p) r = getSlot c r := by
  unfold postField postSlot; split
  · rfl
  · exact getSlot_setSlot_other _ _ h

/-- A completion changes no slot but the wait and the post slot of its instruction. -/
theorem getSlot_completeEntry_other (c : Core) (st : Started) {r : Nat} (hw : r ≠ st.entry.insn.wait.toNat)
    (hp : r ≠ st.entry.insn.post.toNat) : getSlot (completeEntry c st) r = getSlot c r := by
  unfold completeEntry
  rw [getSlot_postField_other _ _ hp, getSlot_releaseWait_other _ _ _ hw]

/-- A queue that has been replaced reads as the new one; the issue unit and the stop have none. -/
theorem engineQueue_setQueue (c : Core) (e : Engine) (q : List QEntry) (h : e ≠ .issue) (hs : e ≠ .stop) :
    engineQueue (setQueue c e q) e = q := by
  cases e <;> first | rfl | exact absurd rfl h | exact absurd rfl hs

/-- A fault takes the core to FAULTED. -/
@[simp] theorem coreFault_state (c : Core) (code : FaultCode) (e : Engine) (pc icount : Nat) :
    (coreFault c code e pc icount).stream.state = .faulted := by
  unfold coreFault; split
  · split <;> rfl
  · rfl

/-- The head of an engine's queue starts: it leaves the queue and takes its admission; nothing else changes. -/
theorem takeHead_some (c : Core) (e : Engine) (ok : CoreOp → Bool) (st : Started) (c1 : Core)
    (h : takeHead c e ok = some (st, c1)) :
    ∃ rest, engineQueue c e = st.entry :: rest ∧ ok st.entry.insn.op = true ∧ mayStart c = true ∧
      engineFree c st.entry.insn.op = true ∧ admitsNow c e st.entry.insn.wait = true ∧
      st.gen = waitGen c st.entry.insn.wait ∧ c1 = setQueue (admitWait c st.entry.insn.wait) e rest := by
  unfold takeHead at h
  split at h
  · cases h
  · rename_i q rest hq
    split at h
    · rename_i hc
      simp only [Option.some.injEq, Prod.mk.injEq] at h
      obtain ⟨h1, h2⟩ := h
      simp only [Bool.and_eq_true] at hc
      subst h1
      exact ⟨rest, hq, hc.1.1.2, hc.1.1.1, hc.1.2, hc.2, rfl, h2.symm⟩
    · cases h

end Sys2Proof.Machine
end

