-- ==== Sys2Proof/Laws/Hash.lean ====
section
/-!
SUPPORT. Sys2Proof/Laws/Hash.lean: how long the byte forms of numbers and the digests are.
-/

namespace Sys2Proof.Machine

@[simp] theorem bytesLE_length (n v : Nat) : (bytesLE n v).length = n := by
  induction n generalizing v with
  | zero => rfl
  | succ n ih => simp [bytesLE, ih]

@[simp] theorem bytesBE_length (n v : Nat) : (bytesBE n v).length = n := by simp [bytesBE]

theorem ofBytesBE_append (l : List Byte) (b : Byte) : ofBytesBE (l ++ [b]) = ofBytesBE l * 256 + b.toNat := by
  simp [ofBytesBE, List.foldl_append]

/-- The n bytes of a number give the number back, modulo 2^(8 n). -/
theorem ofBytesBE_bytesBE (n v : Nat) : ofBytesBE (bytesBE n v) = v % 256 ^ n := by
  induction n generalizing v with
  | zero => simp [bytesBE, bytesLE, ofBytesBE, Nat.mod_one]
  | succ n ih =>
    have h : bytesBE (n + 1) v = bytesBE n (v / 256) ++ [BitVec.ofNat 8 v] := by simp [bytesBE, bytesLE]
    rw [h, ofBytesBE_append, ih, BitVec.toNat_ofNat, show (256 : Nat) ^ (n + 1) = 256 ^ n * 256 from rfl, Nat.mul_comm (256 ^ n) 256, Nat.mod_mul]
    omega

theorem ofBytesLE_bytesLE (n v : Nat) : ofBytesLE (bytesLE n v) = v % 256 ^ n := by
  induction n generalizing v with
  | zero => simp [bytesLE, ofBytesLE, Nat.mod_one]
  | succ n ih =>
    rw [bytesLE, ofBytesLE, ih, BitVec.toNat_ofNat, show (256 : Nat) ^ (n + 1) = 256 ^ n * 256 from rfl, Nat.mul_comm (256 ^ n) 256, Nat.mod_mul]

/-- A round keeps the eight working words eight. -/
theorem shaRound_length {b : Nat} (r : ShaRot) (h : List (BitVec b)) (kw : BitVec b × BitVec b) : (shaRound r h kw).length = h.length := by
  unfold shaRound
  split <;> rfl

theorem foldl_shaRound_length {b : Nat} (r : ShaRot) (l : List (BitVec b × BitVec b)) (h : List (BitVec b)) :
    (l.foldl (shaRound r) h).length = h.length := by
  induction l generalizing h with
  | nil => rfl
  | cons x l ih => rw [List.foldl_cons, ih, shaRound_length]

theorem shaBlock_length {b : Nat} (r : ShaRot) (ks h blk : List (BitVec b)) : (shaBlock r ks h blk).length = h.length := by
  simp [shaBlock, foldl_shaRound_length]

theorem shaBlocks_length {b : Nat} (r : ShaRot) (ks : List (BitVec b)) (wb n : Nat) (h : List (BitVec b)) (l : List Byte) :
    (shaBlocks r ks wb n h l).length = h.length := by
  induction n generalizing h l with
  | zero => rfl
  | succ n ih => rw [shaBlocks, ih, shaBlock_length]

theorem flatMap_bytesBE_length {b : Nat} (k : Nat) (l : List (BitVec b)) : (l.flatMap fun w => bytesBE k w.toNat).length = k * l.length := by
  induction l with
  | nil => rfl
  | cons w l ih => simp [List.flatMap_cons, ih, Nat.mul_add, Nat.add_comm]

@[simp] theorem sha256_length (l : List Byte) : (sha256 l).length = 32 := by
  unfold sha256
  simp only [flatMap_bytesBE_length, shaBlocks_length, List.length_map]
  rfl

@[simp] theorem sha384_length (l : List Byte) : (sha384 l).length = 48 := by
  unfold sha384
  simp only [flatMap_bytesBE_length, List.length_take, shaBlocks_length, List.length_map]
  rfl

end Sys2Proof.Machine
end

