-- ==== Sys2Proof/Laws/Memory.lean ====
section
/-!
SUPPORT. Sys2Proof/Laws/Memory.lean: the operations on the module's memories keep their canonical form, and the module's memories
have it at reset.
-/

namespace Sys2Proof.Machine

variable {α : Type}

/-! ### The canonical form under folds, filters and tables -/

theorem smWf_foldl_smSet [DecidableEq α] {β : Type} (d : α) (k : β → Nat) (v : β → α) (l : List β) :
    ∀ m : SMap α, smWf d m = true → smWf d (l.foldl (fun m x => smSet d m (k x) (v x)) m) = true := by
  induction l with
  | nil => intro m h; exact h
  | cons x l ih => intro m h; exact ih _ (smWf_smSet d m _ _ h)

theorem smAbove_filter (f : Nat × α → Bool) (k : Nat) (m : SMap α) (h : smAbove k m = true) : smAbove k (m.filter f) = true := by
  induction m with
  | nil => rfl
  | cons a m ih =>
    simp only [smAbove, Bool.and_eq_true] at h
    simp only [List.filter_cons]
    split
    · simp only [smAbove, Bool.and_eq_true]; exact ⟨h.1, ih h.2⟩
    · exact ih h.2

/-- Leaving entries out keeps the canonical form. -/
theorem smWf_filter [DecidableEq α] (d : α) (f : Nat × α → Bool) (m : SMap α) (h : smWf d m = true) : smWf d (m.filter f) = true := by
  induction m with
  | nil => rfl
  | cons a m ih =>
    simp only [smWf, Bool.and_eq_true] at h
    simp only [List.filter_cons]
    split
    · simp only [smWf, Bool.and_eq_true]; exact ⟨⟨h.1.1, smAbove_filter f a.1 m h.1.2⟩, ih h.2⟩
    · exact ih h.2

theorem smWf_filterMap [DecidableEq α] (d : α) (f : Nat → α) (l : List Nat) (hl : l.Pairwise (· < ·)) :
    smWf d (l.filterMap fun k => if f k = d then none else some (k, f k)) = true ∧
    ∀ j, (∀ k ∈ l, j < k) → smAbove j (l.filterMap fun k => if f k = d then none else some (k, f k)) = true := by
  induction l with
  | nil => exact ⟨rfl, fun _ _ => rfl⟩
  | cons a l ih =>
    obtain ⟨ha, hl⟩ := List.pairwise_cons.mp hl
    obtain ⟨h1, h2⟩ := ih hl
    by_cases h : f a = d
    · simp only [List.filterMap_cons, h, if_true]
      exact ⟨h1, fun j hj => h2 j fun k hk => hj k (List.mem_cons_of_mem _ hk)⟩
    · simp only [List.filterMap_cons, h, if_false, smWf, smAbove, Bool.and_eq_true, decide_eq_true_eq]
      exact ⟨⟨⟨h, h2 a ha⟩, h1⟩, fun j hj =>
        ⟨hj a List.mem_cons_self, h2 j fun k hk => hj k (List.mem_cons_of_mem _ hk)⟩⟩

/-- A table of values is in canonical form. -/
theorem smWf_smTable [DecidableEq α] (d : α) (n : Nat) (f : Nat → α) : smWf d (smTable d n f) = true :=
  (smWf_filterMap d f (List.range n) List.pairwise_lt_range).1

/-! ### Slabs -/

@[simp] theorem countSlab_words (c : Core) (n : Nat) : (countSlab c n).slab.words = c.slab.words := rfl

@[simp] theorem readWord_words (c : Core) (r seg : Nat) : (readWord c r seg).2.slab.words = c.slab.words := by
  simp only [readWord]; split
  · rfl
  · split <;> rfl

@[simp] theorem readWords_words (r : Nat) (l : List Nat) (c : Core) (acc : Row) :
    (readWords r l c acc).2.slab.words = c.slab.words := by
  induction l generalizing c acc with
  | nil => rfl
  | cons s l ih => simp [readWords, ih]

/-- A row read stores nothing. -/
@[simp] theorem readRow_words (c : Core) (r n : Nat) : (readRow c r n).2.slab.words = c.slab.words := by simp [readRow]

theorem writeWord_wf (c : Core) (r seg : Nat) (d : W32) (z : Bool) (h : smWf 0#40 c.slab.words = true) :
    smWf 0#40 (writeWord c r seg d z).slab.words = true := smWf_smSet _ _ _ _ h

theorem writeWords_wf (r : Nat) (row : Row) (l : List Nat) (c : Core) (h : smWf 0#40 c.slab.words = true) :
    smWf 0#40 (writeWords r row l c).slab.words = true := by
  induction l generalizing c with
  | nil => exact h
  | cons s l ih => exact ih _ (writeWord_wf c r s _ _ h)

theorem writeRow_wf (c : Core) (r : Nat) (row : Row) (n : Nat) (h : smWf 0#40 c.slab.words = true) :
    smWf 0#40 (writeRow c r row n).slab.words = true := writeWords_wf r row _ _ h

theorem writeCol_wf (c : Core) (r0 seg : Nat) (row : Row) (h : smWf 0#40 c.slab.words = true) :
    smWf 0#40 (writeCol c r0 seg row).slab.words = true := by
  suffices H : ∀ (l : List Nat) (c : Core), smWf 0#40 c.slab.words = true →
      smWf 0#40 (l.foldl (fun c i => writeWord c (r0 + i) seg (rowWord row i) (rowZ row i)) c).slab.words = true from H _ _ h
  intro l
  induction l with
  | nil => intro c h; exact h
  | cons i l ih => intro c h; exact ih _ (writeWord_wf c _ _ _ _ h)

theorem zeroBanks_wf (c : Core) (b : BitVec 36) (h : smWf 0#40 c.slab.words = true) :
    smWf 0#40 (zeroBanks c b).slab.words = true := by
  simp only [zeroBanks]; exact smWf_smMap _ _ _ h

theorem storeBack_wf (c : Core) (w : WriteBack) (h : smWf 0#40 c.slab.words = true) :
    smWf 0#40 (storeBack c w).slab.words = true := smWf_foldl_smSet _ _ _ _ _ h

theorem fettleWrite_wf (c : Core) (h : smWf 0#40 c.slab.words = true) : smWf 0#40 (fettleWrite c).slab.words = true := by
  simp only [fettleWrite]
  split
  · exact h
  · split
    · exact h
    · split
      · exact h
      · exact storeBack_wf _ _ h

theorem savedSlab_wf (c : Core) (h : smWf 0#40 c.slab.words = true) : smWf 0#40 (savedSlab c) = true := smWf_smMap _ _ _ h

/-- A slab read from a save's bytes is in canonical form. -/
theorem parseRecord_wf (vw : Nat) (l : List Byte) (bad : List Nat) : smWf 0#40 (parseRecord vw l bad).slab = true := by
  simp only [parseRecord, smWf_smTable]

/-! ### The partitions -/

/-- The partitions' stores are in canonical form. -/
def Hbm.memWf (h : Hbm) : Bool := smWf 0#72 h.words && smWf 0#64 h.entries && smWf 0#64 h.runs

theorem hbmMem_iff (h : Hbm) :
    h.memWf = true ↔ smWf 0#72 h.words = true ∧ smWf 0#64 h.entries = true ∧ smWf 0#64 h.runs = true := by
  simp [Hbm.memWf, and_assoc]

/-- Two partitions with the same stores. -/
theorem hbmMem_congr {g h : Hbm} (w : g.words = h.words) (e : g.entries = h.entries) (r : g.runs = h.runs) : g.memWf = h.memWf := by
  simp [Hbm.memWf, w, e, r]

theorem hbmWriteWord_wf (a : Nat) (d : W64) (z : Bool) (h : Hbm) (w : h.memWf = true) : (hbmWriteWord a d z h).memWf = true := by
  rw [hbmMem_iff] at w ⊢
  exact ⟨smWf_smSet _ _ _ _ w.1, w.2⟩

theorem startRetrain_mem (h : Hbm) (s : Nat) : (startRetrain h s).memWf = h.memWf := by
  simp only [startRetrain]; split <;> rfl

theorem countStackCe_mem (now : Nat) (h : Hbm) (s : Nat) : (countStackCe now h s).memWf = h.memWf := by
  simp only [countStackCe]
  have H : ∀ (c : Prop) [Decidable c] (k : Stack),
      (if c then startRetrain (setStack h s k) s else setStack h s k).memWf = h.memWf := by
    intro c _ k
    split
    · rw [startRetrain_mem]; rfl
    · rfl
  split <;> exact H _ _

/-- A decoded read stores nothing. -/
theorem hbmReadWord_mem (now : Nat) (bad : List Nat) (a : Nat) (h : Hbm) : (hbmReadWord now bad a h).2.memWf = h.memWf := by
  simp only [hbmReadWord]
  split
  · rfl
  · split
    · rw [countStackCe_mem]; rfl
    · split <;> rfl

/-- A fold whose every step keeps the canonical form keeps it. -/
theorem foldl_memWf {β : Type} (f : Hbm → β → Hbm) (hf : ∀ h x, h.memWf = true → (f h x).memWf = true) (l : List β) :
    ∀ h : Hbm, h.memWf = true → (l.foldl f h).memWf = true := by
  induction l with
  | nil => intro h w; exact w
  | cons x l ih => intro h w; exact ih _ (hf h x w)

theorem mergeBurst_wf (now : Nat) (bad : List Nat) (ws : List (Nat × W64 × Bool)) (h : Hbm) (w : h.memWf = true) :
    (mergeBurst now bad ws h).memWf = true := by
  cases ws with
  | nil => exact w
  | cons x ws =>
    simp only [mergeBurst]
    split
    · exact w
    · exact foldl_memWf _ (fun h i w => hbmWriteWord_wf _ _ _ _ (by rw [hbmReadWord_mem]; exact w)) _ _ w

/-- A write of words keeps the canonical form. -/
theorem hbmWriteWords_wf (now : Nat) (bad : List Nat) (ws : List (Nat × W64 × Bool)) (h : Hbm) (w : h.memWf = true) :
    (hbmWriteWords now bad ws h).memWf = true :=
  foldl_memWf _ (fun h _ w => hbmWriteWord_wf _ _ _ h w) _ _ (foldl_memWf _ (fun h b w => mergeBurst_wf now bad b h w) _ _ w)

theorem hbmFettle_wf (now : Nat) (bad : List Nat) (b : Nat) (h : Hbm) (w : h.memWf = true) :
    (hbmFettle now bad b h).memWf = true := by
  have H : ∀ (l : List Nat) (acc : List HbmDecoded × Hbm), acc.2.memWf = true →
      (l.foldl (fun (acc : List HbmDecoded × Hbm) i =>
        let q := hbmReadWord now bad (32 * b + 8 * i) acc.2
        (acc.1 ++ [q.1], q.2)) acc).2.memWf = true := by
    intro l
    induction l with
    | nil => intro acc w; exact w
    | cons i l ih => intro acc w; exact ih _ (by simp only [hbmReadWord_mem]; exact w)
  simp only [hbmFettle]
  split
  · exact foldl_memWf _ (fun h d w => hbmWriteWord_wf _ _ _ h w) _ _ (H _ _ w)
  · exact H _ _ w

theorem modEntries_wf (h : Hbm) (l : List Nat) (f : W64 → W64) (w : h.memWf = true) : (modEntries h l f).memWf = true := by
  rw [hbmMem_iff] at w ⊢
  exact ⟨w.1, smWf_smModAll _ _ _ _ w.2.1, w.2.2⟩

theorem mapPages_wf (h g : Hbm) (held : List Nat) (j n : Nat) (cand fields : List Nat) (w : h.memWf = true)
    (e : mapPages h held j n cand fields = some g) : g.memWf = true := by
  rw [hbmMem_iff] at w
  simp only [mapPages] at e
  split at e
  · obtain rfl := Option.some.inj e
    rw [hbmMem_iff]
    exact ⟨w.1, smWf_foldl_smSet 0#64 (fun q : Nat × Nat => _ + q.2) (fun q => newEntry j q.1) _ _ w.2.1, smWf_smSet _ _ _ _ w.2.2⟩
  · cases e

theorem zeroJobPages_wf (h : Hbm) (j : Nat) (w : h.memWf = true) : (zeroJobPages h j).memWf = true := by
  rw [hbmMem_iff] at w ⊢
  simp only [zeroJobPages]
  exact ⟨smWf_smMap _ _ _ w.1, w.2⟩

theorem unmapPages_wf (h : Hbm) (j : Nat) (w : h.memWf = true) : (unmapPages h j).memWf = true := by
  rw [hbmMem_iff] at w ⊢
  simp only [unmapPages, modEntries]
  exact ⟨w.1, smWf_smModAll _ _ _ _ w.2.1, smWf_smSet _ _ _ _ w.2.2⟩

theorem crazePartition_wf (h : Hbm) (p : Nat) (w : h.memWf = true) : (crazePartition h p).memWf = true := by
  rw [hbmMem_iff] at w ⊢
  simp only [crazePartition]
  exact ⟨w.1, smWf_smMap _ _ _ w.2.1, w.2.2⟩

theorem reservedEntries_wf (h : Hbm) (w : h.memWf = true) : (reservedEntries h).memWf = true := by
  unfold reservedEntries
  rw [hbmMem_iff] at w ⊢
  generalize List.range 2048 = l
  exact ⟨w.1, smWf_foldl_smSet 0#64 (fun i => runLimit + i) _ _ _ w.2.1, w.2.2⟩

theorem copyRange_wf (now a b n : Nat) (h : Hbm) (w : h.memWf = true) : (copyRange now a b n h).memWf = true :=
  foldl_memWf _ (fun h x w => hbmWriteWord_wf _ _ _ _ (by rw [hbmReadWord_mem]; exact w)) _ _
    (by rw [hbmMem_iff] at w ⊢; exact ⟨smWf_filter _ _ _ w.1, w.2⟩)

/-! ### Flash -/

theorem flashPut_wf (m : SMap Byte) (a : Nat) (l : List Byte) (h : smWf 0xFF#8 m = true) : smWf 0xFF#8 (flashPut m a l) = true :=
  smWf_foldl_smSet 0xFF#8 (fun b : Byte × Nat => a + b.2) (fun b => b.1) _ _ h

theorem flashErase_wf (m : SMap Byte) (a n : Nat) (h : smWf 0xFF#8 m = true) : smWf 0xFF#8 (flashErase m a n) = true :=
  smWf_filter _ _ _ h

/-! ### Cores in the module -/

theorem all_smDel (f : Nat × α → Bool) (m : SMap α) (k : Nat) (h : m.all f = true) : (smDel m k).all f = true := by
  induction m with
  | nil => rfl
  | cons a m ih =>
    obtain ⟨j, v⟩ := a
    simp only [List.all_cons, Bool.and_eq_true] at h
    by_cases hj : j = k
    · simp only [smDel, if_pos hj]; exact ih h.2
    · simp only [smDel, if_neg hj, List.all_cons, Bool.and_eq_true]; exact ⟨h.1, ih h.2⟩

theorem all_smIns (f : Nat × α → Bool) (m : SMap α) (k : Nat) (v : α) (hv : f (k, v) = true) (h : m.all f = true) :
    (smIns m k v).all f = true := by
  induction m with
  | nil => simp [smIns, hv]
  | cons a m ih =>
    obtain ⟨j, w⟩ := a
    simp only [List.all_cons, Bool.and_eq_true] at h
    by_cases hlt : k < j
    · simp only [smIns, if_pos hlt, List.all_cons, Bool.and_eq_true]; exact ⟨hv, h.1, h.2⟩
    · simp only [smIns, if_neg hlt, List.all_cons, Bool.and_eq_true]; exact ⟨h.1, ih h.2⟩

/-- A core put back with a canonical slab keeps the module's memories canonical. -/
theorem putCore_wf (site : Nat) (c : Core) (s : State) (hc : smWf 0#40 c.slab.words = true) (h : Memory.wf s = true) :
    Memory.wf (putCore site c s) = true := by
  simp only [Memory.wf, Bool.and_eq_true] at h ⊢
  refine ⟨⟨h.1.1, smWf_smSet _ _ _ _ h.1.2⟩, ?_⟩
  simp only [putCore, smSet]
  split
  · exact all_smDel _ _ _ h.2
  · exact all_smIns _ _ _ _ hc (all_smDel _ _ _ h.2)

/-- The module's memories are canonical at reset. -/
theorem reset_memory_wf : Memory.wf State.reset = true := by decide

end Sys2Proof.Machine
end

