-- ==== Sys2Proof/Laws/State.lean ====
section
/-!
SUPPORT. Sys2Proof/Laws/State.lean: the operations over the whole state, field by field; what reading a core or a port back
gives; and what the fault history and a command on one core leave alone.
-/

namespace Sys2Proof.Machine

/-! ### emit -/

@[simp] theorem emit_pending (ms : List OutMsg) (s : State) : (emit ms s).pending = s.pending := rfl
@[simp] theorem emit_cores (ms : List OutMsg) (s : State) : (emit ms s).cores = s.cores := rfl
@[simp] theorem emit_mesh (ms : List OutMsg) (s : State) : (emit ms s).mesh = s.mesh := rfl
@[simp] theorem emit_hbm (ms : List OutMsg) (s : State) : (emit ms s).hbm = s.hbm := rfl
@[simp] theorem emit_clock (ms : List OutMsg) (s : State) : (emit ms s).clock = s.clock := rfl
@[simp] theorem emit_power (ms : List OutMsg) (s : State) : (emit ms s).power = s.power := rfl
@[simp] theorem emit_meter (ms : List OutMsg) (s : State) : (emit ms s).meter = s.meter := rfl
@[simp] theorem emit_hosts (ms : List OutMsg) (s : State) : (emit ms s).hosts = s.hosts := rfl
@[simp] theorem emit_queues (ms : List OutMsg) (s : State) : (emit ms s).queues = s.queues := rfl
@[simp] theorem emit_trunks (ms : List OutMsg) (s : State) : (emit ms s).trunks = s.trunks := rfl
@[simp] theorem emit_jobs (ms : List OutMsg) (s : State) : (emit ms s).jobs = s.jobs := rfl
@[simp] theorem emit_box (ms : List OutMsg) (s : State) : (emit ms s).box = s.box := rfl
@[simp] theorem emit_errlog (ms : List OutMsg) (s : State) : (emit ms s).errlog = s.errlog := rfl
@[simp] theorem emit_history (ms : List OutMsg) (s : State) : (emit ms s).history = s.history := rfl
@[simp] theorem emit_boot (ms : List OutMsg) (s : State) : (emit ms s).boot = s.boot := rfl
@[simp] theorem emit_mail (ms : List OutMsg) (s : State) : (emit ms s).mail = s.mail := rfl
@[simp] theorem emit_jtag (ms : List OutMsg) (s : State) : (emit ms s).jtag = s.jtag := rfl
@[simp] theorem emit_flash (ms : List OutMsg) (s : State) : (emit ms s).flash = s.flash := rfl
@[simp] theorem emit_fuses (ms : List OutMsg) (s : State) : (emit ms s).fuses = s.fuses := rfl
@[simp] theorem emit_tripped (ms : List OutMsg) (s : State) : (emit ms s).tripped = s.tripped := rfl
@[simp] theorem emit_free (ms : List OutMsg) (s : State) : (emit ms s).free = s.free := rfl

/-! ### drawFree -/

@[simp] theorem drawFree_pending (n : Nat) (s : State) : (drawFree n s).pending = s.pending := rfl
@[simp] theorem drawFree_cores (n : Nat) (s : State) : (drawFree n s).cores = s.cores := rfl
@[simp] theorem drawFree_mesh (n : Nat) (s : State) : (drawFree n s).mesh = s.mesh := rfl
@[simp] theorem drawFree_hbm (n : Nat) (s : State) : (drawFree n s).hbm = s.hbm := rfl
@[simp] theorem drawFree_clock (n : Nat) (s : State) : (drawFree n s).clock = s.clock := rfl
@[simp] theorem drawFree_power (n : Nat) (s : State) : (drawFree n s).power = s.power := rfl
@[simp] theorem drawFree_meter (n : Nat) (s : State) : (drawFree n s).meter = s.meter := rfl
@[simp] theorem drawFree_hosts (n : Nat) (s : State) : (drawFree n s).hosts = s.hosts := rfl
@[simp] theorem drawFree_queues (n : Nat) (s : State) : (drawFree n s).queues = s.queues := rfl
@[simp] theorem drawFree_trunks (n : Nat) (s : State) : (drawFree n s).trunks = s.trunks := rfl
@[simp] theorem drawFree_jobs (n : Nat) (s : State) : (drawFree n s).jobs = s.jobs := rfl
@[simp] theorem drawFree_box (n : Nat) (s : State) : (drawFree n s).box = s.box := rfl
@[simp] theorem drawFree_errlog (n : Nat) (s : State) : (drawFree n s).errlog = s.errlog := rfl
@[simp] theorem drawFree_history (n : Nat) (s : State) : (drawFree n s).history = s.history := rfl
@[simp] theorem drawFree_boot (n : Nat) (s : State) : (drawFree n s).boot = s.boot := rfl
@[simp] theorem drawFree_mail (n : Nat) (s : State) : (drawFree n s).mail = s.mail := rfl
@[simp] theorem drawFree_jtag (n : Nat) (s : State) : (drawFree n s).jtag = s.jtag := rfl
@[simp] theorem drawFree_flash (n : Nat) (s : State) : (drawFree n s).flash = s.flash := rfl
@[simp] theorem drawFree_fuses (n : Nat) (s : State) : (drawFree n s).fuses = s.fuses := rfl
@[simp] theorem drawFree_tripped (n : Nat) (s : State) : (drawFree n s).tripped = s.tripped := rfl
@[simp] theorem drawFree_out (n : Nat) (s : State) : (drawFree n s).out = s.out := rfl

/-! ### putCore -/

@[simp] theorem putCore_pending (k : Nat) (c : Core) (s : State) : (putCore k c s).pending = s.pending := rfl
@[simp] theorem putCore_mesh (k : Nat) (c : Core) (s : State) : (putCore k c s).mesh = s.mesh := rfl
@[simp] theorem putCore_hbm (k : Nat) (c : Core) (s : State) : (putCore k c s).hbm = s.hbm := rfl
@[simp] theorem putCore_clock (k : Nat) (c : Core) (s : State) : (putCore k c s).clock = s.clock := rfl
@[simp] theorem putCore_power (k : Nat) (c : Core) (s : State) : (putCore k c s).power = s.power := rfl
@[simp] theorem putCore_meter (k : Nat) (c : Core) (s : State) : (putCore k c s).meter = s.meter := rfl
@[simp] theorem putCore_hosts (k : Nat) (c : Core) (s : State) : (putCore k c s).hosts = s.hosts := rfl
@[simp] theorem putCore_queues (k : Nat) (c : Core) (s : State) : (putCore k c s).queues = s.queues := rfl
@[simp] theorem putCore_trunks (k : Nat) (c : Core) (s : State) : (putCore k c s).trunks = s.trunks := rfl
@[simp] theorem putCore_jobs (k : Nat) (c : Core) (s : State) : (putCore k c s).jobs = s.jobs := rfl
@[simp] theorem putCore_box (k : Nat) (c : Core) (s : State) : (putCore k c s).box = s.box := rfl
@[simp] theorem putCore_errlog (k : Nat) (c : Core) (s : State) : (putCore k c s).errlog = s.errlog := rfl
@[simp] theorem putCore_history (k : Nat) (c : Core) (s : State) : (putCore k c s).history = s.history := rfl
@[simp] theorem putCore_boot (k : Nat) (c : Core) (s : State) : (putCore k c s).boot = s.boot := rfl
@[simp] theorem putCore_mail (k : Nat) (c : Core) (s : State) : (putCore k c s).mail = s.mail := rfl
@[simp] theorem putCore_jtag (k : Nat) (c : Core) (s : State) : (putCore k c s).jtag = s.jtag := rfl
@[simp] theorem putCore_flash (k : Nat) (c : Core) (s : State) : (putCore k c s).flash = s.flash := rfl
@[simp] theorem putCore_fuses (k : Nat) (c : Core) (s : State) : (putCore k c s).fuses = s.fuses := rfl
@[simp] theorem putCore_tripped (k : Nat) (c : Core) (s : State) : (putCore k c s).tripped = s.tripped := rfl
@[simp] theorem putCore_out (k : Nat) (c : Core) (s : State) : (putCore k c s).out = s.out := rfl
@[simp] theorem putCore_free (k : Nat) (c : Core) (s : State) : (putCore k c s).free = s.free := rfl

/-! ### putHost -/

@[simp] theorem putHost_pending (p : Nat) (h : HostPort) (s : State) : (putHost p h s).pending = s.pending := rfl
@[simp] theorem putHost_cores (p : Nat) (h : HostPort) (s : State) : (putHost p h s).cores = s.cores := rfl
@[simp] theorem putHost_mesh (p : Nat) (h : HostPort) (s : State) : (putHost p h s).mesh = s.mesh := rfl
@[simp] theorem putHost_hbm (p : Nat) (h : HostPort) (s : State) : (putHost p h s).hbm = s.hbm := rfl
@[simp] theorem putHost_clock (p : Nat) (h : HostPort) (s : State) : (putHost p h s).clock = s.clock := rfl
@[simp] theorem putHost_power (p : Nat) (h : HostPort) (s : State) : (putHost p h s).power = s.power := rfl
@[simp] theorem putHost_meter (p : Nat) (h : HostPort) (s : State) : (putHost p h s).meter = s.meter := rfl
@[simp] theorem putHost_queues (p : Nat) (h : HostPort) (s : State) : (putHost p h s).queues = s.queues := rfl
@[simp] theorem putHost_trunks (p : Nat) (h : HostPort) (s : State) : (putHost p h s).trunks = s.trunks := rfl
@[simp] theorem putHost_jobs (p : Nat) (h : HostPort) (s : State) : (putHost p h s).jobs = s.jobs := rfl
@[simp] theorem putHost_box (p : Nat) (h : HostPort) (s : State) : (putHost p h s).box = s.box := rfl
@[simp] theorem putHost_errlog (p : Nat) (h : HostPort) (s : State) : (putHost p h s).errlog = s.errlog := rfl
@[simp] theorem putHost_history (p : Nat) (h : HostPort) (s : State) : (putHost p h s).history = s.history := rfl
@[simp] theorem putHost_boot (p : Nat) (h : HostPort) (s : State) : (putHost p h s).boot = s.boot := rfl
@[simp] theorem putHost_mail (p : Nat) (h : HostPort) (s : State) : (putHost p h s).mail = s.mail := rfl
@[simp] theorem putHost_jtag (p : Nat) (h : HostPort) (s : State) : (putHost p h s).jtag = s.jtag := rfl
@[simp] theorem putHost_flash (p : Nat) (h : HostPort) (s : State) : (putHost p h s).flash = s.flash := rfl
@[simp] theorem putHost_fuses (p : Nat) (h : HostPort) (s : State) : (putHost p h s).fuses = s.fuses := rfl
@[simp] theorem putHost_tripped (p : Nat) (h : HostPort) (s : State) : (putHost p h s).tripped = s.tripped := rfl
@[simp] theorem putHost_out (p : Nat) (h : HostPort) (s : State) : (putHost p h s).out = s.out := rfl
@[simp] theorem putHost_free (p : Nat) (h : HostPort) (s : State) : (putHost p h s).free = s.free := rfl

/-! ### putTrunk -/

@[simp] theorem putTrunk_pending (n : Nat) (t : TPort) (s : State) : (putTrunk n t s).pending = s.pending := rfl
@[simp] theorem putTrunk_cores (n : Nat) (t : TPort) (s : State) : (putTrunk n t s).cores = s.cores := rfl
@[simp] theorem putTrunk_mesh (n : Nat) (t : TPort) (s : State) : (putTrunk n t s).mesh = s.mesh := rfl
@[simp] theorem putTrunk_hbm (n : Nat) (t : TPort) (s : State) : (putTrunk n t s).hbm = s.hbm := rfl
@[simp] theorem putTrunk_clock (n : Nat) (t : TPort) (s : State) : (putTrunk n t s).clock = s.clock := rfl
@[simp] theorem putTrunk_power (n : Nat) (t : TPort) (s : State) : (putTrunk n t s).power = s.power := rfl
@[simp] theorem putTrunk_meter (n : Nat) (t : TPort) (s : State) : (putTrunk n t s).meter = s.meter := rfl
@[simp] theorem putTrunk_hosts (n : Nat) (t : TPort) (s : State) : (putTrunk n t s).hosts = s.hosts := rfl
@[simp] theorem putTrunk_queues (n : Nat) (t : TPort) (s : State) : (putTrunk n t s).queues = s.queues := rfl
@[simp] theorem putTrunk_jobs (n : Nat) (t : TPort) (s : State) : (putTrunk n t s).jobs = s.jobs := rfl
@[simp] theorem putTrunk_box (n : Nat) (t : TPort) (s : State) : (putTrunk n t s).box = s.box := rfl
@[simp] theorem putTrunk_errlog (n : Nat) (t : TPort) (s : State) : (putTrunk n t s).errlog = s.errlog := rfl
@[simp] theorem putTrunk_history (n : Nat) (t : TPort) (s : State) : (putTrunk n t s).history = s.history := rfl
@[simp] theorem putTrunk_boot (n : Nat) (t : TPort) (s : State) : (putTrunk n t s).boot = s.boot := rfl
@[simp] theorem putTrunk_mail (n : Nat) (t : TPort) (s : State) : (putTrunk n t s).mail = s.mail := rfl
@[simp] theorem putTrunk_jtag (n : Nat) (t : TPort) (s : State) : (putTrunk n t s).jtag = s.jtag := rfl
@[simp] theorem putTrunk_flash (n : Nat) (t : TPort) (s : State) : (putTrunk n t s).flash = s.flash := rfl
@[simp] theorem putTrunk_fuses (n : Nat) (t : TPort) (s : State) : (putTrunk n t s).fuses = s.fuses := rfl
@[simp] theorem putTrunk_tripped (n : Nat) (t : TPort) (s : State) : (putTrunk n t s).tripped = s.tripped := rfl
@[simp] theorem putTrunk_out (n : Nat) (t : TPort) (s : State) : (putTrunk n t s).out = s.out := rfl
@[simp] theorem putTrunk_free (n : Nat) (t : TPort) (s : State) : (putTrunk n t s).free = s.free := rfl

/-! ### modCluster -/

@[simp] theorem modCluster_pending (k : Nat) (f : ClusterPwr → ClusterPwr) (s : State) : (modCluster k f s).pending = s.pending := rfl
@[simp] theorem modCluster_cores (k : Nat) (f : ClusterPwr → ClusterPwr) (s : State) : (modCluster k f s).cores = s.cores := rfl
@[simp] theorem modCluster_mesh (k : Nat) (f : ClusterPwr → ClusterPwr) (s : State) : (modCluster k f s).mesh = s.mesh := rfl
@[simp] theorem modCluster_hbm (k : Nat) (f : ClusterPwr → ClusterPwr) (s : State) : (modCluster k f s).hbm = s.hbm := rfl
@[simp] theorem modCluster_clock (k : Nat) (f : ClusterPwr → ClusterPwr) (s : State) : (modCluster k f s).clock = s.clock := rfl
@[simp] theorem modCluster_meter (k : Nat) (f : ClusterPwr → ClusterPwr) (s : State) : (modCluster k f s).meter = s.meter := rfl
@[simp] theorem modCluster_hosts (k : Nat) (f : ClusterPwr → ClusterPwr) (s : State) : (modCluster k f s).hosts = s.hosts := rfl
@[simp] theorem modCluster_queues (k : Nat) (f : ClusterPwr → ClusterPwr) (s : State) : (modCluster k f s).queues = s.queues := rfl
@[simp] theorem modCluster_trunks (k : Nat) (f : ClusterPwr → ClusterPwr) (s : State) : (modCluster k f s).trunks = s.trunks := rfl
@[simp] theorem modCluster_jobs (k : Nat) (f : ClusterPwr → ClusterPwr) (s : State) : (modCluster k f s).jobs = s.jobs := rfl
@[simp] theorem modCluster_box (k : Nat) (f : ClusterPwr → ClusterPwr) (s : State) : (modCluster k f s).box = s.box := rfl
@[simp] theorem modCluster_errlog (k : Nat) (f : ClusterPwr → ClusterPwr) (s : State) : (modCluster k f s).errlog = s.errlog := rfl
@[simp] theorem modCluster_history (k : Nat) (f : ClusterPwr → ClusterPwr) (s : State) : (modCluster k f s).history = s.history := rfl
@[simp] theorem modCluster_boot (k : Nat) (f : ClusterPwr → ClusterPwr) (s : State) : (modCluster k f s).boot = s.boot := rfl
@[simp] theorem modCluster_mail (k : Nat) (f : ClusterPwr → ClusterPwr) (s : State) : (modCluster k f s).mail = s.mail := rfl
@[simp] theorem modCluster_jtag (k : Nat) (f : ClusterPwr → ClusterPwr) (s : State) : (modCluster k f s).jtag = s.jtag := rfl
@[simp] theorem modCluster_flash (k : Nat) (f : ClusterPwr → ClusterPwr) (s : State) : (modCluster k f s).flash = s.flash := rfl
@[simp] theorem modCluster_fuses (k : Nat) (f : ClusterPwr → ClusterPwr) (s : State) : (modCluster k f s).fuses = s.fuses := rfl
@[simp] theorem modCluster_tripped (k : Nat) (f : ClusterPwr → ClusterPwr) (s : State) : (modCluster k f s).tripped = s.tripped := rfl
@[simp] theorem modCluster_out (k : Nat) (f : ClusterPwr → ClusterPwr) (s : State) : (modCluster k f s).out = s.out := rfl
@[simp] theorem modCluster_free (k : Nat) (f : ClusterPwr → ClusterPwr) (s : State) : (modCluster k f s).free = s.free := rfl

/-! ### idleTick -/

@[simp] theorem idleTick_pending (s : State) : (idleTick s).pending = s.pending := rfl
@[simp] theorem idleTick_cores (s : State) : (idleTick s).cores = s.cores := rfl
@[simp] theorem idleTick_mesh (s : State) : (idleTick s).mesh = s.mesh := rfl
@[simp] theorem idleTick_hbm (s : State) : (idleTick s).hbm = s.hbm := rfl
@[simp] theorem idleTick_power (s : State) : (idleTick s).power = s.power := rfl
@[simp] theorem idleTick_meter (s : State) : (idleTick s).meter = s.meter := rfl
@[simp] theorem idleTick_hosts (s : State) : (idleTick s).hosts = s.hosts := rfl
@[simp] theorem idleTick_queues (s : State) : (idleTick s).queues = s.queues := rfl
@[simp] theorem idleTick_trunks (s : State) : (idleTick s).trunks = s.trunks := rfl
@[simp] theorem idleTick_jobs (s : State) : (idleTick s).jobs = s.jobs := rfl
@[simp] theorem idleTick_box (s : State) : (idleTick s).box = s.box := rfl
@[simp] theorem idleTick_errlog (s : State) : (idleTick s).errlog = s.errlog := rfl
@[simp] theorem idleTick_history (s : State) : (idleTick s).history = s.history := rfl
@[simp] theorem idleTick_boot (s : State) : (idleTick s).boot = s.boot := rfl
@[simp] theorem idleTick_mail (s : State) : (idleTick s).mail = s.mail := rfl
@[simp] theorem idleTick_jtag (s : State) : (idleTick s).jtag = s.jtag := rfl
@[simp] theorem idleTick_flash (s : State) : (idleTick s).flash = s.flash := rfl
@[simp] theorem idleTick_fuses (s : State) : (idleTick s).fuses = s.fuses := rfl
@[simp] theorem idleTick_tripped (s : State) : (idleTick s).tripped = s.tripped := rfl
@[simp] theorem idleTick_out (s : State) : (idleTick s).out = s.out := rfl
@[simp] theorem idleTick_free (s : State) : (idleTick s).free = s.free := rfl

/-! ### updateSpares -/

@[simp] theorem updateSpares_pending (s : State) : (updateSpares s).pending = s.pending := rfl
@[simp] theorem updateSpares_cores (s : State) : (updateSpares s).cores = s.cores := rfl
@[simp] theorem updateSpares_mesh (s : State) : (updateSpares s).mesh = s.mesh := rfl
@[simp] theorem updateSpares_hbm (s : State) : (updateSpares s).hbm = s.hbm := rfl
@[simp] theorem updateSpares_clock (s : State) : (updateSpares s).clock = s.clock := rfl
@[simp] theorem updateSpares_power (s : State) : (updateSpares s).power = s.power := rfl
@[simp] theorem updateSpares_meter (s : State) : (updateSpares s).meter = s.meter := rfl
@[simp] theorem updateSpares_hosts (s : State) : (updateSpares s).hosts = s.hosts := rfl
@[simp] theorem updateSpares_queues (s : State) : (updateSpares s).queues = s.queues := rfl
@[simp] theorem updateSpares_trunks (s : State) : (updateSpares s).trunks = s.trunks := rfl
@[simp] theorem updateSpares_jobs (s : State) : (updateSpares s).jobs = s.jobs := rfl
@[simp] theorem updateSpares_errlog (s : State) : (updateSpares s).errlog = s.errlog := rfl
@[simp] theorem updateSpares_history (s : State) : (updateSpares s).history = s.history := rfl
@[simp] theorem updateSpares_boot (s : State) : (updateSpares s).boot = s.boot := rfl
@[simp] theorem updateSpares_mail (s : State) : (updateSpares s).mail = s.mail := rfl
@[simp] theorem updateSpares_jtag (s : State) : (updateSpares s).jtag = s.jtag := rfl
@[simp] theorem updateSpares_flash (s : State) : (updateSpares s).flash = s.flash := rfl
@[simp] theorem updateSpares_fuses (s : State) : (updateSpares s).fuses = s.fuses := rfl
@[simp] theorem updateSpares_tripped (s : State) : (updateSpares s).tripped = s.tripped := rfl
@[simp] theorem updateSpares_out (s : State) : (updateSpares s).out = s.out := rfl
@[simp] theorem updateSpares_free (s : State) : (updateSpares s).free = s.free := rfl

/-! ### closePort -/

@[simp] theorem closePort_pending (r k : Nat) (s : State) : (closePort r k s).pending = s.pending := by
  unfold closePort; split <;> rfl
@[simp] theorem closePort_cores (r k : Nat) (s : State) : (closePort r k s).cores = s.cores := by
  unfold closePort; split <;> rfl
@[simp] theorem closePort_hbm (r k : Nat) (s : State) : (closePort r k s).hbm = s.hbm := by
  unfold closePort; split <;> rfl
@[simp] theorem closePort_clock (r k : Nat) (s : State) : (closePort r k s).clock = s.clock := by
  unfold closePort; split <;> rfl
@[simp] theorem closePort_power (r k : Nat) (s : State) : (closePort r k s).power = s.power := by
  unfold closePort; split <;> rfl
@[simp] theorem closePort_meter (r k : Nat) (s : State) : (closePort r k s).meter = s.meter := by
  unfold closePort; split <;> rfl
@[simp] theorem closePort_hosts (r k : Nat) (s : State) : (closePort r k s).hosts = s.hosts := by
  unfold closePort; split <;> rfl
@[simp] theorem closePort_queues (r k : Nat) (s : State) : (closePort r k s).queues = s.queues := by
  unfold closePort; split <;> rfl
@[simp] theorem closePort_trunks (r k : Nat) (s : State) : (closePort r k s).trunks = s.trunks := by
  unfold closePort; split <;> rfl
@[simp] theorem closePort_jobs (r k : Nat) (s : State) : (closePort r k s).jobs = s.jobs := by
  unfold closePort; split <;> rfl
@[simp] theorem closePort_box (r k : Nat) (s : State) : (closePort r k s).box = s.box := by
  unfold closePort; split <;> rfl
@[simp] theorem closePort_errlog (r k : Nat) (s : State) : (closePort r k s).errlog = s.errlog := by
  unfold closePort; split <;> rfl
@[simp] theorem closePort_history (r k : Nat) (s : State) : (closePort r k s).history = s.history := by
  unfold closePort; split <;> rfl
@[simp] theorem closePort_boot (r k : Nat) (s : State) : (closePort r k s).boot = s.boot := by
  unfold closePort; split <;> rfl
@[simp] theorem closePort_mail (r k : Nat) (s : State) : (closePort r k s).mail = s.mail := by
  unfold closePort; split <;> rfl
@[simp] theorem closePort_jtag (r k : Nat) (s : State) : (closePort r k s).jtag = s.jtag := by
  unfold closePort; split <;> rfl
@[simp] theorem closePort_flash (r k : Nat) (s : State) : (closePort r k s).flash = s.flash := by
  unfold closePort; split <;> rfl
@[simp] theorem closePort_fuses (r k : Nat) (s : State) : (closePort r k s).fuses = s.fuses := by
  unfold closePort; split <;> rfl
@[simp] theorem closePort_tripped (r k : Nat) (s : State) : (closePort r k s).tripped = s.tripped := by
  unfold closePort; split <;> rfl
@[simp] theorem closePort_out (r k : Nat) (s : State) : (closePort r k s).out = s.out := by
  unfold closePort; split <;> rfl
@[simp] theorem closePort_free (r k : Nat) (s : State) : (closePort r k s).free = s.free := by
  unfold closePort; split <;> rfl

/-! ### openPort -/

@[simp] theorem openPort_pending (k : Nat) (s : State) : (openPort k s).pending = s.pending := rfl
@[simp] theorem openPort_cores (k : Nat) (s : State) : (openPort k s).cores = s.cores := rfl
@[simp] theorem openPort_hbm (k : Nat) (s : State) : (openPort k s).hbm = s.hbm := rfl
@[simp] theorem openPort_clock (k : Nat) (s : State) : (openPort k s).clock = s.clock := rfl
@[simp] theorem openPort_power (k : Nat) (s : State) : (openPort k s).power = s.power := rfl
@[simp] theorem openPort_meter (k : Nat) (s : State) : (openPort k s).meter = s.meter := rfl
@[simp] theorem openPort_hosts (k : Nat) (s : State) : (openPort k s).hosts = s.hosts := rfl
@[simp] theorem openPort_queues (k : Nat) (s : State) : (openPort k s).queues = s.queues := rfl
@[simp] theorem openPort_trunks (k : Nat) (s : State) : (openPort k s).trunks = s.trunks := rfl
@[simp] theorem openPort_jobs (k : Nat) (s : State) : (openPort k s).jobs = s.jobs := rfl
@[simp] theorem openPort_box (k : Nat) (s : State) : (openPort k s).box = s.box := rfl
@[simp] theorem openPort_errlog (k : Nat) (s : State) : (openPort k s).errlog = s.errlog := rfl
@[simp] theorem openPort_history (k : Nat) (s : State) : (openPort k s).history = s.history := rfl
@[simp] theorem openPort_boot (k : Nat) (s : State) : (openPort k s).boot = s.boot := rfl
@[simp] theorem openPort_mail (k : Nat) (s : State) : (openPort k s).mail = s.mail := rfl
@[simp] theorem openPort_jtag (k : Nat) (s : State) : (openPort k s).jtag = s.jtag := rfl
@[simp] theorem openPort_flash (k : Nat) (s : State) : (openPort k s).flash = s.flash := rfl
@[simp] theorem openPort_fuses (k : Nat) (s : State) : (openPort k s).fuses = s.fuses := rfl
@[simp] theorem openPort_tripped (k : Nat) (s : State) : (openPort k s).tripped = s.tripped := rfl
@[simp] theorem openPort_out (k : Nat) (s : State) : (openPort k s).out = s.out := rfl
@[simp] theorem openPort_free (k : Nat) (s : State) : (openPort k s).free = s.free := rfl

/-! ### reachTick -/

@[simp] theorem reachTick_pending (n : Nat) (s : State) : (reachTick n s).pending = s.pending := rfl
@[simp] theorem reachTick_cores (n : Nat) (s : State) : (reachTick n s).cores = s.cores := rfl
@[simp] theorem reachTick_mesh (n : Nat) (s : State) : (reachTick n s).mesh = s.mesh := rfl
@[simp] theorem reachTick_hbm (n : Nat) (s : State) : (reachTick n s).hbm = s.hbm := rfl
@[simp] theorem reachTick_power (n : Nat) (s : State) : (reachTick n s).power = s.power := rfl
@[simp] theorem reachTick_meter (n : Nat) (s : State) : (reachTick n s).meter = s.meter := rfl
@[simp] theorem reachTick_hosts (n : Nat) (s : State) : (reachTick n s).hosts = s.hosts := rfl
@[simp] theorem reachTick_queues (n : Nat) (s : State) : (reachTick n s).queues = s.queues := rfl
@[simp] theorem reachTick_trunks (n : Nat) (s : State) : (reachTick n s).trunks = s.trunks := rfl
@[simp] theorem reachTick_jobs (n : Nat) (s : State) : (reachTick n s).jobs = s.jobs := rfl
@[simp] theorem reachTick_box (n : Nat) (s : State) : (reachTick n s).box = s.box := rfl
@[simp] theorem reachTick_errlog (n : Nat) (s : State) : (reachTick n s).errlog = s.errlog := rfl
@[simp] theorem reachTick_history (n : Nat) (s : State) : (reachTick n s).history = s.history := rfl
@[simp] theorem reachTick_boot (n : Nat) (s : State) : (reachTick n s).boot = s.boot := rfl
@[simp] theorem reachTick_mail (n : Nat) (s : State) : (reachTick n s).mail = s.mail := rfl
@[simp] theorem reachTick_jtag (n : Nat) (s : State) : (reachTick n s).jtag = s.jtag := rfl
@[simp] theorem reachTick_flash (n : Nat) (s : State) : (reachTick n s).flash = s.flash := rfl
@[simp] theorem reachTick_fuses (n : Nat) (s : State) : (reachTick n s).fuses = s.fuses := rfl
@[simp] theorem reachTick_tripped (n : Nat) (s : State) : (reachTick n s).tripped = s.tripped := rfl
@[simp] theorem reachTick_out (n : Nat) (s : State) : (reachTick n s).out = s.out := rfl
@[simp] theorem reachTick_free (n : Nat) (s : State) : (reachTick n s).free = s.free := rfl

/-! ### clearCore -/

@[simp] theorem clearCore_pending (k : Nat) (s : State) : (clearCore k s).pending = s.pending := rfl
@[simp] theorem clearCore_mesh (k : Nat) (s : State) : (clearCore k s).mesh = s.mesh := rfl
@[simp] theorem clearCore_hbm (k : Nat) (s : State) : (clearCore k s).hbm = s.hbm := rfl
@[simp] theorem clearCore_clock (k : Nat) (s : State) : (clearCore k s).clock = s.clock := rfl
@[simp] theorem clearCore_power (k : Nat) (s : State) : (clearCore k s).power = s.power := rfl
@[simp] theorem clearCore_meter (k : Nat) (s : State) : (clearCore k s).meter = s.meter := rfl
@[simp] theorem clearCore_hosts (k : Nat) (s : State) : (clearCore k s).hosts = s.hosts := rfl
@[simp] theorem clearCore_queues (k : Nat) (s : State) : (clearCore k s).queues = s.queues := rfl
@[simp] theorem clearCore_trunks (k : Nat) (s : State) : (clearCore k s).trunks = s.trunks := rfl
@[simp] theorem clearCore_jobs (k : Nat) (s : State) : (clearCore k s).jobs = s.jobs := rfl
@[simp] theorem clearCore_box (k : Nat) (s : State) : (clearCore k s).box = s.box := rfl
@[simp] theorem clearCore_errlog (k : Nat) (s : State) : (clearCore k s).errlog = s.errlog := rfl
@[simp] theorem clearCore_history (k : Nat) (s : State) : (clearCore k s).history = s.history := rfl
@[simp] theorem clearCore_boot (k : Nat) (s : State) : (clearCore k s).boot = s.boot := rfl
@[simp] theorem clearCore_mail (k : Nat) (s : State) : (clearCore k s).mail = s.mail := rfl
@[simp] theorem clearCore_jtag (k : Nat) (s : State) : (clearCore k s).jtag = s.jtag := rfl
@[simp] theorem clearCore_flash (k : Nat) (s : State) : (clearCore k s).flash = s.flash := rfl
@[simp] theorem clearCore_fuses (k : Nat) (s : State) : (clearCore k s).fuses = s.fuses := rfl
@[simp] theorem clearCore_tripped (k : Nat) (s : State) : (clearCore k s).tripped = s.tripped := rfl
@[simp] theorem clearCore_out (k : Nat) (s : State) : (clearCore k s).out = s.out := rfl
@[simp] theorem clearCore_free (k : Nat) (s : State) : (clearCore k s).free = s.free := rfl

/-! ### settleSensors -/

@[simp] theorem settleSensors_pending (s : State) : (settleSensors s).pending = s.pending := rfl
@[simp] theorem settleSensors_cores (s : State) : (settleSensors s).cores = s.cores := rfl
@[simp] theorem settleSensors_mesh (s : State) : (settleSensors s).mesh = s.mesh := rfl
@[simp] theorem settleSensors_hbm (s : State) : (settleSensors s).hbm = s.hbm := rfl
@[simp] theorem settleSensors_power (s : State) : (settleSensors s).power = s.power := rfl
@[simp] theorem settleSensors_meter (s : State) : (settleSensors s).meter = s.meter := rfl
@[simp] theorem settleSensors_hosts (s : State) : (settleSensors s).hosts = s.hosts := rfl
@[simp] theorem settleSensors_queues (s : State) : (settleSensors s).queues = s.queues := rfl
@[simp] theorem settleSensors_trunks (s : State) : (settleSensors s).trunks = s.trunks := rfl
@[simp] theorem settleSensors_jobs (s : State) : (settleSensors s).jobs = s.jobs := rfl
@[simp] theorem settleSensors_box (s : State) : (settleSensors s).box = s.box := rfl
@[simp] theorem settleSensors_errlog (s : State) : (settleSensors s).errlog = s.errlog := rfl
@[simp] theorem settleSensors_history (s : State) : (settleSensors s).history = s.history := rfl
@[simp] theorem settleSensors_boot (s : State) : (settleSensors s).boot = s.boot := rfl
@[simp] theorem settleSensors_mail (s : State) : (settleSensors s).mail = s.mail := rfl
@[simp] theorem settleSensors_jtag (s : State) : (settleSensors s).jtag = s.jtag := rfl
@[simp] theorem settleSensors_flash (s : State) : (settleSensors s).flash = s.flash := rfl
@[simp] theorem settleSensors_fuses (s : State) : (settleSensors s).fuses = s.fuses := rfl
@[simp] theorem settleSensors_tripped (s : State) : (settleSensors s).tripped = s.tripped := rfl
@[simp] theorem settleSensors_out (s : State) : (settleSensors s).out = s.out := rfl
@[simp] theorem settleSensors_free (s : State) : (settleSensors s).free = s.free := rfl

/-! ### pushEdge -/

@[simp] theorem pushEdge_pending (p : Packet) (s : State) : (pushEdge p s).pending = s.pending := rfl
@[simp] theorem pushEdge_cores (p : Packet) (s : State) : (pushEdge p s).cores = s.cores := rfl
@[simp] theorem pushEdge_hbm (p : Packet) (s : State) : (pushEdge p s).hbm = s.hbm := rfl
@[simp] theorem pushEdge_clock (p : Packet) (s : State) : (pushEdge p s).clock = s.clock := rfl
@[simp] theorem pushEdge_power (p : Packet) (s : State) : (pushEdge p s).power = s.power := rfl
@[simp] theorem pushEdge_meter (p : Packet) (s : State) : (pushEdge p s).meter = s.meter := rfl
@[simp] theorem pushEdge_hosts (p : Packet) (s : State) : (pushEdge p s).hosts = s.hosts := rfl
@[simp] theorem pushEdge_queues (p : Packet) (s : State) : (pushEdge p s).queues = s.queues := rfl
@[simp] theorem pushEdge_trunks (p : Packet) (s : State) : (pushEdge p s).trunks = s.trunks := rfl
@[simp] theorem pushEdge_jobs (p : Packet) (s : State) : (pushEdge p s).jobs = s.jobs := rfl
@[simp] theorem pushEdge_box (p : Packet) (s : State) : (pushEdge p s).box = s.box := rfl
@[simp] theorem pushEdge_errlog (p : Packet) (s : State) : (pushEdge p s).errlog = s.errlog := rfl
@[simp] theorem pushEdge_history (p : Packet) (s : State) : (pushEdge p s).history = s.history := rfl
@[simp] theorem pushEdge_boot (p : Packet) (s : State) : (pushEdge p s).boot = s.boot := rfl
@[simp] theorem pushEdge_mail (p : Packet) (s : State) : (pushEdge p s).mail = s.mail := rfl
@[simp] theorem pushEdge_jtag (p : Packet) (s : State) : (pushEdge p s).jtag = s.jtag := rfl
@[simp] theorem pushEdge_flash (p : Packet) (s : State) : (pushEdge p s).flash = s.flash := rfl
@[simp] theorem pushEdge_fuses (p : Packet) (s : State) : (pushEdge p s).fuses = s.fuses := rfl
@[simp] theorem pushEdge_tripped (p : Packet) (s : State) : (pushEdge p s).tripped = s.tripped := rfl
@[simp] theorem pushEdge_out (p : Packet) (s : State) : (pushEdge p s).out = s.out := rfl
@[simp] theorem pushEdge_free (p : Packet) (s : State) : (pushEdge p s).free = s.free := rfl

/-! ### finish -/

@[simp] theorem finish_pending (c : Comp) (s : State) : (finish c s).pending = s.pending := rfl
@[simp] theorem finish_cores (c : Comp) (s : State) : (finish c s).cores = s.cores := rfl
@[simp] theorem finish_mesh (c : Comp) (s : State) : (finish c s).mesh = s.mesh := rfl
@[simp] theorem finish_hbm (c : Comp) (s : State) : (finish c s).hbm = s.hbm := rfl
@[simp] theorem finish_clock (c : Comp) (s : State) : (finish c s).clock = s.clock := rfl
@[simp] theorem finish_power (c : Comp) (s : State) : (finish c s).power = s.power := rfl
@[simp] theorem finish_meter (c : Comp) (s : State) : (finish c s).meter = s.meter := rfl
@[simp] theorem finish_hosts (c : Comp) (s : State) : (finish c s).hosts = s.hosts := rfl
@[simp] theorem finish_queues (c : Comp) (s : State) : (finish c s).queues = s.queues := rfl
@[simp] theorem finish_trunks (c : Comp) (s : State) : (finish c s).trunks = s.trunks := rfl
@[simp] theorem finish_jobs (c : Comp) (s : State) : (finish c s).jobs = s.jobs := rfl
@[simp] theorem finish_errlog (c : Comp) (s : State) : (finish c s).errlog = s.errlog := rfl
@[simp] theorem finish_history (c : Comp) (s : State) : (finish c s).history = s.history := rfl
@[simp] theorem finish_boot (c : Comp) (s : State) : (finish c s).boot = s.boot := rfl
@[simp] theorem finish_mail (c : Comp) (s : State) : (finish c s).mail = s.mail := rfl
@[simp] theorem finish_jtag (c : Comp) (s : State) : (finish c s).jtag = s.jtag := rfl
@[simp] theorem finish_flash (c : Comp) (s : State) : (finish c s).flash = s.flash := rfl
@[simp] theorem finish_fuses (c : Comp) (s : State) : (finish c s).fuses = s.fuses := rfl
@[simp] theorem finish_tripped (c : Comp) (s : State) : (finish c s).tripped = s.tripped := rfl
@[simp] theorem finish_out (c : Comp) (s : State) : (finish c s).out = s.out := rfl
@[simp] theorem finish_free (c : Comp) (s : State) : (finish c s).free = s.free := rfl

/-! ### sendMsg -/

@[simp] theorem sendMsg_pending (p : Nat) (m : TMsg) (fast : Bool) (s : State) : (sendMsg p m fast s).pending = s.pending := rfl
@[simp] theorem sendMsg_cores (p : Nat) (m : TMsg) (fast : Bool) (s : State) : (sendMsg p m fast s).cores = s.cores := rfl
@[simp] theorem sendMsg_mesh (p : Nat) (m : TMsg) (fast : Bool) (s : State) : (sendMsg p m fast s).mesh = s.mesh := rfl
@[simp] theorem sendMsg_hbm (p : Nat) (m : TMsg) (fast : Bool) (s : State) : (sendMsg p m fast s).hbm = s.hbm := rfl
@[simp] theorem sendMsg_clock (p : Nat) (m : TMsg) (fast : Bool) (s : State) : (sendMsg p m fast s).clock = s.clock := rfl
@[simp] theorem sendMsg_power (p : Nat) (m : TMsg) (fast : Bool) (s : State) : (sendMsg p m fast s).power = s.power := rfl
@[simp] theorem sendMsg_meter (p : Nat) (m : TMsg) (fast : Bool) (s : State) : (sendMsg p m fast s).meter = s.meter := rfl
@[simp] theorem sendMsg_hosts (p : Nat) (m : TMsg) (fast : Bool) (s : State) : (sendMsg p m fast s).hosts = s.hosts := rfl
@[simp] theorem sendMsg_queues (p : Nat) (m : TMsg) (fast : Bool) (s : State) : (sendMsg p m fast s).queues = s.queues := rfl
@[simp] theorem sendMsg_jobs (p : Nat) (m : TMsg) (fast : Bool) (s : State) : (sendMsg p m fast s).jobs = s.jobs := rfl
@[simp] theorem sendMsg_box (p : Nat) (m : TMsg) (fast : Bool) (s : State) : (sendMsg p m fast s).box = s.box := rfl
@[simp] theorem sendMsg_errlog (p : Nat) (m : TMsg) (fast : Bool) (s : State) : (sendMsg p m fast s).errlog = s.errlog := rfl
@[simp] theorem sendMsg_history (p : Nat) (m : TMsg) (fast : Bool) (s : State) : (sendMsg p m fast s).history = s.history := rfl
@[simp] theorem sendMsg_boot (p : Nat) (m : TMsg) (fast : Bool) (s : State) : (sendMsg p m fast s).boot = s.boot := rfl
@[simp] theorem sendMsg_mail (p : Nat) (m : TMsg) (fast : Bool) (s : State) : (sendMsg p m fast s).mail = s.mail := rfl
@[simp] theorem sendMsg_jtag (p : Nat) (m : TMsg) (fast : Bool) (s : State) : (sendMsg p m fast s).jtag = s.jtag := rfl
@[simp] theorem sendMsg_flash (p : Nat) (m : TMsg) (fast : Bool) (s : State) : (sendMsg p m fast s).flash = s.flash := rfl
@[simp] theorem sendMsg_fuses (p : Nat) (m : TMsg) (fast : Bool) (s : State) : (sendMsg p m fast s).fuses = s.fuses := rfl
@[simp] theorem sendMsg_tripped (p : Nat) (m : TMsg) (fast : Bool) (s : State) : (sendMsg p m fast s).tripped = s.tripped := rfl
@[simp] theorem sendMsg_out (p : Nat) (m : TMsg) (fast : Bool) (s : State) : (sendMsg p m fast s).out = s.out := rfl
@[simp] theorem sendMsg_free (p : Nat) (m : TMsg) (fast : Bool) (s : State) : (sendMsg p m fast s).free = s.free := rfl

/-! ### putJob -/

@[simp] theorem putJob_pending (j : Job) (s : State) : (putJob j s).pending = s.pending := rfl
@[simp] theorem putJob_cores (j : Job) (s : State) : (putJob j s).cores = s.cores := rfl
@[simp] theorem putJob_mesh (j : Job) (s : State) : (putJob j s).mesh = s.mesh := rfl
@[simp] theorem putJob_hbm (j : Job) (s : State) : (putJob j s).hbm = s.hbm := rfl
@[simp] theorem putJob_clock (j : Job) (s : State) : (putJob j s).clock = s.clock := rfl
@[simp] theorem putJob_power (j : Job) (s : State) : (putJob j s).power = s.power := rfl
@[simp] theorem putJob_meter (j : Job) (s : State) : (putJob j s).meter = s.meter := rfl
@[simp] theorem putJob_hosts (j : Job) (s : State) : (putJob j s).hosts = s.hosts := rfl
@[simp] theorem putJob_queues (j : Job) (s : State) : (putJob j s).queues = s.queues := rfl
@[simp] theorem putJob_trunks (j : Job) (s : State) : (putJob j s).trunks = s.trunks := rfl
@[simp] theorem putJob_box (j : Job) (s : State) : (putJob j s).box = s.box := rfl
@[simp] theorem putJob_errlog (j : Job) (s : State) : (putJob j s).errlog = s.errlog := rfl
@[simp] theorem putJob_history (j : Job) (s : State) : (putJob j s).history = s.history := rfl
@[simp] theorem putJob_boot (j : Job) (s : State) : (putJob j s).boot = s.boot := rfl
@[simp] theorem putJob_mail (j : Job) (s : State) : (putJob j s).mail = s.mail := rfl
@[simp] theorem putJob_jtag (j : Job) (s : State) : (putJob j s).jtag = s.jtag := rfl
@[simp] theorem putJob_flash (j : Job) (s : State) : (putJob j s).flash = s.flash := rfl
@[simp] theorem putJob_fuses (j : Job) (s : State) : (putJob j s).fuses = s.fuses := rfl
@[simp] theorem putJob_tripped (j : Job) (s : State) : (putJob j s).tripped = s.tripped := rfl
@[simp] theorem putJob_out (j : Job) (s : State) : (putJob j s).out = s.out := rfl
@[simp] theorem putJob_free (j : Job) (s : State) : (putJob j s).free = s.free := rfl

/-! ### dropJob -/

@[simp] theorem dropJob_pending (id : Nat) (s : State) : (dropJob id s).pending = s.pending := rfl
@[simp] theorem dropJob_cores (id : Nat) (s : State) : (dropJob id s).cores = s.cores := rfl
@[simp] theorem dropJob_mesh (id : Nat) (s : State) : (dropJob id s).mesh = s.mesh := rfl
@[simp] theorem dropJob_hbm (id : Nat) (s : State) : (dropJob id s).hbm = s.hbm := rfl
@[simp] theorem dropJob_clock (id : Nat) (s : State) : (dropJob id s).clock = s.clock := rfl
@[simp] theorem dropJob_power (id : Nat) (s : State) : (dropJob id s).power = s.power := rfl
@[simp] theorem dropJob_meter (id : Nat) (s : State) : (dropJob id s).meter = s.meter := rfl
@[simp] theorem dropJob_hosts (id : Nat) (s : State) : (dropJob id s).hosts = s.hosts := rfl
@[simp] theorem dropJob_queues (id : Nat) (s : State) : (dropJob id s).queues = s.queues := rfl
@[simp] theorem dropJob_trunks (id : Nat) (s : State) : (dropJob id s).trunks = s.trunks := rfl
@[simp] theorem dropJob_box (id : Nat) (s : State) : (dropJob id s).box = s.box := rfl
@[simp] theorem dropJob_errlog (id : Nat) (s : State) : (dropJob id s).errlog = s.errlog := rfl
@[simp] theorem dropJob_history (id : Nat) (s : State) : (dropJob id s).history = s.history := rfl
@[simp] theorem dropJob_boot (id : Nat) (s : State) : (dropJob id s).boot = s.boot := rfl
@[simp] theorem dropJob_mail (id : Nat) (s : State) : (dropJob id s).mail = s.mail := rfl
@[simp] theorem dropJob_jtag (id : Nat) (s : State) : (dropJob id s).jtag = s.jtag := rfl
@[simp] theorem dropJob_flash (id : Nat) (s : State) : (dropJob id s).flash = s.flash := rfl
@[simp] theorem dropJob_fuses (id : Nat) (s : State) : (dropJob id s).fuses = s.fuses := rfl
@[simp] theorem dropJob_tripped (id : Nat) (s : State) : (dropJob id s).tripped = s.tripped := rfl
@[simp] theorem dropJob_out (id : Nat) (s : State) : (dropJob id s).out = s.out := rfl
@[simp] theorem dropJob_free (id : Nat) (s : State) : (dropJob id s).free = s.free := rfl

/-! ### modJob -/

@[simp] theorem modJob_pending (id : Nat) (f : Job → Job) (s : State) : (modJob id f s).pending = s.pending := by
  unfold modJob; split <;> rfl
@[simp] theorem modJob_cores (id : Nat) (f : Job → Job) (s : State) : (modJob id f s).cores = s.cores := by
  unfold modJob; split <;> rfl
@[simp] theorem modJob_mesh (id : Nat) (f : Job → Job) (s : State) : (modJob id f s).mesh = s.mesh := by
  unfold modJob; split <;> rfl
@[simp] theorem modJob_hbm (id : Nat) (f : Job → Job) (s : State) : (modJob id f s).hbm = s.hbm := by
  unfold modJob; split <;> rfl
@[simp] theorem modJob_clock (id : Nat) (f : Job → Job) (s : State) : (modJob id f s).clock = s.clock := by
  unfold modJob; split <;> rfl
@[simp] theorem modJob_power (id : Nat) (f : Job → Job) (s : State) : (modJob id f s).power = s.power := by
  unfold modJob; split <;> rfl
@[simp] theorem modJob_meter (id : Nat) (f : Job → Job) (s : State) : (modJob id f s).meter = s.meter := by
  unfold modJob; split <;> rfl
@[simp] theorem modJob_hosts (id : Nat) (f : Job → Job) (s : State) : (modJob id f s).hosts = s.hosts := by
  unfold modJob; split <;> rfl
@[simp] theorem modJob_queues (id : Nat) (f : Job → Job) (s : State) : (modJob id f s).queues = s.queues := by
  unfold modJob; split <;> rfl
@[simp] theorem modJob_trunks (id : Nat) (f : Job → Job) (s : State) : (modJob id f s).trunks = s.trunks := by
  unfold modJob; split <;> rfl
@[simp] theorem modJob_box (id : Nat) (f : Job → Job) (s : State) : (modJob id f s).box = s.box := by
  unfold modJob; split <;> rfl
@[simp] theorem modJob_errlog (id : Nat) (f : Job → Job) (s : State) : (modJob id f s).errlog = s.errlog := by
  unfold modJob; split <;> rfl
@[simp] theorem modJob_history (id : Nat) (f : Job → Job) (s : State) : (modJob id f s).history = s.history := by
  unfold modJob; split <;> rfl
@[simp] theorem modJob_boot (id : Nat) (f : Job → Job) (s : State) : (modJob id f s).boot = s.boot := by
  unfold modJob; split <;> rfl
@[simp] theorem modJob_mail (id : Nat) (f : Job → Job) (s : State) : (modJob id f s).mail = s.mail := by
  unfold modJob; split <;> rfl
@[simp] theorem modJob_jtag (id : Nat) (f : Job → Job) (s : State) : (modJob id f s).jtag = s.jtag := by
  unfold modJob; split <;> rfl
@[simp] theorem modJob_flash (id : Nat) (f : Job → Job) (s : State) : (modJob id f s).flash = s.flash := by
  unfold modJob; split <;> rfl
@[simp] theorem modJob_fuses (id : Nat) (f : Job → Job) (s : State) : (modJob id f s).fuses = s.fuses := by
  unfold modJob; split <;> rfl
@[simp] theorem modJob_tripped (id : Nat) (f : Job → Job) (s : State) : (modJob id f s).tripped = s.tripped := by
  unfold modJob; split <;> rfl
@[simp] theorem modJob_out (id : Nat) (f : Job → Job) (s : State) : (modJob id f s).out = s.out := by
  unfold modJob; split <;> rfl
@[simp] theorem modJob_free (id : Nat) (f : Job → Job) (s : State) : (modJob id f s).free = s.free := by
  unfold modJob; split <;> rfl

/-! ### Reading back -/

@[simp] theorem getCore_putCore_same (k : Nat) (c : Core) (s : State) : getCore (putCore k c s) k = c := by
  simp [getCore, putCore]

theorem getCore_putCore_other (c : Core) (s : State) {k j : Nat} (h : j ≠ k) : getCore (putCore k c s) j = getCore s j := by
  simp [getCore, putCore, smGet_smSet_other _ _ _ h]

@[simp] theorem getHost_putHost_same (p : Nat) (h : HostPort) (s : State) : getHost (putHost p h s) p = h := by
  simp [getHost, putHost]

theorem getHost_putHost_other (h : HostPort) (s : State) {p j : Nat} (hj : j ≠ p) :
    getHost (putHost p h s) j = getHost s j := by
  simp [getHost, putHost, smGet_smSet_other _ _ _ hj]

@[simp] theorem getTrunk_putTrunk_same (n : Nat) (t : TPort) (s : State) : getTrunk (putTrunk n t s) n = t := by
  simp [getTrunk, putTrunk]

theorem getTrunk_putTrunk_other (t : TPort) (s : State) {n j : Nat} (h : j ≠ n) :
    getTrunk (putTrunk n t s) j = getTrunk s j := by
  simp [getTrunk, putTrunk, smGet_smSet_other _ _ _ h]

/-! ### Events -/

/-- What an entry of the error log changes: the log, the host ports it signals on, and what they send. -/
theorem logSignals_eq (s : State) :
    logSignals s = { s with hosts := (logSignals s).hosts, out := (logSignals s).out } := by
  have key : ∀ (s : State) (p : Nat) (en : Bool) (v : Nat),
      (if en && portPresent (getHost s p) then
        emit (signalVector p (getHost s p) v).2 (putHost p (signalVector p (getHost s p) v).1 s) else s) =
      { s with
        hosts := (if en && portPresent (getHost s p) then
          emit (signalVector p (getHost s p) v).2 (putHost p (signalVector p (getHost s p) v).1 s) else s).hosts
        out := (if en && portPresent (getHost s p) then
          emit (signalVector p (getHost s p) v).2 (putHost p (signalVector p (getHost s p) v).1 s) else s).out } := by
    intro s p en v
    split <;> rfl
  unfold logSignals
  simp only
  rw [key (if (s.errlog.en0 && portPresent (getHost s 0)) = true then _ else _), key s]

/-- An event of the log changes nothing but the log, and what signals on the host ports. -/
theorem logEvent_eq (e : LogEvent) (s : State) :
    logEvent e s = { s with errlog := (logEvent e s).errlog, hosts := (logEvent e s).hosts, out := (logEvent e s).out } := by
  unfold logEvent
  rw [logSignals_eq]

/-- An event of the fault history changes nothing but the history, the log, and what signals on the host ports. -/
theorem histEvent_eq (u : Nat) (s : State) :
    histEvent u s = { s with history := (histEvent u s).history, errlog := (histEvent u s).errlog,
                             hosts := (histEvent u s).hosts, out := (histEvent u s).out } := by
  unfold histEvent
  simp only
  split
  · rw [logEvent_eq]
  · rfl

theorem histEvents_eq (us : List Nat) (s : State) :
    histEvents us s = { s with history := (histEvents us s).history, errlog := (histEvents us s).errlog,
                               hosts := (histEvents us s).hosts, out := (histEvents us s).out } := by
  induction us generalizing s with
  | nil => rfl
  | cons u us ih =>
    have h : histEvents (u :: us) s = histEvents us (histEvent u s) := rfl
    rw [h, ih, histEvent_eq]

/-- Entering the events of a core changes that core, the history, the log, and what signals on the host ports. -/
theorem flushCore_eq (site : Nat) (s : State) :
    flushCore site s = { s with cores := (flushCore site s).cores, history := (flushCore site s).history,
                                errlog := (flushCore site s).errlog, hosts := (flushCore site s).hosts,
                                out := (flushCore site s).out } := by
  unfold flushCore
  simp only
  split
  · rfl
  · rw [histEvents_eq]; rfl

theorem histEvents_cores (us : List Nat) (s : State) : (histEvents us s).cores = s.cores := by rw [histEvents_eq]

/-- Entering events never touches another core, and empties those of its own. -/
theorem getCore_flushCore_other (site : Nat) (s : State) {k : Nat} (h : k ≠ site) :
    getCore (flushCore site s) k = getCore s k := by
  unfold flushCore
  simp only
  split
  · rfl
  · unfold getCore
    rw [histEvents_cores]
    exact getCore_putCore_other _ _ h

theorem getCore_flushCore_same (site : Nat) (s : State) :
    getCore (flushCore site s) site = { getCore s site with events := [] } := by
  unfold flushCore
  simp only
  split
  · rename_i h
    rw [← h]
  · unfold getCore
    rw [histEvents_cores]
    exact getCore_putCore_same _ _ _

/-- A command on one core leaves every other core alone. -/
theorem getCore_atCore_other (site : Nat) (f : Core → Core) (s : State) {k : Nat} (h : k ≠ site) :
    getCore (atCore site f s) k = getCore s k := by
  unfold atCore
  rw [getCore_flushCore_other _ _ h, getCore_putCore_other _ _ h]

/-- A command on one core leaves that core as f makes it, its events entered. -/
theorem getCore_atCore_same (site : Nat) (f : Core → Core) (s : State) :
    getCore (atCore site f s) site = { f (getCore s site) with events := [] } := by
  unfold atCore
  rw [getCore_flushCore_same, getCore_putCore_same]

/-- A command on one core changes nothing outside the cores but what its events bring. -/
theorem atCore_eq (site : Nat) (f : Core → Core) (s : State) :
    atCore site f s = { s with cores := (atCore site f s).cores, history := (atCore site f s).history,
                               errlog := (atCore site f s).errlog, hosts := (atCore site f s).hosts,
                               out := (atCore site f s).out } := by
  unfold atCore
  rw [flushCore_eq]
  rfl

/-- What a command on one core answers. -/
theorem onCore_next (site : Nat) (f : Core → Core) (s : State) (h : siteOk site = true) :
    onCore site f s = .next (atCore site f s) := by
  simp [onCore, answer, h]

theorem answer_next {ok : Bool} {s t : State} (h : answer ok s = .next t) : ok = true ∧ t = s := by
  unfold answer at h
  split at h
  · rename_i hk
    exact ⟨hk, by cases h; rfl⟩
  · cases h

end Sys2Proof.Machine
end

