-- ==== Sys2Proof/Tests/Slice0.lean ====
section
/-!
SUPPORT. Sys2Proof/Tests/Slice0.lean: ill-formed terms that the well-formedness checks refuse, instruction words written out from
the manual's tables, and, for each statement, states and operands that meet its hypotheses.
-/

namespace Sys2Proof.Tests

open Sys2Proof Sys2Proof.Machine

set_option Elab.async false

/-! ### Commands that name no unit -/

/-- One command for each check of instrOk, naming the first unit that does not exist or a field out of its range. -/
def illFormed : List Instr :=
  [.nop 2560, .imemLoad 0 false 8192 0#64, .registerWrite (.bar0 2) 0 8 0, .arbiterGrant .rd 2560, .arbiterGrant .wr 2560,
   .arbiterGrant .router 8, .arbiterGrant .hbm 8, .arbiterGrant .trunk 12, .arbCommit (.trunk 12), .arbCommitTake (.rd 2560), .bankClose 0 36,
   .bankPowerUpDone 0 36, .packetInject 2560 0, .linkFlitReceive 0 7 0#1024 0#12 0#6 0#110, .linkFlitReceive 1024 5 0#1024 0#12 0#6 0#110,
   .linkFlitReceive 2559 2 0#1024 0#12 0#6 0#110, .linkFlitReceive 4096 6 0#1024 0#12 0#6 0#110, .seamRecentre 0 0 7, .seamRecentre 64 0 2, .seamRecentre 0 40 6,
   .vcCreditReset 0 6 5, .packetAbortTimeout 0 0 6 5, .forkBranchDrop 2560 6 0 .east, .forkBranchDrop 0 6 5 .east, .portClose 0 0 0 0, .portClose 0 0 0 6, .portClose 0 16 0 1, .portClose 0 0 20 1, .portClose 8 0 0 1,
   .hbmRequestGrant 512 [], .hbmRequestGrant 0 [(2, 0)], .hbmRefresh 16 0,
   .hbmRefresh 0 32, .stackTempRead 16 0, .hbmCfgRetrain 8 0, .hbmCfgRetrain 0 2, .marginTrip true 640 0, .marginTrip false 2560 0,
   .stretchEnd 8 0, .railPhaseFail 8 true 0, .railPhaseFail 0 true 8, .railPhaseFail 0 false 24, .sliceFail 640 [], .stackRetrainEnd 16 true 0 [],
   .sliceFail 0 [4], .clusterShort 640, .timeSlew 1, .coreWave 20 [] [], .coreWave 0 [8] [], .doorbell 2 0#64, .cqEnableWrite 0 64 0#64,
   .cringEnableWrite 0 256 0#64, .cringHeadWrite 0 256 0#64, .saveAtStop 32, .completionPost 0 256, .trunkTrainTimeout 12,
   .laneFail 0 false 8, .spareSwap ⟨0, some 8⟩, .partitionReset 8 [] [] []]

theorem test_illFormed_refused : illFormed.all (fun i => !instrOk i) = true := by decide +kernel

theorem test_illFormed_fault : exec (.nop 2560) State.reset = .fault .noSuchUnit := by rfl

theorem test_wellFormed_edges : ([.nop 2559, .imemLoad 2559 true 8191 0#64, .bankClose 0 35, .vcCreditReset 2559 6 4, .portClose 7 15 19 5,
    .hbmRefresh 15 31, .railPhaseFail 7 false 23, .trunkTrainTimeout 11, .saveAtStop 31, .packetInject 4096 0] : List Instr).all instrOk = true := by
  decide +kernel

/-- An instruction with the operation, without WAIT and POST. -/
def plain (op : CoreOp) : CoreInsn := { wait := 0xFF#8, post := 0xFF#8, op := op }

/-- One operation for each check of opOk and insnOk that the layout of a word does not make. -/
def illOps : List CoreOp :=
  [.vec .vmov 0 0 1 0 0 0 0 0 0, .vec .vadd 0 0 0 1 0 0 0 0 0, .vec .vperm 0 0 0 0 1 0 0 0 0, .vec .vperm 0 0 0 0 0 1 0 0 0,
   .vec .vmov 0 0 0 0 0 0 1 0 0, .vec .vadd 0 0 0 0 0 0 0 1 0, .vec .vcmp 0 0 0 0 0 0 0 0 4, .vec .vtrans 0 0 0 0 0 0 0 0 5,
   .vec .vred 0 0 0 0 0 0 0 0 2, .vec .vquant 0 0 0 0 0 0 0 0 0, .vec .vquant 0 0 0 0 0 0 0 0 23, .vec .vdeq 0 0 0 0 0 0 0 0 7,
   .vec .vadd 0 0 0 0 0 0 0 0 1, .vec .vperm 0 0 1 0 0 0 0 0 1, .vec .vdeq 0 0 16 0 0 0 0 0 1, .vmem .vldr 0 0 0 0 1 0 0 0,
   .vmem .vstr 0 0 0 0 0 1 0 0, .vmem .vldc 0 0 0 1 0 0 0 0, .vmem .vstn 0 0 0 0 0 0 0 1, .xfer .xget 0 0 0 0 3 0 0 0 0 0,
   .xfer .xget 0 0 0 0 2 1 0 0 0 0, .xfer .xput 0 0 0 0 1 0 1 0 0 0, .xfer .xput 0 0 0 0 0 0 1 1 0 0, .xfer .xhalo 0 0 0 0 0 0 1 0 0 0,
   .xfer .xcast 0 0 0 0 2 0 0 0 0 0]

theorem test_illOps_refused : illOps.all (fun op => !opOk op) = true := by decide +kernel

theorem test_illOps_do_not_decode : illOps.all (fun op => decide (decodeInsn (encodeInsn (plain op)) = none)) = true := by
  decide +kernel

theorem test_stop_posts_nothing : insnOk { wait := 0xFF#8, post := 3#8, op := .stop 0#16 } = false ∧
    insnOk { wait := 0xFF#8, post := 3#8, op := .halt } = false ∧ insnOk { wait := 3#8, post := 0xFF#8, op := .swait 0#8 } = false := by
  decide

/-! ### Words of the manual's encoding tables, written out bit by bit -/

/-- Table 6.3: opcode 20, WAIT 05, POST none, AD 3 at [39:35], IMM at [31:0]. -/
theorem test_word_set : decodeInsn 0b0010000000000101111111110001100011011110101011011011111011101111#64 =
    some { wait := 0x05#8, post := 0xFF#8, op := .set 3#5 0xDEADBEEF#32 } := by decide +kernel

/-- A reserved bit of SET, bit 32, that is not 0 is no instruction (R203). -/
theorem test_word_set_reserved : decodeInsn 0b0010000000000101111111110001100111011110101011011011111011101111#64 = none := by decide +kernel

/-- Opcode 22, AD 1 at [39:35], AS 2 at [34:30], I 1 at [29], IMM 24 bits: ADD with the immediate -1. -/
theorem test_word_add : decodeInsn 0b0010001011111111111111110000100010100000111111111111111111111111#64 =
    some (plain (.addr .add 1#5 2#5 (.imm 0xFFFFFF#24))) := by decide +kernel

/-- Opcode 01, END 100 at [39:27], COUNT 7 at [15:0]. -/
theorem test_word_loop : decodeInsn 0b0000000111111111111111110000001100100000000000000000000000000111#64 =
    some (plain (.loop 100#13 7#16)) := by decide +kernel

/-- Opcode 43, VD 1, VA 2, VB 3, VC 4, REP 15, SA 1, SB 0, SC 1. -/
theorem test_word_vfma : decodeInsn 0b0100001111111111111111110000010000100000110001000000111110100000#64 =
    some (plain (.vec .vfma 1#6 2#6 3#6 4#6 15#8 1#1 0#1 1#1 0#5)) := by decide +kernel

/-- Opcode 83, VB 8, CLR 1, G0 2, NG 3, ROW0 4, NROWS 5 at [39:34], [33], [23:18], [17:12], [11:8], [7:4]. -/
theorem test_word_mdrain : decodeInsn 0b1000001111111111111111110010001000000000000010000011010001010000#64 =
    some (plain (.mdrain 8#6 1#1 2#6 3#6 4#4 5#4)) := by decide +kernel

/-- Opcode A1, AS 1, PS 0, AD 2, PD 1, KIND 1 and no more: XPUT to HBM. -/
theorem test_word_xput : decodeInsn 0b1010000111111111111111110000100000100101000000000000000000000000#64 =
    some (plain (.xfer .xput 1#5 0#2 2#5 1#2 1#2 0#1 0#1 0#8 0#6 0#6)) := by decide +kernel

/-- Opcode C4, ID 513 at [15:0]. -/
theorem test_word_barrier : decodeInsn 0b1100010011111111111111110000000000000000000000000000001000000001#64 =
    some (plain (.barrier 513#16)) := by decide +kernel

/-- An opcode that no table lists. -/
theorem test_word_undefined : decodeInsn 0xFFFFFF0000000000#64 = none := by decide +kernel

/-! ### States that meet the hypotheses: the cores -/

/-- A core that runs, with one instruction at position 0. -/
def runningAt (i : CoreInsn) : Core := { Core.reset with stream := { Stream.reset with state := .running, imemA := [(0, encodeInsn i)] } }

/-- The module with core 0 as given. -/
def withCore (c : Core) : State := { State.reset with cores := [(0, c)] }

/-- A queue entry of an instruction, with operand registers of the given values. -/
def entry (i : CoreInsn) (ra rd : Nat) : QEntry :=
  { insn := i, pc := 7, icount := 3, ra := { AReg.zero with value := BitVec.ofNat 48 ra }, rd := { AReg.zero with value := BitVec.ofNat 48 rd },
    admitted := false, gen := 0 }

/-- A core that runs, with one entry in its engine's queue. -/
def queued (q : QEntry) : Core := setQueue { Core.reset with stream := { Stream.reset with state := .running } } (opEngine q.insn.op) [q]

/-- What starts when the entry does. -/
def begun (q : QEntry) : Started := { entry := q, gen := 0 }

theorem issues_of {c : Core} {i : CoreInsn} (h : (decide (nextInsn c = .insn i) && issueReady c i) = true) : Issues c i := by
  simpa [Issues] using h

theorem headStarts_of {c : Core} {e : Engine} {st : Started} (h : decide ((takeHead c e (fun _ => true)).map (·.1) = some st) = true) :
    ∃ c1, HeadStarts c e st c1 := by
  simp only [decide_eq_true_eq, Option.map_eq_some_iff] at h
  obtain ⟨⟨a, b⟩, h1, h2⟩ := h
  have h3 : a = st := h2
  subst h3
  exact ⟨b, h1⟩

theorem witness_StepsRunTheQueue : State.reset.pending = [] ∧ State.reset.clock.locked = false ∧
    (let s : State := { State.reset with clock := { Clock.reset with locked := true } }
     s.pending = [] ∧ s.clock.locked = true ∧ s.clock.lost = false) := by decide +kernel

theorem witness_CoreCommandFrame : coreCmd (.nop 2559) = some 2559 ∧ ∃ t, exec (.nop 2559) State.reset = .next t := ⟨rfl, _, rfl⟩

theorem witness_CoreWordsRoundTrip : insnOk (plain (.barrier 0xFFFF#16)) = true ∧ decodeInsn 0x00FFFF0000000000#64 = some (plain .nop) := by
  decide +kernel

/-- Every control and address instruction issues on a core that has just it: both forms of the address functions, each with its
destination and source the same, both strides of SETS, a loop of no iterations and one of some. -/
theorem witness_IssueInstructions : ∀ op ∈ [CoreOp.addr .add 31#5 31#5 (.reg 31#5), .addr .sub 1#5 2#5 (.imm 0x800000#24),
    .addr .and 1#5 1#5 (.imm 0xFFFFFF#24), .addr .or 0#5 1#5 (.reg 2#5), .addr .shl 3#5 3#5 (.imm 63#24), .addr .shr 3#5 3#5 (.imm 48#24),
    .set 0#5 0xFFFFFFFF#32, .sethi 0#5 0xFFFF#16, .sets 4#5 0#1 1#32, .sets 4#5 1#1 1#32, .time 5#5, .mark 9#16, .nop, .notice 63#6 0#16,
    .notice 1#6 65#16, .stop 7#16, .halt, .loop 1#13 0#16, .loop 8191#13 0xFFFF#16, .loopr 1#13 0#5],
    siteOk 0 = true ∧ Issues (getCore (withCore (runningAt (plain op))) 0) (plain op) := by
  intro op h
  refine ⟨rfl, issues_of ?_⟩
  revert op
  decide +kernel

/-- Instructions of each queue issue. -/
theorem witness_QueuedInstructionsCaptureOperands : ∀ op ∈ [CoreOp.vec .vadd 0 0 0 0 0 0 0 0 0, .mclear 1#16,
    .xfer .xput 1#5 3#2 1#5 3#2 0#2 0#1 0#1 0#8 0#6 0#6, .sset 0#8 0#5 0#6 0#6 0#1 0#1 1#5],
    siteOk 0 = true ∧ Issues (getCore (withCore (runningAt (plain op))) 0) (plain op) ∧ opEngine op ≠ .issue := by
  intro op h
  refine ⟨rfl, issues_of ?_, ?_⟩ <;> (revert op; decide +kernel)

/-- A core in STOPPING with nothing left to complete. -/
def stoppingCore (k : StopKind) : Core := { Core.reset with stream := { Stream.reset with state := .stopping, stopKind := k } }

theorem witness_StopsArriveAndResume :
    (let c := getCore (withCore (stoppingCore (.stop 5))) 0
     c.stream.state = .stopping ∧ c.stream.stopKind = .stop 5 ∧ c.stream.stopPhase = .drain ∧ coreDrained c = true ∧
       c.matrix.live = 0#1024 ∧ c.slab.pwrReq = c.slab.off ∧ c.stream.fault = none) ∧
    (let c := { stoppingCore (.stop 5) with matrix := { Matrix.reset with live := 1#1024 }, slab := { Slab.reset with pwrReq := 1#36 } }
     c.matrix.live ≠ 0#1024 ∧ c.slab.pwrReq ≠ c.slab.off ∧ coreDrained c = true) ∧
    (let c := stoppingCore (.stop 5)
     let d := { c with stream := { c.stream with stopPhase := .banks } }
     d.stream.stopPhase = .banks ∧ d.slab.closing = 0#36 ∧ d.slab.rising = 0#36) ∧
    (let c := getCore (withCore (stoppingCore .halt)) 0
     c.stream.state = .stopping ∧ c.stream.stopKind = .halt ∧ coreDrained c = true) ∧
    (∀ st ∈ [{ Stream.reset with state := .arrived }, { Stream.reset with state := .halted }, { Stream.reset with entryEn := true }],
      let c := getCore (withCore { Core.reset with stream := st }) 0
      (c.stream.state = .arrived ∨ (c.stream.state = .halted ∧ c.stream.haltEn = false) ∨
        (c.stream.state = .idle ∧ c.stream.entryEn = true)) ∧ c.arbRd.armed = false ∧ c.arbWr.armed = false) := by decide +kernel

/-- A running MSTREAM of 12 columns all read, without columns left to accumulate. -/
def doneStream : StreamJob :=
  { st := begun (entry (plain (.mstream 0#5 0#2 0#1 2047#11 1#12)) 0 0), base := 0, n := 1, c0 := 2047, granted := 1, done := 1,
    inflight := [], mismatches := [] }

/-- A transfer that waits for nothing more. -/
def doneXfer : XferJob :=
  { tag := 3, st := begun (entry (plain .nop) 0 0), waitAcks := [], hbmAcks := 0, waitRows := 0, nacked := false }

theorem witness_CompletionsAndSlots :
    (let q := entry { wait := 1#8, post := 2#8, op := .vec .vmov 0 1 0 0 0 0 0 0 0 } 0 0
     let c := getCore (withCore { Core.reset with started := [begun q] }) 0
     c.started.find? (fun x => decide (x.entry.icount = 3)) = some (begun q) ∧ (∀ l ∈ c.vec.landing, l.icount ≠ 3) ∧
       (∀ j ∈ c.xfer.jobs, j.st.entry.icount ≠ 3) ∧ ∀ j ∈ c.matrix.streams, j.st.entry.icount ≠ 3) ∧
    (let c := getCore (withCore { Core.reset with xfer := { Xfer.reset with jobs := [doneXfer] } }) 0
     c.xfer.jobs.find? (fun j => decide (j.st.entry.icount = 3)) = some doneXfer ∧ doneXfer.waitAcks = [] ∧ doneXfer.hbmAcks = 0 ∧
       doneXfer.waitRows = 0 ∧ doneXfer.nacked = false ∧ (∀ x ∈ c.started, x.entry.icount ≠ 3) ∧
       ∀ j ∈ c.matrix.streams, j.st.entry.icount ≠ 3) ∧
    (let c := getCore (withCore { Core.reset with matrix := { Matrix.reset with streams := [doneStream] } }) 0
     c.matrix.streams = doneStream :: [] ∧ doneStream.st.entry.icount = 3 ∧ doneStream.done = doneStream.n ∧ doneStream.mismatches = [] ∧
       (∀ x ∈ c.started, x.entry.icount ≠ 3) ∧ ∀ j ∈ c.xfer.jobs, j.st.entry.icount ≠ 3) ∧
    siteOk 2559 = true ∧ 255 < 256 ∧ 256 ≤ 256 ∧ (getCore State.reset 0).sync.overposts ≤ 0xFFFF := by decide +kernel

/-- The head waits for slot 0, which nothing fills. -/
def waiting : Core := queued (entry { wait := 0#8, post := 0xFF#8, op := .vec .vmov 0 1 0 0 0 0 0 0 0 } 0 0)

/-- A placement of two cores at sites 0 and 1, job 1, seen from virtual core (0, 0). -/
def pair : Place :=
  { Place.reset with job := 1, placed := true, vw := 2, vh := 1, table := [{ site := 0, fenced := false }, { site := 1, fenced := false }] }

/-- The core with a placement. -/
def placed (p : Place) (c : Core) : Core := { c with place := p }

/-- An XPUT at the head, admitted, that needs the credit of slot 0 of virtual core (1, 0). -/
def creditless : QEntry := { entry (plain (.xfer .xput 0 0 1 0 0 0 0 0 0 0)) 0 (2 ^ 34) with admitted := true }

theorem witness_StallsFault :
    (let c := getCore (withCore waiting) 0
     c.stream.fault = none ∧ Engine.vector ≠ .issue ∧ mayStart c = true ∧
       engineQueue c .vector = [entry { wait := 0#8, post := 0xFF#8, op := .vec .vmov 0 1 0 0 0 0 0 0 0 } 0 0] ∧
       waitAdmits c 0#8 = false ∧ Engine.vector ≠ .sync) ∧
    (let c := getCore (withCore (placed pair (queued creditless))) 0
     mayStart c = true ∧ c.qxfer = [creditless] ∧ (xferArgs creditless).any (fun a => !creditsHeld c (creditPairs c a)) = true) ∧
    (let b := begun (entry (plain (.barrier 9#16)) 0 0)
     let c := { queued creditless with sync := { Sync.reset with waiting := some (b, 0) } }
     mayStart c = true ∧ c.sync.waiting = some (b, 0)) ∧
    (let i : CoreInsn := { wait := 0#8, post := 0xFF#8, op := .nop }
     let c := getCore (withCore (runningAt i)) 0
     c.stream.fault = none ∧ nextInsn c = .insn i ∧ opEngine i.op = .issue ∧ waitAdmits c i.wait = false ∧ issueReady c i = false) := by
  decide +kernel

/-- Each vector instruction starts from the head of its queue, and its opcode byte is its row of vectorCmds. -/
def vectorOps : List CoreOp :=
  [.vec .vadd 1 2 3 0 255 1 1 0 0, .vec .vsub 1 1 1 0 0 0 0 0 0, .vec .vmul 63 62 61 0 1 1 1 0 0, .vec .vfma 1 2 3 4 0 0 0 0 0,
   .vec .vmax 1 2 3 0 0 0 0 0 0, .vec .vmin 1 2 3 0 0 0 0 0 0, .vec .vcmp 1 2 3 0 0 0 0 0 3, .vec .vsel 1 2 3 4 0 0 0 0 0,
   .vec .vand 1 2 3 0 0 0 0 0 0, .vec .vor 1 2 3 0 0 0 0 0 0, .vec .vxor 1 2 3 0 0 0 0 0 0, .vec .vtrans 1 2 0 0 0 0 0 0 4,
   .vec .vred 1 2 0 0 0 0 0 0 1, .vec .vmov 1 2 0 0 0 0 0 0 0, .vsplat 1 0x3F800000, .vec .vbcast 1 2 0 0 0 0 0 0 31,
   .vec .vperm 1 2 3 4 0 0 0 0 0, .vec .vperm 1 2 0 4 0 0 0 0 1, .vec .vquant 1 2 0 0 0 0 0 0 3, .vec .vdeq 1 2 3 0 0 0 0 0 6,
   .vmem .vldr 1 0 0 0 0 0 0 0, .vmem .vldc 1 0 0 0 0 31 0 0, .vmem .vldn 1 0 1 0 0 0 3 0, .vmem .vstr 1 0 0 1 0 0 0 0,
   .vmem .vstc 1 0 0 0 0 0 0 1, .vmem .vstn 1 0 0 0 0 0 0 0]

/-- A VMOV that reads register 1, which the VLDR of load 2 has still to bring. -/
def behindLoad : Core :=
  let q := { entry (plain (.vec .vmov 0 1 0 0 0 0 0 0 0)) 0 0 with icount := 4 }
  { queued q with vec := { Vec.reset with load := some { st := begun (entry (plain (.vmem .vldr 1 0 0 0 0 0 0 0)) 0 0), k := 0 } } }

theorem idle_of_reset {c : Core} (h : decide (c.vec = Vec.reset) = true) : VectorIdle c := by
  have h1 : c.vec = Vec.reset := of_decide_eq_true h
  refine ⟨?_, ?_, ?_, ?_, ?_⟩ <;> simp [DrainsLanded, h1, Vec.reset]

theorem witness_VectorInstructionsStart : ∀ op ∈ vectorOps,
    let c := getCore (withCore (queued (entry (plain op) 0 0))) 0
    (∃ c1, HeadStarts c .vector (begun (entry (plain op) 0 0)) c1) ∧ VectorIdle c ∧ opByte op ∈ vectorCmds.map (·.1) ∧ opOk op = true ∧
      (isLoad op || isStore op → accFault c (memAccess op (entry (plain op) 0 0).ra 0) = none) := by
  intro op h
  refine ⟨headStarts_of ?_, idle_of_reset ?_, ?_, ?_, ?_⟩ <;> (revert op; decide +kernel)

theorem witness_VectorWaitsForLoad :
    (takeHead behindLoad .vector (fun _ => true)).isSome = true ∧ behindLoad.vec.alu = none ∧ behindLoad.vec.store = none ∧
    behindLoad.vec.landing = [] ∧ 3 < 4 ∧
    (∀ j ∈ behindLoad.vec.load, meet (jobRegs j) (aluReads (.vec .vmov 0 1 0 0 0 0 0 0 0) ++ aluWrites (.vec .vmov 0 1 0 0 0 0 0 0 0)) = true ∧
      accFault behindLoad (memAccess j.st.entry.insn.op j.st.entry.ra j.k) = none) := by decide +kernel

theorem witness_CleanRegs : CleanRegs (getCore (withCore (queued (entry (plain .nop) 0 0))) 0) ∧
    ∀ n, (getV (getCore (withCore (queued (entry (plain .nop) 0 0))) 0) n).z = 0#36 := ⟨fun _ => rfl, fun _ => rfl⟩

/-- A core whose register 2 has a crazed word meets VADD. -/
theorem witness_CrazedOperand :
    let c := setV (queued (entry (plain (.vec .vadd 1 2 3 0 0 0 0 0 0)) 0 0)) 2 { Row.zero with z := 1#36 }
    dataCrazed (getV (getCore (withCore c) 0) 2) = true ∧ (getCore (withCore c) 0).stream.fault = none ∧
      (takeHead (getCore (withCore c) 0) .vector (fun _ => true)).isSome = true := by decide +kernel

/-- Core 0 with a vector load, or a store, of one repeat under way and its request held in the slot table's cycle. -/
def vecJob (f : VmemFn) (a : Nat) : VecJob := { st := begun (entry (plain (.vmem f 5 0 0 0 0 0 0 0)) a 0), k := 0 }

/-- A core with a load or store in its unit, whose request has been held for 2 cycles. -/
def memCore (f : VmemFn) (a : Nat) : Core :=
  { Core.reset with
    vec := { Vec.reset with
      load := if isLoad (.vmem f 5 0 0 0 0 0 0 0) then some (vecJob f a) else none
      store := if isStore (.vmem f 5 0 0 0 0 0 0 0) then some (vecJob f a) else none }
    rd := { ArbInst.reset with reqs := [(2, 2)] }
    wr := { ArbInst.reset with reqs := [(storeRequester (.vmem f 5 0 0 0 0 0 0 0), 2)] } }

theorem witness_VectorMemoryRange :
    (∀ x ∈ [(VmemFn.vldr, 24576), (.vldc, 24545), (.vldn, 786432), (.vstr, 24576), (.vstc, 24545), (.vstn, 786432)],
       let c := getCore (withCore (queued (entry (plain (.vmem x.1 0 0 0 0 0 0 0 0)) x.2 0))) 0
       (takeHead c .vector (fun _ => true)).isSome = true ∧ c.vec = Vec.reset ∧ c.stream.fault = none ∧
       (match x.1 with | .vldr | .vstr => 24576 | .vldc | .vstc => 24576 - 31 | .vldn | .vstn => 24576 * 32) ≤ x.2 ∧
       ({ c with slab := { c.slab with off := BitVec.allOnes 36 } } : Core).slab.off = BitVec.allOnes 36) ∧
    (let s := { withCore Core.reset with power := { Power.reset with clusters := [(0, { ClusterPwr.reset with state := 2 })] } }
     coreLive s 0 = true) ∧
    (∀ x ∈ [(VmemFn.vldr, 24575), (.vldc, 24544), (.vldn, 786431)],
       let c := memCore x.1 x.2
       c.vec.load = some (vecJob x.1 x.2) ∧ c.vec.store = none ∧ c.vec.alu = none ∧ c.vec.landing = [] ∧ c.vec.drains = [] ∧
       (List.range 1).all (fun k => decide (accFault c (memAccess (.vmem x.1 5 0 0 0 0 0 0 0) (vecJob x.1 x.2).st.entry.ra k) = none)) = true ∧
       (readPortCycle (readWants c) c).2 = some 2) ∧
    (∀ x ∈ [(VmemFn.vstr, 24575), (.vstc, 24544), (.vstn, 786431)],
       let c := memCore x.1 x.2
       c.vec.store = some (vecJob x.1 x.2) ∧ c.vec.load = none ∧
       (writePortCycle (writeWants c) c).2 = some (storeRequester (.vmem x.1 5 0 0 0 0 0 0 0))) := by
  refine ⟨?_, ?_, ?_, ?_⟩ <;> decide +kernel

/-- The core with a mode set and a valid buffer. -/
def matrixCore (q : QEntry) : Core :=
  let c := queued q
  { c with matrix := { Matrix.reset with mode := some (.e4m3, .e5m2), front := { ActBuf.reset with valid := true, k := 4, rowMask := 1#16 } } }

theorem witness_MatrixInstructions : ∀ op ∈ [CoreOp.mmode 4#4 3#4, .mclear 0x8000#16, .mdrain 0#6 0#1 60#6 3#6 0#4 15#4,
    .mload 0#5 0#2 4#10 0xFFFF#16, .mstream 0#5 0#2 0#1 2047#11 1#12],
    let q := entry (plain op) 24544 0
    let c := getCore (withCore (matrixCore q)) 0
    (∃ c1, HeadStarts c .matrix (begun q) c1) ∧ streamIdle c = true ∧ loadIdle c = true ∧ c.matrix.mode = some (.e4m3, .e5m2) ∧
      c.matrix.front.valid = true ∧ q.ra.value.toNat + 31 < 24576 := by
  intro op h
  refine ⟨headStarts_of ?_, ?_, ?_, rfl, rfl, ?_⟩ <;> (revert op; decide +kernel)

theorem witness_MatrixLimits : etypeOfCode 3 = some .e4m3 ∧ etypeOfCode 4 = some .e5m2 ∧ pairOk .e4m3 .e5m2 = true ∧
    (0x8000#16 ≠ 0#16) ∧ 0 + 15 + 1 ≤ 16 ∧ 60 + 3 + 1 ≤ 64 ∧ (15 + 1) * (3 + 1) ≤ 64 ∧ 2047 + 1 ≤ 2048 := by decide +kernel

/-- A column in flight of a running MSTREAM, an MLOAD with its last row read, and a stream that found a mismatch. -/
theorem witness_MatrixDataMoves :
    let q := entry (plain (.mstream 0#5 0#2 0#1 0#11 1#12)) 0 0
    let b := { ActBuf.reset with valid := true, k := 4, rowMask := 1#16 }
    let col : Column := { k := 0, grant := 0, data := Row.zero, buf := b, bankOff := false }
    let j : StreamJob := { st := begun q, base := 0, n := 1, c0 := 2047, granted := 1, done := 0, inflight := [col], mismatches := [] }
    let l : LoadJob := { st := begun q, base := 0, k := 4, rowMask := 1#16, nread := 32 }
    let c := getCore (withCore { Core.reset with matrix := { Matrix.reset with mode := some (.e4m3, .e5m2), streams := [j], load := some l } }) 0
    c.matrix.mode = some (.e4m3, .e5m2) ∧ c.matrix.streams = [] ++ j :: [] ∧ j.inflight = [col] ∧ pendingMismatches c = [] ∧
      columnCode .e4m3 .e5m2 col = none ∧ (columnCode .e4m3 .e5m2 { col with bankOff := true }).isSome = true ∧ c.stream.fault = none ∧
      c.matrix.armRes = false ∧ c.matrix.armDup = false ∧ c.matrix.load = some l ∧ l.nread = 32 ∧ j.c0 + col.k < 2048 := by
  decide +kernel

theorem witness_MismatchRaised : ∀ inj ∈ [true, false],
    let m : Mismatch := { grant := 0, injected := inj }
    let j := { doneStream with mismatches := [m] }
    let c := getCore (withCore { Core.reset with matrix := { Matrix.reset with mode := some (.e4m3, .e5m2), streams := [j] } }) 0
    c.matrix.streams = j :: [] ∧ j.done = j.n ∧ j.mismatches = [m] ∧ (∀ x ∈ c.started, x.entry.icount ≠ j.st.entry.icount) ∧
      (∀ x ∈ c.xfer.jobs, x.st.entry.icount ≠ j.st.entry.icount) ∧ c.stream.fault = none := by decide +kernel
/-! ### Transfers, slots, barriers -/

/-- The operand of virtual core (vx, 0), row r, no credit slot. -/
def farAt (vx r : Nat) : Nat := 255 * 2 ^ 40 + vx * 2 ^ 34 + r

/-- The page map with one page, page 5, for job 1. -/
def onePage : Hbm := { Hbm.reset with runs := [(1, runWord 0 1)], entries := [(0, newEntry 1 5)] }

/-- Each transfer, of rows at the last places they may have. -/
def transfers : List QEntry :=
  [entry (plain (.xfer .xget 0 0 1 0 0 0 0 0 0 0)) (farAt 1 0) 24575, entry (plain (.xfer .xput 0 0 1 0 0 0 0 255 0 0)) 24320 (farAt 1 0),
   entry (plain (.xfer .xhalo 0 0 1 0 1 0 0 0 0 0)) 0 (farAt 0 0), entry (plain (.xfer .xcast 0 0 1 0 0 0 0 0 1 0)) 0 (farAt 0 0),
   entry (plain (.xfer .xput 0 0 1 0 1 0 0 0 0 0)) 0 0x3FFF80, entry (plain (.xfer .xcast 0 0 1 0 1 0 0 0 0 0)) 0x10 (farAt 1 9)]

theorem witness_TransfersStart : ∀ q ∈ transfers,
    let s := { withCore (placed pair (queued q)) with hbm := onePage }
    let c := getCore s 0
    siteOk 0 = true ∧ c.qxfer = q :: [] ∧ mayStart c = true ∧ c.xfer.jobs.length < 16 ∧ q.admitted = false ∧
      admitsNow c .transfer q.insn.wait = true ∧
      (xferArgs q).any (fun a => decide (farKind a ≤ 2) && decide (xferCheck (pageCheck s.hbm c.place.job) c a = none) &&
        creditsHeld c (creditPairs c a)) = true := by
  decide +kernel

/-- The same held back by a credit, admitted before and now. -/
theorem witness_TransfersWait : ∀ q ∈ [creditless, { creditless with admitted := false }],
    let c := getCore (withCore (placed pair (queued q))) 0
    c.qxfer = q :: [] ∧ mayStart c = true ∧ (q.admitted = true ∨ admitsNow c .transfer q.insn.wait = true) ∧
      (xferArgs q).any (fun a => decide (xferCheck (pageCheck Hbm.reset c.place.job) c a = none) && !creditsHeld c (creditPairs c a)) = true := by
  decide +kernel

/-- A row too far, an address off 16 bytes, a page that is not there, and a core outside the grid. -/
theorem witness_TransfersFault :
    (let a := xferArgs (entry (plain (.xfer .xput 0 0 1 0 1 0 0 0 0 0)) 24575 0x400000)
     a.any (fun a => decide (localStart a = some 24575 ∧ 24575 + a.count ≤ 24576 ∧ farKind a = 1 ∧ a.dst % 16 = 0) &&
       !rangeOk onePage 1 true a.dst (a.count * 128)) = true) ∧
    (let a := xferArgs (entry (plain (.xfer .xput 0 0 1 0 0 0 0 255 0 0)) 24321 (farAt 1 0))
     a.any (fun a => decide (localStart a = some 24321 ∧ farKind a ≠ 2 ∧ 24321 + a.count > 24576)) = true) ∧
    (let a := xferArgs (entry (plain (.xfer .xget 0 0 1 0 1 0 0 0 0 0)) 8 0)
     a.any (fun a => decide (farKind a = 1 ∧ a.src % 16 ≠ 0)) = true) ∧
    (let q := entry (plain (.xfer .xput 0 0 1 0 0 0 0 0 0 0)) 24575 (farAt 2 0)
     let c := placed pair (queued q)
     (xferArgs q).any (fun a => decide (farKind a = 0 ∧ localStart a = some 24575 ∧ 24575 + a.count ≤ 24576) &&
       (farCores c a).any (coreFenced c.place)) = true) := by decide +kernel

/-- SSET with the operand base, rows in ra and the partner rectangle in rd. -/
def setupOf (base rows : Nat) (remote : BitVec 1) : QEntry :=
  entry (plain (.sset 5#8 0#5 1#6 1#6 0#1 remote 1#5)) (rows * 2 ^ 15 + base) (2 ^ 6)

theorem witness_SyncInstructions :
    (∀ q ∈ [setupOf 24575 1 1#1, setupOf 0 24576 0#1, setupOf 0 0 0#1, setupOf 1 24576 0#1, entry (plain (.spost 255#8)) 0 0,
        entry (plain (.sfree 5#8)) 0 0],
      let c := getCore (withCore (placed pair (queued q))) 0
      (takeHead c .sync (fun _ => true)).isSome = true ∧ c.sync.waiting = none ∧ c.stream.fault = none) ∧
    (let q := setupOf 24575 1 1#1
     getField q.ra.value 0 15 = 24575 ∧ getField q.ra.value 15 15 = 1 ∧ getField q.rd.value 18 6 + getField q.rd.value 6 6 + 1 ≤ pair.vw ∧
       getField q.rd.value 12 6 + getField q.rd.value 0 6 + 1 ≤ pair.vh) ∧
    (let c := setSlot (queued (entry (plain (.swait 5#8)) 0 0)) 5 { Slot.reset with full := true }
     slotTurn c .sync 5 = true ∧ (takeHead c .sync (fun _ => true)).isSome = true) ∧
    (let q := entry (plain (.sset 5#8 0#5 1#6 1#6 0#1 1#1 1#5)) (2 ^ 15) (2 * 2 ^ 18)
     let c := getCore (withCore (placed pair (queued q))) 0
     getField q.ra.value 15 15 = 1 ∧ c.place.vw < getField q.rd.value 18 6 + getField q.rd.value 6 6 + 1) := by decide +kernel

/-- A BARRIER alone in its region, off the leader, and at the leader with the other core's arrival tallied. -/
theorem witness_BarrierArrivals :
    let q := entry (plain (.barrier 9#16)) 0 0
    let alone := getCore (withCore (queued q)) 0
    let lead := { placed pair (queued q) with sync := { (queued q).sync with bw := 1, tallies := [{ id := 9, ordinal := 0, arrived := [1] }] } }
    let off := placed { pair with site := 1, vx := 1 } lead
    ((takeHead alone .sync (fun _ => true)).isSome = true ∧ alone.sync.waiting = none ∧ regionSize alone = 1) ∧
    (regionSize off ≠ 1 ∧ leaderSite off ≠ off.place.site) ∧
    (regionSize lead ≠ 1 ∧ leaderSite lead = lead.place.site ∧ lead.sync.tallies = [{ id := 9, ordinal := smGet 0 lead.sync.ordinals 9, arrived := [1] }] ∧
      ¬ lead.place.site ∈ [1] ∧ [1].length + 1 = regionSize lead) ∧
    (let more := { lead with sync := { lead.sync with tallies := [] } }
     let held := { lead with sync := { lead.sync with tallies := (List.range 8).map fun k => { id := k, ordinal := 0, arrived := [] } } }
     more.sync.tallies.length < 8 ∧ [more.place.site].length ≠ regionSize more ∧
     held.sync.tallies.find? (fun t => decide (t.id = 9) && decide (t.ordinal = 0)) = none ∧ 8 ≤ held.sync.tallies.length) := by
  decide +kernel

/-! ### Monitors, windows, arbiters, banks -/

theorem witness_MonitorsTestsAndBanks : siteOk 0 = true ∧ siteOk 2559 = true ∧ 8191 < 8192 ∧ true ≠ (getCore State.reset 0).stream.bankB ∧ 0 < 8192 := by
  decide +kernel

theorem witness_WindowsAndRegisters :
    windowDark State.reset 2559 = false ∧ 24575 < 24576 ∧ 31 < 32 ∧ (getCore State.reset 2559).slab.off.getLsbD ((24575 + 31) % 32) = false ∧
    windowDark { State.reset with power := { Power.reset with clusters := [(0, { ClusterPwr.reset with state := 3 })] } } 0 = true ∧
    (let c := getCore (withCore { Core.reset with slab := { Slab.reset with off := 1#36, words := [(36, secEncode 7#32 false)] } }) 0
     c.slab.off.getLsbD ((31 + 1) % 32) = true ∧ c.slab.off.getLsbD ((1 + 0) % 32) = false ∧
       smGet 0#40 c.slab.words (1 * 36 + 0) = secEncode 7#32 false) ∧ 1 < 2 ∧ 0x3FFFFF < 0x400000 ∧ 5 < 6 ∧ 7 < 8 := by decide +kernel

theorem witness_ArbitersGrantAndCommit :
    (let s : State := { State.reset with power := { Power.reset with clusters := [(0, { ClusterPwr.reset with state := 2 })] } }
     coreLive s 0 = true ∧ coreLive s 2559 = false ∧ siteOk 2559 = true) ∧
    (let c := getCore (withCore { Core.reset with arbRd := { Core.reset.arbRd with armed := true } }) 0
     c.arbRd.armed = true ∧ c.rd.ptr = 0) ∧ (getCore State.reset 0).arbRd.armed = false ∧
    (let s : State := { State.reset with clock := { Clock.reset with locked := true }, power := { Power.reset with
       rails := (List.range 8).map fun f => (f, { Rail.reset with fieldOn := true, meshOn := true }) } }
     s.clock.locked = true ∧ (getRail s.power 7).meshOn = true ∧ (getRail s.power 7).fieldOn = true ∧ 7 < 8 ∧ 11 < 12) ∧
    State.reset.clock.locked = false ∧ (getRail State.reset.power 0).meshOn = false ∧ siteAtStop State.reset 0 = true := by decide +kernel

/-- Requests held before a cycle; the guard due in one cycle, and not in the next. -/
theorem witness_ArbiterGrantsByTheRules :
    let a : ArbInst := { ArbInst.reset with reqs := [(1, 2), (3, 2)] }
    let v : ArbVals := { ArbVals.reset with guard_ := 4#7 }
    a.reqs ≠ [] ∧ a.reqs.filter (fun r => decide (r.2 ≥ 1)) ≠ [] ∧ ({ a with gsg := 3 } : ArbInst).gsg + 1 = v.guard_.toNat ∧ a.gsg + 1 ≠ v.guard_.toNat ∧
      arbOwner { v with tt := 3#256 } 9 0 = some 3 ∧ arbOwner v 9 0 = none ∧
      ({ a with reqs := [(1, 0)] } : ArbInst).reqs.filter (fun r => decide (r.2 ≥ 1)) = [] ∧
      (let b := { ArbInst.reset with last := some 4 }
       b.reqs = [] ∧ b.last = some 4 ∧ arbNew 6 b [4] = [4]) := by decide +kernel

theorem witness_FettlingAndBanks :
    let c := getCore (withCore { Core.reset with slab := { Slab.reset with closing := 1#36, rising := 0x800000000#36 } }) 0
    siteOk 0 = true ∧ 35 < 36 ∧ c.slab.closing.getLsbD 0 = true ∧ inboundWrites c 0 = 0 ∧ c.slab.closing.getLsbD 35 = false ∧
      (let d := { c with cc := 65536, slab := { c.slab with wb := [{ row := 0, words := [(0, 0#40)], stale := false }] } }
       inboundWrites d 0 ≠ 0 ∧ d.slab.closeCc + 65536 ≤ d.cc ∧ ({ d with cc := 65535 } : Core).cc < d.slab.closeCc + 65536) ∧ c.slab.rising.getLsbD 35 = true ∧ smWf 0#40 c.slab.words = true ∧
      coreLive { State.reset with power := { Power.reset with clusters := [(0, { ClusterPwr.reset with state := 2 })] } } 0 = true := by
  decide +kernel

/-! ### The mesh -/

/-- A router in use with its local port open. -/
def openPort0 : RouterPort := { RouterPort.reset with bypass := false, closed := false, reason := 0 }

/-- The mesh with the routers of some sites in use, in rising order. -/
def openMesh (l : List Nat) : Mesh := { Mesh.reset with ports := l.map fun x => (x, openPort0) }

/-- The module with its clocks and rails on, cluster 0 powered, a mesh and cores as given. -/
def meshed (m : Mesh) (cs : SMap Core) : State :=
  { State.reset with
    cores := cs, mesh := m, clock := { Clock.reset with locked := true }
    power := { Power.reset with
      rails := (List.range 8).map fun f => (f, { Rail.reset with fieldOn := true, meshOn := true })
      clusters := [(0, { ClusterPwr.reset with state := 2, sliceOk := 0xF#4 })] } }

/-- The module with packets that have arrived at a place. -/
def arrivedAt (place : Nat) (ps : List Packet) (cs : SMap Core) : State :=
  meshed { openMesh [0, 1] with arrived := ps.map fun p => { place := place, pkt := p } } cs

/-- The core at site x as virtual core (1, 0) of the pair. -/
def second (x : Nat) : Core := placed { pair with site := x, vx := 1 } Core.reset

/-- Packets that enter, are refused for a bypassed and for a field not enabled, a multicast along its row, one that must split, and
an edge unit's answer. -/
theorem witness_PacketsAreInjected :
    (∀ x ∈ [(1, RouteAns.go .xy 0), (2, .refuse 1)],
      let p : Packet := { Packet.blank with dst := x.1 }
      let s := meshed (openMesh [0, 1]) [(0, { Core.reset with out := [p] })]
      (getCore s 0).out[0]? = some p ∧ p.src = 0 ∧ meshUp s (siteField 0) = true ∧ (getPort s.mesh 0).closed = false ∧ p.cast = none ∧
        p.mcast = false ∧ chooseRoute s.mesh 0 (aimPacket s p).dst = x.2) ∧
    chooseRoute (openMesh [0, 2559]) 0 2559 = .refuse 4 ∧
    (let p : Packet := { Packet.blank with typ := .mcastWrite, mcast := true, job := 1, prect := { x0 := 1, y0 := 0, x1 := 1, y1 := 0 } }
     let s := meshed (openMesh [0, 1]) [(0, { Core.reset with out := [p] }), (1, second 1)]
     mustSplit s.mesh 0 p.prect = false ∧ castBarred s p = false ∧ p.typ ≠ .hbmRead ∧ p.typ ≠ .hbmWrite ∧ p.typ ≠ .control) ∧
    (let p : Packet := { Packet.blank with
       typ := .mcastWrite, mcast := true, job := 1, prect := { x0 := 1, y0 := 0, x1 := 1, y1 := 1 }
       vrect := { x0 := 1, y0 := 0, x1 := 1, y1 := 0 } }
     let s := meshed (openMesh [0, 64, 65]) [(0, { Core.reset with out := [p] }), (65, second 65)]
     mustSplit s.mesh 0 p.prect = true ∧ castSites s p = [65] ∧ chooseRoute s.mesh 0 65 = .go .yx 0) ∧
    (let p : Packet := { Packet.blank with typ := .hbmData, dst := 1 }
     let s := meshed { openMesh [0, 1] with edge := [p] } []
     s.mesh.edge[0]? = some p ∧ p.mcast = false ∧ meshUp s (routerField (aimPacket s p).src) = true ∧
       chooseRoute s.mesh (aimPacket s p).src (aimPacket s p).dst = .go .xy 0) ∧
    meshUp State.reset (siteField 0) = false := by decide +kernel

theorem witness_RoutesReachTheirDestination :
    chooseRoute (openMesh [0, 1, 64, 65]) 0 65 = .go .xy 0 ∧ chooseRoute (openMesh [0, 64, 65]) 0 65 = .go .yx 0 ∧
      chooseRoute (openMesh [0, 65, 128, 129]) 0 65 = .go .detour 2 ∧ bypassed (openMesh [0]) 1 1 = true ∧
      chooseRoute (openMesh [7]) 7 7 = .go .xy 0 := by decide +kernel

/-- A flit on the link that site 0 receives from the east, of which its packet is open or not, and one at the channel controllers
north of site 0. -/
theorem witness_GoodFlitsAreAccepted :
    (∀ f ∈ packetFlits { Packet.blank with rows := [Row.zero], count := 1 }, ∀ x ∈ [(0, 2), (4096, 3)],
      let l : LinkFlit := { entry := 0, credit := 1#5, body := some (4, f) }
      let k := vcKey x.1 x.2 4
      let m := { openMesh [0, 1] with links := [(laneKey x.1 x.2, [l])], ins := if f.head then [] else [(k, { VcIn.reset with isOpen := true })] }
      let s := meshed m []
      laneExists x.1 x.2 = true ∧ meshUp s (routerField x.1) = true ∧ getLink s.mesh (laneKey x.1 x.2) = [l] ∧ isSeam s.mesh x.1 x.2 = false ∧
        (getPort s.mesh 0).linkErr < 65535 ∧ (getFieldMesh s.mesh 0).linkErr < 0xFFFFFFFF ∧ f.abort = false ∧
        (f.head = true → (getIn s.mesh k).isOpen = false ∧ typeOfCode (getField f.data 32 8) ≠ none) ∧
        (f.head = false → (getIn s.mesh k).isOpen = true ∧ (getIn s.mesh k).discard = false)) ∧ 255 < 256 := by decide +kernel

/-- The header flit and one flit of rows. -/
theorem test_packet_flits : (packetFlits { Packet.blank with rows := [Row.zero], count := 1 }).map (fun f => (f.head, f.tail)) =
    [(true, false), (false, true)] := by decide +kernel

/-- A crossing off its separation with its entries idle, and one at it; a VC without a flit on its link, and one with an open packet. -/
theorem witness_SeamsAndCredits :
    (∀ w ∈ [(5 : Int), 4],
      let m := { openMesh [15, 16] with crossings := [(122, { Crossing.reset with w := w })] }
      laneExists 15 2 = true ∧ isSeam m 15 2 = true ∧ crossKey 15 2 = 122 ∧ farPlace m 15 2 = some 16 ∧ crossSep m 122 (routerField 16) = w ∧
        (getCross m 122).last + 16 < crossW m 122 (routerField 16)) ∧
    isSeam (openMesh [0, 1]) 0 6 = false ∧ laneExists 0 6 = true ∧
    (let s := meshed (openMesh [0, 1]) []
     meshUp s (routerField 0) = true ∧ farPlace s.mesh 0 2 = some 1 ∧ (getIn s.mesh (vcKey 0 2 4)).buf = [] ∧
       getLink s.mesh (laneKey 0 2) = [] ∧ (getIn s.mesh (vcKey 0 2 4)).isOpen = false ∧ isRouter 0 = true ∧
       (getIn { s.mesh with ins := [(vcKey 0 2 4, { VcIn.reset with isOpen := true })] } (vcKey 0 2 4)).isOpen = true) ∧
    meshUp State.reset 0 = false := by decide +kernel

/-- A transfer of index 3 that waits for acknowledgements and one row. -/
def xjob (q : QEntry) (acks : List Nat) : XferJob := { tag := 3, st := begun q, waitAcks := acks, hbmAcks := 0, waitRows := 1, nacked := false }

/-- A multicast at site 0 with a branch to the east whose HEAD has left, and one whose HEAD has not; its notice at the issuer. -/
theorem witness_DroppedBranches :
    (∀ sent ∈ [true, false],
      let m : Packet := { Packet.blank with typ := .mcastWrite, mcast := true, prect := { x0 := 0, y0 := 0, x1 := 1, y1 := 0 } }
      let b : Branch := { port := .east, lane := some 2, took := false, sent := sent, dropped := false }
      let v := { VcIn.reset with isOpen := true, buf := packetFlits m, hdr := some m, branches := [b] }
      let s := meshed { openMesh [0, 1] with ins := [(vcKey 0 6 0, v)] } []
      siteOk 0 = true ∧ laneExists 0 6 = true ∧ meshUp s (routerField 0) = true ∧ getIn s.mesh (vcKey 0 6 0) = v ∧ v.buf ≠ [] ∧
        v.branches.filter (fun x => decide (x.port = .east)) = [b] ∧ b.lane ≠ none ∧ chooseRoute s.mesh 0 (issuerOf m) = .go .xy 0) ∧
    (let q := entry (plain .nop) 0 0
     let n : Packet := { Packet.blank with typ := .dropNotice, tag := 3, job := 1, xid := some q.icount, prect := { x0 := 1, y0 := 0, x1 := 1, y1 := 0 } }
     let j := xjob q [0, 1]
     let s := arrivedAt 0 [n] [(0, placed pair { Core.reset with xfer := { Xfer.reset with jobs := [j] } })]
     s.mesh.arrived[0]? = some { place := 0, pkt := n } ∧ closedFor s 0 n = false ∧ (getCore s 0).xfer.jobs = [] ++ j :: [] ∧ j.tag = n.tag ∧
       some j.st.entry.icount = n.xid) := by decide +kernel

theorem witness_LocalPorts :
    (∀ r ∈ [1, 5], 1 ≤ r ∧ r ≤ 5) ∧ (getPort (openMesh [0]) 0).closed = false ∧ (getPort Mesh.reset 0).closed = true ∧
    (let p : Packet := { Packet.blank with rows := [Row.zero], count := 1 }
     let m := { openMesh [0] with feeds := [(vcKey 0 6 1, (packetFlits p).drop 1)] }
     getFeed m (vcKey 0 6 1) ≠ [] ∧ (∀ g ∈ getFeed m (vcKey 0 6 1), g.head = false) ∧ getFeed m (vcKey 0 6 0) = []) ∧
    (let s := meshed { Mesh.reset with ports := [(0, { openPort0 with closed := true, reason := 3 })] } []
     let t := { s with boot := { s.boot with inReset := false } }
     mayOpen t 0 = true ∧ permanentSite { t with history := { t.history with permanent := [unitCore 0] } } 0 = true) ∧
    (getCore (withCore (runningAt (plain .nop))) 0).stream.state ≠ .idle ∧ (getPort Mesh.reset 0).bypass = true ∧
    (∀ t ∈ [PktType.write, .ack],
      let p : Packet := { Packet.blank with typ := t, src := 1 }
      let s := arrivedAt 0 [p] []
      s.mesh.arrived[0]? = some { place := 0, pkt := p } ∧ closedFor s 0 p = true ∧ chooseRoute s.mesh 0 (issuerOf p) = .go .xy 0) := by
  decide +kernel

/-! ### Packets at cores -/

/-- A packet of job 1 to site 1, of one row for the last row of its slab. -/
def rowPacket (t : PktType) : Packet :=
  { Packet.blank with typ := t, dst := 1, job := 1, tag := 3, xid := some 3, addr := 24575, count := 1, total := 1, rows := [Row.zero] }

/-- Virtual core (1, 0) at site 1, with a transfer. -/
def far (q : QEntry) : Core := { second 1 with xfer := { Xfer.reset with jobs := [xjob q [0]] } }

/-- The transfer of XGET. -/
def getting : QEntry := entry (plain (.xfer .xget 0 0 1 0 0 0 0 0 0 0)) (farAt 1 0) 24575

/-- Each type of row data, with its rows and without; the rows wait, and are granted at transfer-in and at halo-in. -/
theorem witness_DataPackets :
    (∀ x ∈ [(PktType.write, Option.none (α := Nat)), (.mcastWrite, none), (.hbmData, some 9), (.hbmData, none), (.readData, none)],
      let p := { rowPacket x.1 with cast := x.2 }
      let e := { p with rows := [], total := 0 }
      let s := arrivedAt 1 [p, e] [(1, far getting)]
      s.mesh.arrived[0]? = some { place := 1, pkt := p } ∧ s.mesh.arrived[1]? = some { place := 1, pkt := e } ∧ closedFor s 1 p = false ∧
        closedFor s 1 e = false ∧ p.rows ≠ [] ∧ e.aborted = false ∧ e.segs = false ∧ (rowCount (getCore s 1) e).1 ≤ e.xid.getD 0 ∧
        e.total = (if (rowCount (getCore s 1) e).1 = e.xid.getD 0 then (rowCount (getCore s 1) e).2 else 0) ∧
        findXfer (getCore s 1) p ≠ none ∧ findXfer (second 1) p = none) ∧
    (∀ halo ∈ [true, false], ∀ own ∈ [true, false],
      let p := { rowPacket (if own then .readData else .write) with halo := halo }
      let j : InJob := { pkt := p, left := [(0, Row.zero)], stored := 0, refused := none, own := own }
      let c := { far getting with
        xfer := { (far getting).xfer with ins := if halo then [] else [j], haloIns := if halo then [j] else [] }
        wr := { ArbInst.reset with reqs := [(if halo then 1 else 0, 2)] } }
      let s := { arrivedAt 1 [] [(1, c)] with power := { (arrivedAt 1 [] []).power with clusters := [(0, { ClusterPwr.reset with state := 2 })] } }
      coreLive s 1 = true ∧ insOf halo (getCore s 1) = j :: [] ∧ (writePortCycle (writeWants c) c).2 = some (if halo then 1 else 0) ∧ j.left ≠ [] ∧
        (inAccess c j).any (fun a => decide (accFault c a = none)) = true ∧ p.aborted = false ∧ (rowCount c p).1 ≤ p.xid.getD 0) := by decide +kernel

theorem witness_AnswersToTransfers :
    (∀ t ∈ [PktType.read, .ack, .nack],
      let p := rowPacket t
      let s := arrivedAt 1 [p] [(1, far getting)]
      let j := xjob getting [0]
      s.mesh.arrived[0]? = some { place := 1, pkt := p } ∧ closedFor s 1 p = false ∧ (getCore s 1).xfer.jobs = [] ++ j :: [] ∧ j.tag = p.tag ∧
        some j.st.entry.icount = p.xid ∧ (getCore s 1).stream.fault = none ∧ (∀ x ∈ (second 1).xfer.jobs, x.tag ≠ p.tag)) ∧
    (let f : FaultRec := { code := .slabRange, engine := .transfer, pc := 0, icount := 3, cc := 0 }
     f.icount ≤ getting.icount) ∧
    (let n := rowPacket .nack
     let s := arrivedAt 4096 [n] []
     s.mesh.arrived[0]? = some { place := 4096, pkt := n } ∧ isRouter 4096 = false ∧ n.typ = .nack) ∧
    (∀ halo ∈ [true, false],
      let o : OutJob := { pkt := rowPacket .readData, next := 24575, left := 1, idx := 0, got := [], refused := none, own := none }
      let c := { second 1 with
        xfer := { Xfer.reset with outs := if halo then [] else [o], haloOuts := if halo then [o] else [] }
        rd := { ArbInst.reset with reqs := [(if halo then 4 else 3, 2)] } }
      let s := { arrivedAt 1 [] [(1, c)] with power := { (arrivedAt 1 [] []).power with clusters := [(0, { ClusterPwr.reset with state := 2 })] } }
      coreLive s 1 = true ∧ c.vec = Vec.reset ∧ outsOf halo c = o :: [] ∧ (readPortCycle (readWants c) c).2 = some (if halo then 4 else 3) ∧
        accFault c (outAccess o) = none) := by decide +kernel

/-- Credits, barrier arrivals and releases, and a CONTROL packet of the signal box. -/
theorem witness_SyncAndControlPackets :
    let q := entry (plain (.barrier 9#16)) 0 0
    let c := { far q with sync := { Sync.reset with bw := 1, waiting := some (begun q, 0) } }
    (∀ p ∈ [{ rowPacket .credit with slot := 5 }, { rowPacket .barrier with ident := (9, 0), release := true },
        { rowPacket .barrier with ident := (9, 1), release := true }, { rowPacket .barrier with ident := (9, 0) }],
      let s := arrivedAt 1 [p] [(1, c)]
      s.mesh.arrived[0]? = some { place := 1, pkt := p } ∧ closedFor s 1 p = false ∧ (getCore s 1).sync.waiting = some (begun q, 0) ∧
        q.insn.op = .barrier 9#16 ∧ (getCore s 1).sync.tallies = [] ∧ [p.src].length ≠ regionSize (getCore s 1)) ∧
    (second 1).sync.waiting = none ∧
    (let d := { c with sync := { c.sync with tallies := [{ id := 9, ordinal := 0, arrived := [1] }] } }
     ([0, 1] : List Nat).length = regionSize d) ∧
    (let d := { c with sync := { c.sync with tallies := (List.range 8).map fun k => { id := k, ordinal := 1, arrived := [] } } }
     d.sync.tallies.find? (fun t => decide (t.id = 9) && decide (t.ordinal = 0)) = none ∧ 8 ≤ d.sync.tallies.length) ∧
    (let v := 2 ^ 61 + 5 * 2 ^ 32
     let p := { rowPacket .control with ctl := some (.regWrite 0x380020 v), srcEdge := true }
     let s := arrivedAt 1 [p] [(1, c)]
     s.mesh.arrived[0]? = some { place := 1, pkt := p } ∧ windowDark s 1 = false ∧ v / 2 ^ 63 % 2 = 0) ∧
    (let p := { rowPacket .control with ctl := some (.arrival 1 2) }
     let s := arrivedAt 8192 [p] []
     s.mesh.arrived[0]? = some { place := 8192, pkt := p } ∧ p.typ = .control) := by decide +kernel

/-! ### The partitions -/

/-- A request of one row at the page of job 1. -/
def hbmPacket (t : PktType) : Packet := { Packet.blank with typ := t, job := 1, haddr := 0x3FFF80, count := 1, rows := [Row.zero] }

/-- Every stack in service. -/
def inService (h : Hbm) : Hbm := { h with stks := (List.range 16).map fun k => (k, { Stack.reset with state := 2, temp := 40, trainTemp := 40 }) }

/-- The mesh with the entry routers of signal box A, of host port 0 and of the partitions. -/
def entryMesh : Mesh := openMesh [0, 1, 16, 32, 48, 512, 768, 2496, 2512, 2528, 2544]

/-- A request that has come to the channel controllers behind router 0. -/
def atController (p : Packet) (h : Hbm) : State := { meshed { entryMesh with arrived := [{ place := 4096, pkt := p }] } [] with hbm := h }

/-- A write and a read that arrive, in service and with their partition out, and at the edge of their page. -/
theorem witness_HbmGrants :
    ∀ t ∈ [PktType.hbmWrite, .hbmRead],
      let p := hbmPacket t
      let s := atController p (inService onePage)
      s.clock.locked = true ∧ s.mesh.arrived.filter (atControllers 0) = [{ place := 4096, pkt := p }] ∧
        hbmTranslate s.hbm p.job p.haddr = some (5 * 0x400000 + 0x3FFF80) ∧ partInService s (addrPart (5 * 0x400000 + 0x3FFF80)) = true ∧
        (getRail s.power 0).fieldOn = true ∧ (List.range 16).all (fun i => decide (packetAddr s.hbm p i ≠ none)) = true ∧
        ({ p with rows := [], count := 0 } : Packet).rows.length * 16 = 0 ∧ hbmTranslate Hbm.reset p.job p.haddr = none := by decide +kernel

/-- A request of 8 words that its channel has granted, the last of its packet. -/
theorem witness_HbmServed :
    ∀ t ∈ [PktType.hbmWrite, .hbmRead],
      let p := hbmPacket t
      let a := 5 * 0x400000 + 0x3FFF80
      let r : HbmReq := { chan := addrChan a, rq := 0, job := 0, first := 0, n := 8 }
      let j : HbmJob := { id := 0, pkt := p, place := 0, left := 1, words := [] }
      let s := atController p { inService onePage with reqs := [r], jobs := [j], nextJob := 1, granted := [(addrChan a, 1)] }
      addrChan a < 512 ∧ hbmUp s (addrChan a / 64) = true ∧ smGet 0 s.hbm.granted (addrChan a) = r.rq + 1 ∧ r.rq < 9 ∧
        s.hbm.reqs.find? (fun x => decide (x.chan = addrChan a) && decide (x.rq = r.rq)) = some r ∧
        s.hbm.jobs.find? (fun x => decide (x.id = r.job)) = some j ∧ 1 ≤ j.left ∧ a % 8 = 0 ∧ a % 64 + 8 * r.n ≤ 64 ∧
        (List.range r.n).all (fun i => decide (packetAddr s.hbm j.pkt (r.first + i) = some (a + 8 * i))) = true ∧ p.aborted = false ∧ p.cast = none ∧
        smGet 0 s.hbm.granted 511 = 0 ∧ hbmUp State.reset 0 = false := by decide +kernel

/-- A fettling read of a burst with one word to correct. -/
theorem witness_HbmFettle :
    let h := { inService onePage with
      words := [(0, hbmEncode 1#64), (1, hbmEncode 0#64), (2, hbmEncode 0#64 ^^^ 4#72), (3, hbmEncode 0#64)], granted := [(0, 10)] }
    let s := atController (hbmPacket .hbmRead) h
    hbmUp s (0 / 64) = true ∧ smGet 0 s.hbm.granted 0 = 10 ∧ chanAddr 0 (32 * smGet 0 s.hbm.fettle 0) / 32 = 0 ∧
      ∀ k, k < 4 → hbmDecode (smGet 0#72 s.hbm.words (4 * 0 + k)) =
        { data := if k = 0 then 1#64 else 0#64, crazed := false, ce := decide (k = 2), ue := false } := by decide +kernel

theorem witness_StacksRefreshAndRetrain :
    let k := fun (n : Nat) => getStack { Hbm.reset with stks := [(15, { Stack.reset with state := n, attempts := 3 })] } 15
    15 < 16 ∧ (k 2).state = 2 ∧ (k 3).state = 3 ∧ (k 4).state = 4 ∧ (k 4).attempts = 3 ∧ (k 2).state ≠ 3 ∧ (k 2).state ≠ 4 ∧ 31 < 32 ∧ 255 < 256 ∧ 65535 < 65536 := by decide +kernel

/-! ### Clocks and power -/

/-- A module with a locked root, its rails and clusters on, READY. -/
def readyState : State :=
  { State.reset with
    mesh := enableRoutes entryMesh
    clock := { Clock.reset with locked := true, fastest := 8 }
    power := { Power.reset with
      rails := (List.range 8).map fun f => (f, { Rail.reset with fieldOn := true, meshOn := true, fieldPh := 0xFFFFFF#24, meshPh := 0xFF#8 })
      clusters := [(0, { ClusterPwr.reset with state := 2, sliceOk := 0xF#4 })] }
    boot := { Boot.reset with standby := true, feedGood := true, box2 := true, inReset := false, phase := 8, image := some ImageVals.reset, glazed := true } }

/-- Do packets of a side-band unit reach a partition? -/
def reaches (s : State) (u : SideUnit) (p : Nat) : Bool :=
  partInService s p && (unitEntry s.mesh u).any fun e => match chooseRoute s.mesh e (unitHbmRouter s.mesh u p) with
    | .go _ _ => true
    | .refuse _ => false

theorem unitReaches_of {s : State} {u : SideUnit} {p : Nat} (h : reaches s u p = true) : UnitReaches s u p := by
  simp only [reaches, Bool.and_eq_true, Option.any_eq_true] at h
  obtain ⟨h1, e, h2, h3⟩ := h
  split at h3
  · next o yt hr => exact ⟨h1, e, o, yt, h2, hr⟩
  · cases h3

theorem witness_StretchesDividers :
    State.reset.clock.locked = false ∧ (getFieldClk readyState.clock 7).depth = 0 ∧ clusterOk 639 = true ∧ 16 < 32 ∧
    (let k := { Clock.reset with fields := [(7, { FieldClk.reset with depth := 1 })], deferred := true, pending := some { target := 8, tick := 4000, job := none } }
     (getFieldClk k 7).depth > 0 ∧ k.deferred = true ∧ k.pending.isSome = true ∧ ∀ g, g < 8 → g ≠ 7 → (getFieldClk k g).depth = 0) ∧
    clusterOk 0 = true ∧ siteOk 65 = true ∧ readyState.clock.locked = true ∧ sensorsLive readyState 0 = true ∧ siteCluster 65 = 0 ∧
    (let k := { Clock.reset with fields := [(7, { FieldClk.reset with depth := 1 })] }
     (getFieldClk k 7).depth > 0 ∧ k.deferred = false ∧ anyStretch k = true) ∧
    (8 < 32 ∧ 8 ∈ [8, 9, 10, 11, 12, 14, 16] ∧ readyState.clock.fastest ≤ 8 ∧ ({ Clock.reset with tick := 4000 } : Clock).time + 4000 ≤ 4000) ∧
    (let p : DivChange := { target := 8, tick := 4000, job := none }
     let k := { Clock.reset with pending := some p }
     k.pending = some p ∧ k.deferred = false ∧ anyStretch k = false ∧ ({ k with deferred := true } : Clock).deferred = true ∧ p.job = none ∧
       ¬ p.target ≥ k.div) := by decide +kernel

theorem witness_Slews :
    let k := { Clock.reset with locked := true, time := 1024, offsetPs := 1 }
    k.locked = true ∧ k.offsetPs.toInt > 0 ∧ k.time ≥ k.slewTick + 1024 ∧ ({ k with offsetPs := -1 } : Clock).offsetPs.toInt < 0 := by
  decide +kernel

theorem witness_FeedsSwitchOrGo :
    readyState.boot.feedGood = true ∧ readyState.power.feeds.onB = false ∧ readyState.clock.locked = true ∧ readyState.boot.standby = true ∧
    readyState.tripped = false ∧ 10499 < 10500 ∧ 10800 ≥ 10800 ∧ ¬ 10799 ≥ 10800 ∧ 11400 ≥ 11400 ∧ 10199 < 10200 ∧
    ({ readyState.power.feeds with onB := true } : Feeds).onB = true := by decide +kernel

theorem witness_CapAveragesAndGain :
    readyState.boot.box2 = true ∧ isReady readyState.boot = true ∧ managerRuns readyState = true ∧
    ({ readyState.power.pm with estMs := 1 } : PwrMgr).estMs > 0 ∧ readyState.power.pm.k ≤ 0x5000 ∧ 0x3333 ≤ readyState.power.pm.k ∧
    (let pm := { readyState.power.pm with capW := 10, reconFault := true }
     (12 : Nat) * 10 ≤ 12 * pm.capW ∧ pm.sinceApplied ≤ 100 ∧ pm.fallDue = none ∧ 8000 ≥ pm.capW ∧ pm.reconFault = true) ∧
    ((1 * 1000000000) * 10 < 2000000000 * 7 ∧ ¬ ((1 * 1000000000) * 10 < 1000000000 * 7 ∨ 1000000000 * 14 < (1 * 1000000000) * 10)) := by
  decide +kernel

/-- A program of one column: a region, a bucket of D0 up to 4, and one word for each core. -/
def pkg1 : Package :=
  { compat := false, vw := 1, vh := 18, modules := 1, ndims := 1, winBase := 0, arenaVa := 0, inMax := 64, outMax := 64,
    regions := [{ vx0 := 0, vy0 := 0, w := 1, h := 18, entries := List.replicate 16 0 }],
    buckets := [{ dims := [4, 0, 0, 0], inBytes := 64, outBytes := 64 }],
    images := List.replicate 18 { bankA := [0#64], bankB := [], pairs := 0, pwr := 0 } }

/-- A control command of host port 0, with its descriptor's 64 bytes. -/
def hostCmd (desc : List Byte) : CtlCmd :=
  { ticket := 77, origin := 14, cq := 0, ring := 0, desc := desc, failed := false, data := [], srcId := 0, jkey := 0, rank := 0 }

/-- A descriptor from its 8-byte words. -/
def descOf (l : List Nat) : List Byte := (l ++ List.replicate (8 - l.length) 0).flatMap (bytesLE 8)

/-- A job of that program, id 1, running on the sites given. -/
def job1 (sites : List Nat) : Job :=
  { newJob 1 (hostCmd []) { pkg := pkg1, pkgBytes := [], members := [], exch := [], exBytes := [] } 0 0 none [] none with
    place := some { field := 0, fw := 1, fh := 1, shared := true, c0 := 0, vw := 1 }
    table := sites.map fun x => { site := x, fenced := false }
    inRow := 16, outRow := 16, pages := 1 }

theorem witness_ClustersAndRailsFail :
    (let c := getCluster readyState 0
     c.state = 2 ∧ c.sliceOk = 0xF#4 ∧ 3 < 4 ∧ jobsAt readyState (clusterSites 0) = [] ∧ (getRail readyState.power 7).fieldOn = true ∧
       (getRail readyState.power 7).fieldPh = 0xFFFFFF#24) ∧
    (let s := { readyState with jobs := [job1 [0, 1]] }
     639 < 640 ∧ (getRail s.power 7).meshPh = 0xFF#8 ∧ (getRail s.power 7).meshOn = true ∧ (∀ j ∈ s.jobs, j.recoveries < 3) ∧
       (let r := { Rail.reset with fieldOn := true, fieldPh := 0x3FFFFF#24 }
        r.fieldOn = true ∧ r.fieldPh = 0x3FFFFF#24 ∧ readyState.jobs = [] ∧ 7 ∉ readyState.box.partsOut ∧ readyState.box.resets = []) ∧
     s.jobs = [job1 [0, 1]] ∧ jobsAt s (clusterSites 0) = [(job1 [0, 1]).id] ∧ mayRecover (job1 [0, 1]) = true ∧ (job1 [0, 1]).recoveries < 3) := by
  decide +kernel

theorem witness_WavesEstimatesAndTemperatures :
    (let s := { readyState with boot := { readyState.boot with phase := 5, wavesDone := 19 } }
     19 < 20 ∧ s.boot.phase = 5 ∧ s.boot.wavesDone = 19 ∧ s.history.permanent = []) ∧
    (getRail readyState.power (clusterField 0)).fieldOn = true ∧ (∀ i, i < 4 → sliceOut readyState 0 i = false) ∧
    ({ Therm.reset with coolRuns := 101 } : Therm).coolRuns ≥ 101 ∧ ({ Therm.reset with coolRuns := 101 } : Therm).hotRuns < 11 ∧
    ({ ClusterPwr.reset with thermState := 3, temp := 94, state := 2 } : ClusterPwr).temp < 95 ∧ readyState.jobs = [] ∧ estimating readyState 0 = true ∧ managerRuns readyState = true ∧
    ({ Therm.reset with hotRuns := 11 } : Therm).hotRuns ≥ 11 ∧ stepUp 8 ≠ 0 ∧ ({ PwrMgr.reset with thermDiv := 8 } : PwrMgr).thermDiv ≠ 0 ∧
    readyState.power.clusters = [(0, getCluster readyState 0)] ∧ 99 < 100 ∧
    (let c := { ClusterPwr.reset with thermState := 2, temp := 95 }
     c.thermState ≥ 2 ∧ c.temp ≥ 95) := by decide +kernel

/-! ### The meter -/

theorem witness_EnergyIsApportioned : [0, 3, 1].sum ≠ 0 ∧ readyState.clock.locked = true ∧
    (∀ h ∈ readyState.meter.hands, h.settled = false → h.uj = 0) ∧ (readyState.clock.time / 400000 + 1) * 400000 % 400000000 ≠ 0 ∧ State.reset.clock.locked = false := by
  decide +kernel

theorem witness_LedgerRecords :
    let r : Resv := 
      { index := 9, kind := 1, ticket := 0, job := 0, status := 0, flags := 0, rows := 0, start := 0, stop := 0, step := none, cats := Cats.zero, dev := 0, backstamp := [] }
    isReady readyState.boot = true ∧ resvReady readyState.meter r = true ∧ r.backstamp.length ≤ 32 ∧
      ({ readyState.meter with prevHash := List.replicate 48 0#8 } : Meter).prevHash.length = 48 ∧
      UnitReaches readyState (boxUnit readyState) (addrPart (ledgerAddrs r.index).1) ∧
      UnitReaches readyState (boxUnit readyState) (addrPart (ledgerAddrs r.index).2) ∧ 2 ^ 40 - 1 < 2 ^ 40 := by
  refine ⟨?_, ?_, ?_, ?_, unitReaches_of ?_, unitReaches_of ?_, ?_⟩ <;> decide +kernel

/-! ### Host ports -/

/-- A READY module whose host port 0 is present. -/
def hostState : State := { readyState with hosts := [(0, { HostPort.reset with perst := false, linkUp := true, d0 := true })] }

theorem witness_SessionQueues :
    (let v : W64 := BitVec.ofNat 64 (3 * 2 ^ 44 + 16)
     let on := { hostState.queues with states := [(3, { QState.reset with en := true })] }
     getField v 44 20 = 3 ∧ getField v 0 5 = 16 ∧ isReady hostState.boot = true ∧ doorbellOk on 3 16 = true ∧ doorbellOk on 3 0 = false ∧
       doorbellOk hostState.queues 3 1 = false) ∧
    (2 ^ 30 - 64 < 2 ^ 30 ∧ (2 ^ 30 - 64) % 64 = 0 ∧ (List.replicate 64 0#8).length = 64 ∧ isReady State.reset.boot = false) ∧
    UnitReaches hostState (.host 0) (addrPart (entryAddrs ((2 ^ 30 - 64) / 1024) 0).1) ∧
    UnitReaches hostState (.host 0) (addrPart (entryAddrs ((2 ^ 30 - 64) / 1024) 0).2) ∧
    (let en := { QState.reset with en := true }
     en.en = true ∧ QState.reset.en = false ∧ QState.reset.outstanding = 0 ∧ ({ QState.reset with outstanding := 1 } : QState).outstanding ≠ 0 ∧
       (0x8000000000000000#64).toNat / 2 ^ 63 % 2 = 1 ∧ (0x8000000000000000#64).toNat / 2 ^ 62 % 2 = en.port) := by
  refine ⟨?_, ?_, unitReaches_of ?_, unitReaches_of ?_, ?_⟩ <;> decide +kernel

theorem witness_ControlQueuesAndEnables :
    (let q := descOf [6, 0, 0, 0]
     let v : W32 := BitVec.ofNat 32 (2 ^ 26 + 1)
     let g := { Cq.reset with en := true, log2n := 4 }
     isReady hostState.boot = true ∧ getField v 26 6 = 1 ∧ g.en = true ∧ cqCount g (getField v 0 16) = 1 ∧ g.head < 2 ^ g.log2n ∧
       q.length = 64 ∧ ctlDescOk q = true ∧ dfield q 0 1 = 6 ∧ ctlDescOk (descOf [7]) = false ∧ (descOf [7]).length = 64) ∧
    (63 < 64 ∧ Cq.reset.en = false ∧ (0x8000000000000000#64).toNat / 2 ^ 63 % 2 = 1 ∧ 255 < 256 ∧ Ring.reset.en = false ∧ Ring.reset.sinceMark = 0 ∧
       (0#64).toNat / 2 ^ 63 % 2 = 0) := by decide +kernel

/-- A completion for ring 255 of port 0. -/
def comp1 : Comp := { port := 0, ring := 255, ticket := 5, status := 0, result := 0, tag := 0, backstamp := [], queue := none, record := none }

theorem witness_CompletionRings :
    let g := { Ring.reset with en := true, log2n := 6, unsig := 1, coalUs := 1 }
    let s := { hostState with box := { hostState.box with finished := [comp1] } }
    s.box.finished = [comp1] ∧ comp1.port = 0 ∧ comp1.ring = 255 ∧ comp1.record = none ∧ comp1.queue = none ∧ g.held = [] ∧ g.sinceMark = 0 ∧
      g.en = true ∧ ringFull g = false ∧ ringFull { g with head := 1 } = true ∧ Ring.reset.en = false ∧
      ({ g with held := [comp1] } : Ring).held = [comp1] ∧ g.unsig > 0 ∧ g.coalUs > 0 ∧
      Ring.reset.unsig = 0 ∧ ringFull { { g with held := [comp1] } with head := 0 } = false := by decide +kernel

theorem witness_HostPortsComeAndGo :
    let up := getHost hostState 0
    let away := { up with linkUp := false }
    1000 ≤ 1000 ∧ 999 < 1000 ∧ up.d0 = true ∧ imageRead hostState.boot = true ∧ mayLink State.reset 0 = false ∧
    HostPort.reset.linkUp = false ∧ (up.waited || true) = true ∧ (up.waited || false) = false ∧
    portPresent up = true ∧ portPresent away = false ∧ up.linkUp = true ∧ up.perst = false ∧
      mayLink { hostState with hosts := [(0, away)] } 0 = true := by decide +kernel

/-! ### Jobs -/

/-- The bytes of pkg1: the header, the region, the bucket, 18 image entries, one word for all. -/
def pkg1Bytes : List Byte :=
  let header := bytesLE 4 0x10000 ++ bytesLE 4 0 ++ bytesLE 2 1 ++ bytesLE 2 18 ++ bytesLE 2 1 ++ bytesLE 1 1 ++ bytesLE 1 1 ++ bytesLE 4 1 ++
    bytesLE 2 0 ++ bytesLE 2 0 ++ bytesLE 8 0 ++ bytesLE 4 64 ++ bytesLE 4 64 ++ bytesLE 8 64 ++ bytesLE 8 104 ++ bytesLE 8 136
  let region := bytesLE 1 0 ++ bytesLE 1 0 ++ bytesLE 1 1 ++ bytesLE 1 18 ++ List.replicate 36 0#8
  let bucket := bytesLE 4 4 ++ List.replicate 12 0#8 ++ bytesLE 4 64 ++ bytesLE 4 64 ++ List.replicate 8 0#8
  let image := bytesLE 4 424 ++ bytesLE 2 1 ++ bytesLE 2 0 ++ bytesLE 4 0 ++ bytesLE 2 0 ++ bytesLE 1 0 ++ bytesLE 1 0
  header ++ region ++ bucket ++ (List.replicate 18 image).flatten ++ List.replicate 8 0#8

theorem test_package : parsePackage pkg1Bytes = some pkg1 := by decide +kernel

/-- A READY module with its westmost column powered, and a command accepted. -/
def jobState (cmds : List CtlCmd) (jobs : List Job) : State :=
  { hostState with
    power := { hostState.power with clusters := (List.range 10).map fun r => (32 * r, { ClusterPwr.reset with state := 2, sliceOk := 0xF#4 }) }
    box := { hostState.box with accepted := cmds }
    jobs := jobs }

/-- ADMIT_JOB of pkg1: LEN, IN_ROW and OUT_ROW 16, one page. -/
def admitCmd (len : Nat) : CtlCmd := hostCmd (descOf [1 + len * 2 ^ 32, 0, 0, 7, 16 * 2 ^ 32, 16 + 2 ^ 32])

theorem witness_JobsComeAndGo_admit :
    (let c := admitCmd 432
     let s := jobState [c] []
     ((takeCmd s 1 77).map (·.1) = some c ∧ c.origin ≥ 14 ∧ cmdPortOk s c = true ∧ ctlDescOk c.desc = true ∧
       (fillRead (dfield c.desc 4 4) { bytes := pkg1Bytes, failed := [] }).2 = []) ∧
     (parseAdmit c.desc (fillRead (dfield c.desc 4 4) { bytes := pkg1Bytes, failed := [] }).1 s.fuses.moduleId true).any (fun a =>
       a.members.isEmpty && decide (a.pkg.modules ≤ 1)) = true ∧ dfield c.desc 1 1 % 2 = 0 ∧ freeId s = some 0 ∧
     (choosePlace (usable s) (heldPlaces s) 1 18 none).any (fun p =>
       (mapPages s.hbm (savePages s) 0 (dfield c.desc 0x2C 4) (pageParts s) (placeFields p)).isSome) = true) ∧
    parseAdmit (admitCmd 0).desc [] [] true = none ∧ duePermanent (jobState [] []) = [] ∧
    (let s := jobState [] []
     duePermanent { s with history := { s.history with permanent := [unitCore 2559, unitBank 2558 35] } } = [2559, 2558]) := by decide +kernel

theorem witness_JobsComeAndGo_retire :
    (let c := hostCmd (descOf [5 + 2 ^ 16])
     let j := job1 [0, 64]
     let s := jobState [c] [j]
     (takeCmd s 5 77).map (·.1) = some c ∧ cmdJob s c = some j ∧ (∀ x ∈ s.jobs, treeSize x ≤ 1 ∧ (x.id ≠ j.id → x.devSave = none)) ∧ j.st ≠ 2 ∧
       j.dispatched = false ∧ j.loading = false ∧ j.saves = [] ∧ j.waits = [] ∧ j.retire = []) ∧
    (let c := hostCmd (descOf [6 + 64 * 2 ^ 32])
     (takeCmd (jobState [c] []) 6 77).map (·.1) = some c ∧ cmdPortOk (jobState [c] []) c = true) ∧
    [0, 1, 2].all (fun k => decide (dfield (descOf [6 + 64 * 2 ^ 32, 0, 0, k]) 0x18 1 = k)) = true ∧
    getJob (jobState [] [job1 [0]]) 1 = some (job1 [0]) ∧ getJob (jobState [] []) 1 = none := by decide +kernel

/-- The page map with one page for job 1. -/
def pagedState (cmds : List CtlCmd) (jobs : List Job) : State := { jobState cmds jobs with hbm := onePage }

/-- The page map with job 1's page read-write, CRAZED. -/
def crazedPage : Hbm := { onePage with entries := [(0, setField (newEntry 1 5) 62 1 1)] }

/-- The bytes before the end of a page, of a unit whose packets reach its partition. -/
theorem witness_WeightsSavesAndResumes_write :
    0x3FFFF0 % 8 = 0 ∧ (List.replicate 16 1#8).length % 8 = 0 ∧ 0x3FFFF0 % 0x400000 + 16 ≤ 0x400000 ∧
      hbmTranslate (pagedState [] []).hbm 1 0x3FFFF0 = some (5 * 0x400000 + 0x3FFFF0) ∧
      UnitReaches (pagedState [] []) (.host 0) (addrPart (5 * 0x400000 + 0x3FFFF0)) := by
  refine ⟨rfl, rfl, by decide, ?_, unitReaches_of ?_⟩ <;> decide +kernel

theorem witness_LoadsAndSaves :
    (let c := hostCmd (descOf [2 + 2 ^ 8 + 2 ^ 16 + 16 * 2 ^ 32, 0, 0, 0x3FFFF0])
     let j := job1 [0]
     let s := pagedState [c] [j]
     let v := dfield c.desc 0x18 8
     (takeCmd s 2 77).map (·.1) = some c ∧ cmdJob s c = some j ∧ treeSize j ≤ 1 ∧ j.waits = [] ∧ cmdPortOk s c = true ∧ mapFixed j = false ∧
       mapFixed { j with dispatched := true } = true ∧ changesMap s.hbm j c = true ∧ changesMap s.hbm j (hostCmd (descOf [2 + 2 ^ 16 + 16 * 2 ^ 32])) = false ∧ loadOk s.hbm j.id v 16 = true ∧
       touchesArena j.pkg v 16 = false ∧ (fillRead 16 { bytes := List.replicate 16 1#8, failed := [] }).2 = [] ∧ v % 8 = 0 ∧
       v % 0x400000 + 16 ≤ 0x400000 ∧ (hbmTranslate s.hbm j.id v).isSome = true ∧ (entryIndex s.hbm j.id v).isSome = true) ∧
    (let c := hostCmd (descOf [3 + 2 ^ 16, 0, 0, 5])
     let j := job1 [0]
     let s := pagedState [c] [j]
     (takeCmd s 3 77).map (·.1) = some c ∧ cmdJob s c = some j ∧ dfield c.desc 0 1 = 3 ∧ j.place.isSome = true ∧ j.st ≠ 2 ∧ j.st ≠ 3 ∧
       j.st ≠ 4 ∧ j.st ≠ 6 ∧ dfield c.desc 0x18 4 ≠ 0 ∧ j.stopCount ≤ dfield c.desc 0x18 4 ∧ dfield c.desc 4 4 < saveNeeds s j false ∧
       ¬ ({ j with stopCount := 6 } : Job).stopCount ≤ dfield c.desc 0x18 4) ∧
    changesMap crazedPage (job1 [0]) (hostCmd (descOf [2 + 2 ^ 16 + 0x400000 * 2 ^ 32])) = true ∧
    (let c := hostCmd (descOf [3 + 2 ^ 16 + 0x40000000 * 2 ^ 32])
     let a : AtStop := { k := 4, ordinal := 1, final := true, exNext := 0, exBusy := false, outDone := true, released := true }
     let j := { job1 [0] with atStop := some a, saves := [{ cmd := c, stop := 4, halt := false }] }
     let s := pagedState [] [j]
     getJob s j.id = some j ∧ j.id < 32 ∧ jobRuns j = true ∧ a.final = true ∧ a.outDone = true ∧ a.released = true ∧ exchDone j a = true ∧
       ({ a with k := 5 } : AtStop).k ≠ 4 ∧ j.shed = [] ∧ j.retire = [] ∧ saveNeeds s j false ≤ dfield c.desc 4 4) := by
  decide +kernel

/-- A job of no cores, and the header of the save that fits it. -/
def emptyJob : Job := { job1 [] with pkg := { pkg1 with vw := 0, vh := 0 }, table := [], pkgDigest := List.replicate 32 0#8 }

def emptyHeader : List Byte :=
  bytesLE 4 0x10000 ++ bytesLE 4 0 ++ bytesLE 8 0 ++ bytesLE 4 2 ++ bytesLE 4 1 ++ bytesLE 2 0 ++ bytesLE 2 0 ++ bytesLE 2 1 ++ bytesLE 1 0 ++
    bytesLE 1 0xFF ++ List.replicate 4064 0#8

theorem emptyHeader_length : emptyHeader.length = 4096 := by decide +kernel

/-- The header and its digest are a save that the job accepts. -/
theorem emptySave_ok : saveOk emptyJob { bytes := emptyHeader ++ sha256 emptyHeader, failed := [] } = true := by
  have hl : (emptyHeader ++ sha256 emptyHeader).length = 4128 := by simp [emptyHeader_length]
  have h1 : (emptyHeader ++ sha256 emptyHeader).take 4096 = emptyHeader := by
    rw [← emptyHeader_length]; exact List.take_left
  have h2 : ((emptyHeader ++ sha256 emptyHeader).drop 4096).take 32 = sha256 emptyHeader := by
    rw [← emptyHeader_length, List.drop_left, List.take_of_length_le (by simp)]
  generalize hd : sha256 emptyHeader = d at *
  have hf : ∀ o n, o + n ≤ 4096 → fieldLE (emptyHeader ++ d) o n = fieldLE emptyHeader o n := by
    intro o n h
    unfold fieldLE
    rw [List.drop_append_of_le_length (by rw [emptyHeader_length]; omega),
      List.take_append_of_le_length (by rw [List.length_drop, emptyHeader_length]; omega)]
  have hz : ∀ o, o + 32 ≤ 4096 → ((emptyHeader ++ d).drop o).take 32 = (emptyHeader.drop o).take 32 := by
    intro o h
    rw [List.drop_append_of_le_length (by rw [emptyHeader_length]; omega),
      List.take_append_of_le_length (by rw [List.length_drop, emptyHeader_length]; omega)]
  have hn : saveCounts (emptyHeader ++ d) = (0, 0, 0) := by
    simp only [saveCounts, hf 0x20 4 (by omega), hf 0x24 4 (by omega), hf 0x28 4 (by omega)]
    decide +kernel
  simp only [saveOk, savedPages, savedSel, hn, saveSize, hl, hf 0 4 (by omega), hf 8 8 (by omega), hf 0x1C 2 (by omega), hf 0x1E 1 (by omega),
    hf 0x18 2 (by omega), hf 0x1A 2 (by omega), hf 0x1F 1 (by omega), hz 0x38 (by omega), hz 0x58 (by omega)]
  simp only [Nat.mul_zero, Nat.zero_mul, Nat.add_zero, Nat.reduceAdd, Nat.reduceSub, h1, h2, hd, decide_true,
    List.range_zero, List.map_nil, List.all_nil, List.drop_nil, List.zip_nil_left]
  decide +kernel

theorem witness_SavesResume :
    let c := hostCmd (descOf [4 + 2 ^ 16 + 4128 * 2 ^ 32])
    let s := jobState [c] [emptyJob]
    (takeCmd s 4 77).map (·.1) = some c ∧ cmdJob s c = some emptyJob ∧ resumable emptyJob = true ∧ emptyJob.place.isSome = true ∧
      dfield c.desc 0 1 = 4 ∧ cmdPortOk s c = true ∧ resumable { emptyJob with dispatched := true } = false ∧
      (let j := { job1 [] with st := 3, place := none }
       resumable j = true ∧ (placeJob j (jobState [] [j])).isSome = true ∧
         placeJob j (jobState [] ((List.range 8).map fun f => { job1 [] with
           id := f + 2, place := some { field := f, fw := 1, fh := 1, shared := false, c0 := 0, vw := 16 } })) = none) ∧
      dfield c.desc 4 4 = 4128 ∧ saveOk emptyJob { bytes := [], failed := [] } = false ∧
      ({ emptyJob with resuming := some c } : Job).resuming = some c ∧ (emptyJob.table.map (·.site)).Nodup ∧ emptyJob.saves = [] := by
  decide +kernel

/-- A read that delivers the whole save meets RESUME's checks. -/
theorem witness_SavesResume_read :
    let b : HostBuf := { bytes := emptyHeader ++ sha256 emptyHeader, failed := [] }
    (fillRead 4128 b).2 = [] ∧ saveOk emptyJob { bytes := (fillRead 4128 b).1, failed := [] } = true := by
  have hl : (emptyHeader ++ sha256 emptyHeader).length = 4128 := by simp [emptyHeader_length]
  have h := emptySave_ok
  generalize emptyHeader ++ sha256 emptyHeader = l at *
  have ht : l.take 4128 = l := List.take_of_length_le (by omega)
  simp only [fillRead, hl, Nat.sub_self, List.replicate_zero, List.append_nil, List.range_zero, List.map_nil, List.filter_nil, ht]
  exact ⟨trivial, h⟩

/-- A request of one row, and the session-queue entry that names it. -/
def req1 : Req :=
  { acc := 0, ticket := 9, queue := 3, port := 0, ring := 0, dims := [1, 0, 0, 0], outAddr := 0x1000, outLen := 16, haddr := 0, len := 16, tag := 0,
    tick := 0, rank := 0, row0 := 0, inFailed := false, inDigest := [], orphan := false }

def sub1 (words : List Nat) : SubEnt := { acc := 0, ticket := 9, queue := 3, port := 0, ring := 0, job := 1, tick := 0, desc := descOf words }

/-- SUBMIT of job 1: LEN 16, D0 1, OUT_LEN 16. -/
def goodSub : SubEnt := sub1 [0x10 + 2 ^ 16 + 16 * 2 ^ 32, 0, 0, 1, 0, 0, 16]

theorem witness_Submits :
    (let s := { jobState [] [job1 [0]] with box := { Box.reset with subs := [goodSub] } }
     s.box.subs.find? (fun e => decide (e.ticket = 9)) = some goodSub ∧ submitStatus s goodSub = none ∧ liveJob s 1 = some (job1 [0]) ∧
       treeRank (job1 [0]) = 0 ∧ subDescOk goodSub.desc = true ∧ dfield goodSub.desc 2 1 = goodSub.job) ∧
    subDescOk (sub1 []).desc = false ∧ liveJob (jobState [] []) 1 = none ∧
    submitStatus (jobState [] [job1 [0]]) (sub1 [0x10 + 2 ^ 16 + 80 * 2 ^ 32, 0, 0, 5, 0, 0, 80]) = some 2 := by decide +kernel

theorem witness_YardDispatches :
    let j := { job1 [0] with ready := [req1], gatherDue := true }
    let s := { jobState [] [j] with queues := { Queues.reset with cache := [3] } }
    getJob s j.id = some j ∧ j.loading = false ∧ treeSize j ≤ 1 ∧ treeRank j = 0 ∧ (yardSelect s j).1 = [req1] ∧ req1.rank = 0 ∧
      req1.inFailed = false ∧ portPresent (getHost s req1.port) = true ∧ (fillRead req1.len { bytes := List.replicate 16 7#8, failed := [] }).2 = [] ∧
      treePorts j = [] ∧ (yardSelect s { j with ready := [] }).1 = [] ∧ portPresent HostPort.reset = false ∧ j.id < 32 ∧
      (j.gatherDue || (yardSelect s j).2) = true ∧ yardOpen s j = true ∧ mayDispatch s = true ∧ chooseBucket j.pkg (stepShape [req1.dims]) = some 0 ∧
      j.pkg.buckets[0]?.isSome = true ∧ ∀ k ∈ jobSites j, (getCore s k).stream.state = .idle ∨ (getCore s k).stream.state = .arrived := by
  decide +kernel

/-- A core that has arrived at its third stop. -/
def arrivedCore : Core := { Core.reset with stream := { Stream.reset with state := .arrived, stopCount := 3, atStop := true } }

/-- Job 1 in a step, its one core at stop 3. -/
def stoppedState (j : Job) : State := { pagedState [] [j] with cores := [(0, arrivedCore)] }

theorem witness_JobStops :
    let j := { job1 [0] with dispatched := true, sel := [req1] }
    let s := stoppedState j
    getJob s j.id = some j ∧ jobAdmitted j = true ∧ jobRuns j = true ∧ j.st = 1 ∧ j.dispatched = true ∧ j.suspect = false ∧ j.atStop = none ∧
      jobStop { s with cores := [] } j = none ∧
      (let c := { arrivedCore with arbRd := { arrivedCore.arbRd with armed := true } }
       arbsTaken { s with cores := [(0, c)] } j = false) ∧ treeSize j = 1 ∧ j.pair = none ∧
      j.exch = [] ∧ j.saves = [] ∧ j.shed = [] ∧ j.retire = [] ∧ j.halted = false ∧ jobStop s j = some 3 ∧ arbsTaken s j = true ∧
      (∀ x ∈ jobSites j, (getCore s x).stream.state = .arrived) ∧ req1.orphan = false ∧ req1.rank = treeRank j ∧
      portPresent (getHost s req1.port) = true := by decide +kernel

/-! ### Trunk ports -/

/-- The module with one trunk port as given, port 11. -/
def trunkState (p : TPort) : State := { readyState with trunks := [(11, p)] }

theorem witness_TrunkPortsTrain :
    (∀ st ∈ List.range 7, let p := getTrunk (trunkState { TPort.reset with st := st, present := true, lanesOk := 0xFF }) 11
      p.st = st ∧ p.retraining = false ∧ p.waiting = false ∧ (laneList p.lanesOk).length ≥ 4 ∧ portUp p = false ∧ portUp { p with retraining := true } = true) ∧
    (laneList (goodLanes (trunkState TPort.reset) 11 0xFF#9)).length ≥ 4 ∧ portUp TPort.reset = false ∧
    portUp { TPort.reset with st := 7 } = true ∧ ({ TPort.reset with st := 6, heard := true } : TPort).heard = true ∧
    ({ TPort.reset with st := 7, present := true } : TPort).present ≠ false ∧
    (laneList (0x7 : BitVec 9)).length < 4 ∧ isReady readyState.boot = true ∧ true ≠ TPort.reset.present ∧
    ((List.replicate 10 (1 : Nat)).filter fun x => decide ((0 : Nat) < x + 400000000)).length ≥ 10 := by decide +kernel

theorem witness_TrunkLanesAndRetraining :
    let p := { TPort.reset with st := 7, map := [0, 1, 2, 3, 4, 5, 6, 7], spare := some 8 }
    p.st = 7 ∧ 7 < 8 ∧ p.map[7]? = some 7 ∧ p.swap = none ∧ p.spare = some 8 ∧ ({ p with spare := none } : TPort).spare = none ∧
      ({ p with swap := some (7, 16) } : TPort).swap = some (7, 16) ∧ ({ p with swap := some (0, 16) } : TPort).swap ≠ some (7, 16) ∧
      7 < p.map.length ∧
      ({ p with st := 3, retraining := true } : TPort).retraining = true ∧ ({ p with st := 3, retraining := true } : TPort).st ≠ 7 := by
  decide +kernel

theorem witness_TrunkFlitsAreReliable :
    (let f := (msgFlits { TMsg.blank with typ := 2 } false).headD { vc := 0, first := true, last := true, bytes := 0, lost := false, payload := [] }
     let t := { TPort.reset with st := 7, txq := [(0, [f])], credits := [(0, 4)], txSeq := 1023 }
     smGet [] t.txq 0 = [f] ∧ canSend t 0 = true ∧ t.cvc < 8 ∧ f.vc < 8 ∧ f.bytes < 256 ∧ f.payload.length = 240 ∧
       ({ TPort.reset with rxSeq := 1023 } : TPort).rxSeq = t.txSeq ∧ t.txSeq < 1024) ∧
    (let p := { TPort.reset with st := 7, unacked := 14 }
     p.st ≥ 6 ∧ p.cvc < 8 ∧ p.unacked < 15 ∧ p.unacked > 0 ∧ ([] : List Byte).length ≠ 256 ∧ ¬ TPort.reset.st ≥ 6 ∧ p.replay = []) ∧
    (let e : ReplayEnt := { seq := 0, flit := { vc := 0, first := true, last := true, bytes := 0, lost := false, payload := [] } }
     let p := { TPort.reset with st := 7, replay := [e], replayed := true, fails := 7 }
     p.replay = e :: [] ∧ p.replayed = true ∧ p.fails ≥ 7 ∧ p.st = 7 ∧ ({ p with fails := 6 } : TPort).fails < 7 ∧
       (takeAck p 1023).replay = [e] ∧ ({ p with unacked := 15 } : TPort).unacked ≥ 15) := by decide +kernel

/-- A flit of zeros with its CRC passes the check and carries number 0. -/
theorem witness_TrunkFlitReceive :
    let m := List.replicate 248 (0#8 : Byte)
    let b := m ++ bytesBE 8 (crc64 m).toNat
    b.length = 256 ∧ (crc64 (b.take 248)).toNat = ofBytesBE (b.drop 248) ∧ ofBytesBE (b.take 8) / 2 ^ 37 % 2 = 0 ∧ ofBytesBE (b.take 8) / 2 ^ 63 % 2 = 0 ∧
      ofBytesBE (b.take 8) / 2 ^ 48 % 1024 = TPort.reset.rxSeq := by
  intro m b
  have hm : m.length = 248 := List.length_replicate
  have h1 : b.take 248 = m := by rw [← hm]; exact List.take_left
  have h2 : b.drop 248 = bytesBE 8 (crc64 m).toNat := by rw [← hm]; exact List.drop_left
  have h3 : b.take 8 = List.replicate 8 0#8 := by
    rw [List.take_append_of_le_length (by omega)]
    exact List.take_replicate
  refine ⟨by simp [b, hm], ?_, ?_⟩
  · rw [h1, h2, ofBytesBE_bytesBE]
    exact (Nat.mod_eq_of_lt (crc64 m).isLt).symm
  · rw [h3]
    decide

/-- A port with one message received. -/
def heard (m : TMsg) : TPort := { TPort.reset with st := 7, inbox := [m] }

/-- A partner's neighbour entry. -/
def partner : Neigh := parseNeigh (List.replicate 32 1#8)

theorem witness_NeighboursAndTime :
    (∀ x ∈ [(1, 0), (2, 0), (3, 0), (3, 1)], let m := { TMsg.blank with typ := x.1, kind := x.2 }
      let s := { trunkState (heard m) with box := { Box.reset with timeParent := some 11, timeReq := some 0 } }
      (getTrunk s 11).inbox = [m] ∧ (getTrunk s 11).st = 7 ∧ s.box.timeParent = some 11 ∧ s.box.timeReq = some m.id) ∧
    (getTrunk (trunkState { TPort.reset with st := 7, neigh := some partner }) 11).neigh = some partner ∧ TPort.reset.neigh = none ∧
    (∀ m ∈ (heard TMsg.blank).inbox, m.typ ≠ 1 ∧ m.typ ≠ 2 ∧ m.typ ≠ 3) ∧ Box.reset.timeParent = none ∧ readyState.jobs = [] ∧
    partner.moduleId ≠ (parseNeigh []).moduleId := by decide +kernel

/-! ### Jobs over several modules -/

/-- A member of a job of two modules behind port 11, and its leader. -/
def member : Job := { job1 [0] with modules := 2, rank := 1, jkey := 5, upPort := some 11 }
def leader : Job := { job1 [0] with modules := 2, rank := 0, jkey := 5, downPorts := [(1, 11)] }

/-- The module with that job, and a message received on port 11. -/
def memberState (j : Job) (m : TMsg) : State :=
  { pagedState [] [j] with trunks := [(11, heard { m with jkey := 5 })], cores := [(0, arrivedCore)] }

theorem witness_MembersRunAtOneDivider :
    (let m := { TMsg.blank with typ := 4, dstRank := 0xFE, arg := 16, id := 4000, jkey := 5 }
     let s := memberState member m
     (getTrunk s 11).inbox = [m] ∧ keyJobAt s 11 m.jkey = some member ∧ getJob s member.id = some member ∧ (s.jobs.map (·.id)).Nodup ∧ treeSize member > 1 ∧
       (∀ x ∈ s.jobs, treeRank x ≠ 0 ∨ treeSize x ≤ 1) ∧ divOk s.clock m.arg m.id = true) ∧
    (∀ k ∈ [1, 2, 3], let m := { TMsg.blank with typ := 4, kind := k, srcRank := 1, dstRank := 0, arg := 12, jkey := 5 }
     let s := memberState leader m
     (getTrunk s 11).inbox = [m] ∧ keyJobAt s 11 m.jkey = some leader ∧ getJob s leader.id = some leader ∧ treeRank leader = 0 ∧ m.dstRank = 0 ∧ treePorts leader = [11] ∧
       [(m.srcRank, m.arg)].foldl (fun m l => max m l.2) (wanted s) ≠ leader.freqDiv) := by decide +kernel

/-- A stop of the leader's and the member's that does not end the step. -/
def midStop : AtStop := { k := 3, ordinal := 1, final := false, exNext := 0, exBusy := false, outDone := true, released := false }

theorem witness_StopsSpanModules :
    (let j := { leader with atStop := some midStop }
     let m := { TMsg.blank with typ := 6, kind := 1, srcRank := 1, dstRank := 0, id := 3, jkey := 5 }
     let s := memberState j m
     keyJobAt s 11 m.jkey = some j ∧ getJob s j.id = some j ∧ m.dstRank = treeRank j ∧ jobRuns j = true ∧ (m.srcRank, m.id) ∉ j.arrived ∧ j.exch = [] ∧
       treeSize j = 2 ∧ treePorts j = [11] ∧ j.suspect = false ∧ arbsTaken s j = true ∧ (∀ k ∈ jobSites j, (getCore s k).stream.state = .arrived) ∧
       leader.atStop = none) ∧
    (let j := { member with atStop := some midStop }
     let m := { TMsg.blank with typ := 6, kind := 2, dstRank := 0xFE, id := 3, jkey := 5 }
     let s := memberState j m
     keyJobAt s 11 m.jkey = some j ∧ getJob s j.id = some j ∧ treeRank j ≠ 0 ∧ arbsTaken s j = true ∧ j.saves = [] ∧ j.halted = false) ∧
    (let m := { TMsg.blank with typ := 6, kind := 3, jkey := 5 }
     let s := memberState member m
     (getTrunk s 11).inbox = [m] ∧ keyJobAt s 11 m.jkey = some member ∧ member.saves = [] ∧ member.resuming = none ∧ member.retire = [] ∧ member.waits = []) := by
  decide +kernel

theorem witness_CommandsReachEveryMember :
    (∀ d ∈ [descOf [6 + 2 ^ 16, 0, 0, 0], descOf [7]], let m := { TMsg.blank with typ := 5, dstRank := 1, inl := d, jkey := 5 }
     let s := memberState member m
     (getTrunk s 11).inbox = [m] ∧ keyJobAt s 11 m.jkey = some member ∧ m.dstRank = treeRank member ∧ m.dstRank < 0xFE ∧ dfield m.inl 0 1 ≠ 1 ∧
       (ctlDescOk (m.inl.take 64) = true ↔ d = descOf [6 + 2 ^ 16, 0, 0, 0])) ∧
    (let mb := List.replicate 16 1#8 ++ Fuses.reset.moduleId ++ List.replicate 4 0#8 ++ bytesLE 2 2 ++ List.replicate 10 0#8
     let m := { TMsg.blank with typ := 5, dstRank := 1, inl := descOf [1 + 48 * 2 ^ 32], data := mb, jkey := 5 }
     dfield m.inl 0 1 = 1 ∧ dfield m.inl 1 1 % 2 = 0 ∧ dfield (descOf [1 + 2 ^ 8]) 1 1 % 2 = 1 ∧
       ((parseMulti (m.data.take 48)).map fun b => b.members.findIdx? (fun x => decide (x = readyState.fuses.moduleId))) = some (some m.dstRank) ∧
       ((parseMulti (List.replicate 16 0#8)).map fun b => b.members.findIdx? (fun x => decide (x = readyState.fuses.moduleId))) = some none) ∧
    (let m := { TMsg.blank with typ := 5, kind := 1, srcRank := 1, dstRank := 0, jkey := 5 }
     keyJobAt (memberState leader m) 11 m.jkey = some leader ∧ m.dstRank = treeRank leader) ∧
    (let m := { TMsg.blank with typ := 5, kind := 2, dstRank := 0xFE, id := 1, jkey := 5 }
     let s := memberState member m
     keyJobAt s 11 m.jkey = some member ∧ member.st ∈ [1, 5] ∧ stepOpen s member = true ∧ member.early = [] ∧
       stepOpen s { member with dispatched := true } = false) ∧
    (let w : MultiWait := { op := 5, cmd := hostCmd [], ranks := [1], fails := [], since := 0, result := 0, backstamp := [] }
     let j := { leader with waits := [w] }
     let m := { TMsg.blank with typ := 6, kind := 0, srcRank := 1, id := 77, jkey := 5 }
     let s := memberState j m
     getJob s j.id = some j ∧ waitingJob s m.jkey m.id = some j ∧ j.ended = false ∧ j.waits = [w] ∧ w.cmd.ticket = m.id ∧ w.op ≠ 1 ∧ w.cmd.origin ≥ 14 ∧
       w.ranks = [m.srcRank] ∧ ({ w with op := 1 } : MultiWait).op = 1) := by decide +kernel

/-- An exchange entry of stop 1 of bucket 0: 16 bytes of the page, from rank 0 to rank 1. -/
def push01 (op : Nat) : ExEnt := { op := op, mode := 0, buckets := 1, stop := 1, src := 0x1000, dst := 0x2000, bytes := 16, from_ := 0, to_ := 1 }

/-- A job at a stop with that entry under way here. -/
def exchanging (j : Job) (op : Nat) (busy : Bool) : Job :=
  { j with atStop := some { midStop with exBusy := busy }, exch := [push01 op], bucket := some 0, dispatched := true }

theorem witness_ExchangesMoveData :
    (∀ x ∈ [(7, 0, 1), (7, 1, 2), (9, 1, 3)],
      let m := { TMsg.blank with typ := x.1, kind := x.2.1, id := 0, addr := 0x2000, data := List.replicate 16 1#8, jkey := 5 }
      let j := exchanging member x.2.2 true
      let s := memberState j m
      (getTrunk s 11).inbox = [m] ∧ keyJobAt s 11 m.jkey = some j ∧ getJob s j.id = some j ∧ m.id < 2 ^ 32 ∧ jobRuns j = true ∧
        rangeOk s.hbm j.id true m.addr m.data.length = true ∧ j.exch[m.id]? = some (push01 x.2.2) ∧ treeRank j ≠ 0 ∧
        busyEntry j = some (0, push01 x.2.2) ∧ busyEntry (exchanging member x.2.2 false) = none ∧ j.collect = none ∧ (j.downPorts.map (·.2)).Nodup ∧
        (treePorts j).Nodup) ∧
    rangeOk onePage 1 true 0x400000 16 = false ∧ rangeOk onePage 1 false 0x3FFFF0 16 = true ∧
    (let j := { member with loading := true, awaitRows := [0], bucket := some 0 }
     let m := { TMsg.blank with typ := 7, kind := 1, id := rowsId 1, addr := 0, data := List.replicate 16 1#8, jkey := 5 }
     let s := memberState j m
     keyJobAt s 11 m.jkey = some j ∧ 2 ^ 32 ≤ m.id ∧ (treePorts j).Nodup ∧ jobRuns j = true ∧ rangeOk s.hbm j.id true m.addr 16 = true ∧
       m.id = rowsId (j.steps + 1) ∧ (j.awaitRows.filter fun r => !decide (r = m.arg)) = [] ∧ ([0, 1].filter fun r => !decide (r = m.arg)) ≠ [] ∧
       j.pkg.buckets[0]?.isSome = true ∧ arbsTaken s j = true ∧ mayDispatch s = true ∧
       (∀ k ∈ jobSites j, (getCore s k).stream.state = .idle ∨ (getCore s k).stream.state = .arrived) ∧
       m.id > rowsId member.steps ∧ member.loading = false ∧ jobRuns { member with st := 2 } = false) := by decide +kernel

theorem witness_ExchangeEntries :
    (∀ x ∈ [(leader, 1), (member, 1), (member, 3)],
      let j := exchanging x.1 x.2 false
      let s := memberState j TMsg.blank
      getJob s j.id = some j ∧ jobAdmitted j = true ∧ jobRuns j = true ∧ j.arrived = [] ∧ treeSize j > 1 ∧
        (stopEntries j midStop)[midStop.exNext]? = some (0, push01 x.2)) ∧
    portTo (exchanging leader 1 false) 1 = some 11 ∧ kidRanks member = [] ∧ member.upPort = some 11 ∧ treeRank member = (push01 1).to_ ∧
    (let j := { exchanging leader 3 true with collect := some { entry := 0, acc := [1#32, 2#32, 3#32, 4#32], craz := [], kids := [] } }
     let m := { TMsg.blank with typ := 9, kind := 0, srcRank := 1, addr := 0x2000, data := List.replicate 16 1#8, jkey := 5 }
     let s := memberState j m
     keyJobAt s 11 m.jkey = some j ∧ rangeOk s.hbm j.id true m.addr m.data.length = true ∧ busyEntry j = some (0, push01 3) ∧ treeRank j = 0 ∧
       treeSize j = 2 ∧ j.downPorts = [(1, 11)] ∧ j.arrived = []) := by decide +kernel

theorem witness_LockStep :
    let d := List.replicate 32 (7#8 : Byte)
    let q := { newPair 11 true with mine := [(4, 3, d)] }
    let j := { job1 [0] with jkey := 5, downPorts := [(1, 11)], pair := some q }
    let m := { TMsg.blank with typ := 10, kind := 0, id := 4, inl := d, jkey := 5 }
    let r := bytesLE 4 17 ++ List.replicate 16 0#8
    (let s := memberState j m
     (getTrunk s 11).inbox = [m] ∧ keyJobAt s 11 m.jkey = some j ∧ getJob s j.id = some j ∧ j.pair = some q ∧ m.data = [] ∧ q.mine = [(m.id, 3, d)] ∧
       q.theirs = [] ∧ j.atStop = none ∧ m.inl.take 32 = d ∧ m.inl.take 32 ≠ List.replicate 32 8#8 ∧ j.ended = false ∧ q.mine ≠ [] ∧ treePorts j = [q.port]) ∧
    (let q := { newPair 11 true with bad := some (4, 3), records := [(3, r)] }
     q.records.find? (fun r => decide (r.1 = 3)) = some (3, r) ∧ firstDiffer r (bytesLE 4 17 ++ List.replicate 16 1#8) = some 17) := by
  decide +kernel

/-! ### Recovery -/

/-- Job 1 with a recovery due for a cause that names no core. -/
def faulted : Job := { job1 [0] with cause := some Cause.plain }

theorem witness_JobsRecover :
    (let s := jobState [] [faulted]
     getJob s faulted.id = some faulted ∧ faulted.ended = false ∧ faulted.saves = [] ∧ resetNear s faulted false = false ∧ faulted.st ≠ 2 ∧ treeSize faulted ≤ 1 ∧
       Cause.plain.site = none ∧ faultEnds faulted Cause.plain.code Cause.plain.vcid Cause.plain.icount = none) ∧
    faultEnds { faulted with recoveries := 3 } 0 0 0 = some 3 ∧ faultEnds { faulted with lastSame := true, lastCode := 3 } 3 0 0 = some 8 ∧
    (let j := { job1 [0] with st := 2 }
     j.st = 2 ∧ j.haltOver = false ∧ j.cause = none ∧ j.suspect = false ∧ retirable (jobState [] [j]) { j with haltOver := true } = true ∧
       holdsState (jobState [] [j]) j = false ∧ j.devSave = none ∧ j.ckpt = none ∧
       holdsState (pagedState [] [j]) { j with pkg := { pkg1 with arenaVa := 0x400000 } } = true) ∧
    (let j := { job1 [0] with st := 2, haltOver := true }
     let s := unplaceJob j.id (jobState [] [j])
     (choosePlace (usable s) (heldPlaces s) j.pkg.vw j.pkg.vh j.oldPlace).isSome = true) := by decide +kernel

theorem witness_HangsResetPartitions :
    (let j := job1 [0]
     let c := { Core.reset with place := { Place.reset with placed := true, job := 1 } }
     let s := { jobState [] [j] with cores := [(0, c)] }
     siteOk 0 = true ∧ (getCore s 0).place.placed = true ∧ getJob s j.id = some j ∧ (getCore s 0).place.job = j.id ∧ smGet 0 s.box.beats 0 = 0 ∧
       mayRecover j = true ∧ s.box.replaying = none ∧ jobParts j = [0] ∧ 0 ∉ s.box.partsOut) ∧
    (let e : PartRst := { part := 7, begun := false, hang := false, only := none, jobs := [] }
     resetOf { readyState with box := { Box.reset with resets := [e] } } 7 = some e ∧ (getRail readyState.power 7).fieldOn = true) := by decide +kernel

theorem witness_SuspectsReplay :
    (let j := { job1 [0] with st := 5, suspect := true, dispatched := true }
     let s := jobState [] [j]
     nextSuspect s = some j ∧ getJob s j.id = some j ∧ j.ended = false ∧ ({ s.box with replaying := some 1 } : Box).replaying = some j.id ∧
       j.atStop = none ∧ j.cause = none ∧ ∀ x ∈ jobSites j, coreStop (getCore s x) = none) ∧
    (let j := { job1 [0] with st := 2, suspect := true, haltOver := true }
     let s := jobState [] [j]
     nextSuspect s = some j ∧ holdsState s j = false ∧
       (choosePlace (usable (unplaceJob j.id s)) (heldPlaces (unplaceJob j.id s)) j.pkg.vw j.pkg.vh j.oldPlace).isSome = true) := by decide +kernel

/-! ### Bring-up, resets, the mailbox -/

/-- The header of a Holco image of seven sections, 480 bytes long, all empty but RESIDENT, which has n bytes at 464. -/
def imageHeader (n : Nat) : List Byte :=
  bytesLE 4 0x484F4C43 ++ bytesLE 4 0x10000 ++ bytesLE 4 480 ++ bytesLE 4 0 ++ bytesLE 4 3 ++ bytesLE 4 7 ++ bytesLE 8 0 ++ List.replicate 16 5#8 ++
    List.replicate 208 6#8 ++ (List.range 7).flatMap fun i => bytesLE 4 (i + 1) ++ bytesLE 4 368 ++ bytesLE 4 (if i = 6 then n else 0) ++ bytesLE 4 0

/-- Flash with that header in copy A. -/
def imageFlash (n : Nat) : SMap Byte := (imageHeader n).zipIdx.map fun x => (x.2, x.1)

/-- The module at a step of bring-up. -/
def bootAt (phase : Nat) : State := { readyState with boot := { readyState.boot with phase := phase, glazed := decide (phase = 8), image := if phase ≥ 4 then some ImageVals.reset else none } }

theorem witness_BringUp :
    State.reset.boot.feedGood = false ∧ 10800 ≤ 10800 ∧ 10799 < 10800 ∧
    (brokenLinks [(0, 0), (0, 31)] = [0] ∧ brokenLinks [(0, 31), (1, 0)] = [] ∧ linkGroups [(0, 31)] 20479 = [] ∧
      edgeCut ((((imageVals (bootAt 4)).badRouters ++ groupRouters 0 0).filter siteOk).eraseDups) = true ∧
      meshRailsOk (startMeshRails { bootAt 4 with
        history := { History.reset with permanent := (List.range 5).map (unitPhase 7 true) } }) = false) ∧
    (let b := { readyState.boot with box2 := false, phase := 0 }
     b.feedGood = true ∧ b.box2 = false ∧ b.noBox = false ∧ b.phase ≠ 9) ∧
    ((bootAt 3).boot.phase = 3 ∧ (bootAt 3).boot.checkB = false ∧ imageResult [] true true Fuses.reset ≠ 1) ∧
    ((bootAt 4).boot.phase = 4 ∧ meshRailsOk (startMeshRails (bootAt 4)) = true ∧
      edgeCut ((((imageVals (bootAt 4)).badRouters ++ ([] : List Nat)).filter siteOk).eraseDups) = false) ∧
    (let b := { (bootAt 5).boot with wavesDone := 20, testsDone := 19 }
     b.phase = 5 ∧ b.testsDone < b.wavesDone) ∧ coreLive (bootAt 5) 0 = true ∧ siteY 0 % 20 = 0 ∧ (getPort (bootAt 5).mesh 0).bypass = false ∧
    (getPort (bootAt 5).mesh 2559).bypass = true ∧ (bootAt 5).boot.wavesDone ≤ (bootAt 5).boot.testsDone ∧
    ((bootAt 6).boot.phase = 6 ∧ (bootAt 6).box.partsOut = [] ∧ ∀ p, p < 8 → (getRail (bootAt 6).power p).fieldOn = true) ∧
    7 < 8 ∧ 15 / 2 = 7 / 2 + 4 ∧ ((bootAt 7).boot.phase = 7 ∧ (bootAt 7).boot.glazed = false ∧ ({ (bootAt 7).boot with glazed := true } : Boot).glazed = true ∧
      8 * (0 + 1) ≤ (residentBytes { bootAt 7 with flash := imageFlash 16 }).length) ∧
    (bootAt 8).boot.phase = 8 := by decide +kernel

/-- The packets of the signal box reach each partition, from its rows of either side. -/
theorem witness_BringUp_resident : UnitReaches (bootAt 7) (boxUnit (bootAt 7)) 7 ∧ UnitReaches (bootAt 7) (boxUnit (bootAt 7)) 0 :=
  ⟨unitReaches_of (by decide +kernel), unitReaches_of (by decide +kernel)⟩

theorem witness_ResetsAndPlaneLoss :
    let b := readyState.boot
    b.standby = true ∧ 9 < 10 ∧ ({ b with standby := false } : Boot).standby = false ∧ b.inReset = false ∧ (b.inReset = false ∨ b.held = false ∨ b.resets = 0) ∧
      (let r := { b with inReset := true, held := true, resets := 1 }
       r.inReset = true ∧ r.held = true ∧ r.resets > 0) := by decide +kernel

theorem witness_MailboxFlashAndJtag :
    answersSmbus readyState = true ∧ readyState.mail.busy = false ∧ ({ readyState.mail with busy := true } : Mailbox).busy = true ∧
    (descOf [0]).length ≠ 8 ∧ (bytesLE 8 0x20000304000).length = 8 ∧ mailReadable 0x20000304000 = true ∧ mailReadable 2 = false ∧ readyState.mail.len ≤ 32 ∧
    answersSmbus State.reset = false ∧ alertAsserted readyState = false ∧
    ([0x20000500030, 0x20000500038, 0x2000A000000, 0x2000B000010].all fun a => decide (a % 8 = 0) && decide ((bytesLE 8 a).length = 8)) = true ∧
    0x20000304002 % 4 ≠ 0 ∧ 0x2000B000018 / 8 * 8 ∉ [0x20000304000, 0x20000500030, 0x20000500038, 0x2000A000000, 0x2000B000010] ∧
    (0x20000304000 < 0x20000000000 → False) ∧ 0x2000B000020 ≥ 0x2000B000020 ∧ (bytesLE 4 0x10000000).length = 4 ∧
    (List.replicate 132 0#8).length = 132 ∧ flashOpen 0 = false ∧ alertAsserted { readyState with boot := { readyState.boot with phase := 9, cause := 1 } } = true ∧
    readyState.boot.smbAddr < 8 := by decide +kernel

theorem witness_FlashKeepsDumpsAndLogs :
    (let e := { ErrLog.reset with dumpsUnsaved := [[1#8]], unsaved := [(65536, [2#8])] }
     e.dumpsUnsaved = [[1#8]] ∧ e.unsaved = [(65536, [2#8])] ∧ [1#8].length ≤ 0x800000 ∧ [2#8].length ≤ 64) ∧ historyLoaded readyState.boot = true := by
  decide +kernel

theorem witness_ModesStayLegal : LegalModes State.reset ∧ LegalModes readyState ∧ ∃ t, exec (.nop 0) readyState = .next t := by
  refine ⟨?_, ?_, _, rfl⟩ <;> refine ⟨?_, ?_, ?_, ?_, ?_, ?_, ?_, ?_, ?_, fun h => absurd h (by decide +kernel)⟩ <;> decide +kernel

/-- Fuses accept the image in copy A. -/
theorem witness_ImageAccepted :
    let fu := { Fuses.reset with moduleId := List.replicate 16 5#8, keyHash := sha384 (List.replicate 97 6#8) }
    imageResult (flashBytes (imageFlash 0) 0 0x300) true true fu = 1 := by decide +kernel

/-! ### Test vectors of the digests (FIPS 180-4), and of the codes -/

theorem test_sha256_abc : sha256 [0x61#8, 0x62#8, 0x63#8] = bytesBE 32 0xba7816bf8f01cfea414140de5dae2223b00361a396177a9cb410ff61f20015ad := by
  decide +kernel

theorem test_sha384_abc : sha384 [0x61#8, 0x62#8, 0x63#8] =
    bytesBE 48 0xcb00753f45a35e8bb5a03d699ac65007272c32ab0eded1631a8b605a43ff5bed8086072ba1e7cc2358baeca134c825a7 := by
  decide +kernel

theorem test_word_code : secDecode (secEncode 0xDEADBEEF#32 false ^^^ 1#40) = { data := 0xDEADBEEF#32, crazed := false, ce := true, ue := false } ∧
    (secDecode (secEncode 0xDEADBEEF#32 true)).crazed = true := by decide +kernel

/-! ### Single steps, with results worked out from the rules -/

/-- The state after a command, or the state itself where it stops. -/
def after (i : Instr) (s : State) : State :=
  match exec i s with
  | .next t => t
  | _ => s

/-- R211: ADD is modulo 2^48; the destination is its own source. -/
theorem test_add_wraps :
    let c := setA (runningAt (plain (.addr .add 1#5 1#5 (.imm 1#24)))) 1 { AReg.zero with value := 0xFFFFFFFFFFFF#48 }
    (getA (getCore (after (.add 0) (withCore c)) 0) 1).value = 0#48 := by decide +kernel

/-- R211: SHR by 64 shifts by 64 modulo 64, that is by 0. -/
theorem test_shr_by_64 :
    let c := setA (runningAt (plain (.addr .shr 2#5 1#5 (.imm 64#24)))) 1 { AReg.zero with value := 5#48 }
    (getA (getCore (after (.shr 0) (withCore c)) 0) 2).value = 5#48 := by decide +kernel

/-- R212: SETHI keeps bits 31 to 0. -/
theorem test_sethi_keeps_low :
    let c := setA (runningAt (plain (.sethi 3#5 0xABCD#16))) 3 { AReg.zero with value := 0x111122223333#48 }
    (getA (getCore (after (.sethi 0) (withCore c)) 0) 3).value = 0xABCD22223333#48 := by decide +kernel

/-- R167: a loop of count 0 goes to END + 1 and opens nothing. -/
theorem test_loop_zero :
    let s := (getCore (after (.loop 0) (withCore (runningAt (plain (.loop 9#13 0#16))))) 0).stream
    s.pc = 10 ∧ s.loops = [] := by decide +kernel

/-- R223: 1 + 2 = 3 in every lane, and 1 * -0 is -0. -/
theorem test_vector_arithmetic :
    let q := fun f => entry (plain (.vec f 1 2 3 0 0 0 0 0 0)) 0 0
    let regs := fun (c : Core) (x y : W32) => setV (setV c 2 (rowOfWords (List.replicate 32 x) 0#128 0#36)) 3 (rowOfWords (List.replicate 32 y) 0#128 0#36)
    let run := fun (i : Instr) (f : VecFn) (x y : W32) => getV (getCore (after i (withCore (regs (queued (q f)) x y))) 0) 1
    rowWord (run (.vadd 0) .vadd 0x3F800000#32 0x40000000#32) 31 = 0x40400000#32 ∧
      rowWord (run (.vmul 0) .vmul 0x3F800000#32 0x80000000#32) 0 = 0x80000000#32 := by decide +kernel

/-- R175: one post makes an EMPTY slot of one producer FULL at the next update. -/
theorem test_slot_fills :
    let c := setSlot Core.reset 7 { Slot.reset with posts := 1 }
    let r := getSlot (getCore (after (.slotUpdate 0) (withCore c)) 0) 7
    r.full = true ∧ r.posted = 0 ∧ r.posts = 0 := by decide +kernel

/-- R393: FEED_A low at 10,499 mV goes to a FEED_B of 10,800 mV and not to one of 10,799 mV. -/
theorem test_feed_switch :
    (after (.feedALow 10499 10800) readyState).power.feeds.onB = true ∧ (after (.feedALow 10499 10799) readyState).power.feeds.onB = false ∧
      (after (.feedALow 10499 10799) readyState).power.feeds.blocked = 1 := by decide +kernel

/-- R616: WRITE of HOST_CAP takes effect and moves ADDR on; any other offset only sets REFUSED. -/
theorem test_mailbox_write :
    let s := fun (a : Nat) => { readyState with mail := { readyState.mail with addr := a } }
    (after (.mailboxWrite (bytesLE 4 500) true) (s 0x20000304000)).power.pm.hostCap = 500 ∧
      (after (.mailboxWrite (bytesLE 4 500) true) (s 0x20000000000)).mail.refused = true := by decide +kernel

/-- An empty queue: the time counter of a locked root takes one step (assumption 4). -/
theorem test_idle_tick : (∃ t, step readyState = .next t ∧ t.clock.time = 1) ∧ step State.reset = .next State.reset := ⟨⟨_, rfl, rfl⟩, rfl⟩

end Sys2Proof.Tests
end

section
/-!
PROOFS. Commands that name units (O2): a command whose unit check differs from the check of its meaning.
-/

namespace Sys2Proof.Machine

/-- Place 4,096 belongs to the channel controllers behind the router of site 0. Its lane 3 exists, and it is no core site. -/
theorem channelPlace_lane : laneExists (placeAt 0 64) 3 = true ∧ siteOk (placeAt 0 64) = false := by decide

/-- SEAM_RECENTRE at that lane answers a next state, whatever the state: its meaning asks for a lane of a place, not for a core site. -/
theorem seamRecentre_channelPlace (s : State) :
    exec (.seamRecentre 0 64 3) s = .next (atPlace (placeAt 0 64) (recentreSeam (placeAt 0 64) 3) s) := rfl

/-- Refutes O2: SEAM_RECENTRE of x 0, y 64, lane 3 fails `instrOk`, which wants a core site there, and is answered all the same, from the
reset state as from any other. -/
theorem not_wellFormedCommandsComplete : ¬ Obligations.WellFormedCommandsComplete := by
  intro h
  have hbad : instrOk (.seamRecentre 0 64 3) = false := by
    simp only [instrOk, channelPlace_lane.2, Bool.and_false, Bool.false_and]
  have hfault : exec (.seamRecentre 0 64 3) State.reset = .fault .noSuchUnit := (h _ _).2 hbad
  rw [seamRecentre_channelPlace] at hfault
  cases hfault

end Sys2Proof.Machine
end

section
/-!
PROOFS. Bring-up (O56): folds, stops and guards; feeds, signal box, step limits and the image.
-/

namespace Sys2Proof.Machine

/-! ### Folds and mapped stores -/

/-- What every step of a fold leaves as it is, the fold leaves as it is. -/
theorem foldl_keeps {σ β γ : Type} (p : σ → γ) (f : σ → β → σ) (h : ∀ s x, p (f s x) = p s) (l : List β) (s : σ) :
    p (l.foldl f s) = p s := by
  induction l generalizing s with
  | nil => rfl
  | cons x l ih => rw [List.foldl_cons, ih, h]

/-- A fold whose every step stays within a frame stays within it. The frame takes a state and what it became, and puts what may change
into the first. -/
theorem foldl_frame {σ β : Type} (frame : σ → σ → σ) (self : ∀ s, frame s s = s) (trans : ∀ s t u, frame (frame s t) u = frame s u)
    (f : σ → β → σ) (h : ∀ s x, f s x = frame s (f s x)) (l : List β) (s : σ) : l.foldl f s = frame s (l.foldl f s) := by
  induction l generalizing s with
  | nil => exact (self s).symm
  | cons x l ih =>
    calc l.foldl f (f s x) = frame (f s x) (l.foldl f (f s x)) := ih (f s x)
      _ = frame (frame s (f s x)) (l.foldl f (f s x)) := congrArg (frame · _) (h s x)
      _ = frame s (l.foldl f (f s x)) := trans ..

/-- A fold over different keys, each step of which changes what is read at its own key alone, by a rule that holds as long as the
steps keep a condition. -/
theorem foldl_reads {σ β : Type} (Inv : σ → Prop) (read : σ → Nat → β) (f : σ → Nat → σ) (g : Nat → β → β)
    (keep : ∀ s k, Inv s → Inv (f s k)) (other : ∀ s k j, j ≠ k → read (f s k) j = read s j) (l : List Nat) (hl : l.Nodup)
    (same : ∀ s, ∀ k ∈ l, Inv s → read (f s k) k = g k (read s k)) (s : σ) (hs : Inv s) (j : Nat) :
    read (l.foldl f s) j = if j ∈ l then g j (read s j) else read s j := by
  induction l generalizing s with
  | nil => simp
  | cons k l ih =>
    obtain ⟨hk, hl⟩ := List.nodup_cons.mp hl
    rw [List.foldl_cons, ih hl (fun s k hk => same s k (List.mem_cons_of_mem _ hk)) _ (keep s k hs)]
    by_cases hj : j = k
    · subst hj
      simp [hk, same s j List.mem_cons_self hs]
    · simp [hj, other s k j hj]

/-- A fold over keys of which one alone changes what is read, and that one to a fixed value. -/
theorem foldl_writes_at {σ β : Type} (Inv : σ → Prop) (read : σ → β) (f : σ → Nat → σ) (j : Nat) (v : β)
    (keep : ∀ s k, Inv s → Inv (f s k)) (other : ∀ s k, Inv s → k ≠ j → read (f s k) = read s)
    (same : ∀ s, Inv s → read (f s j) = v) (l : List Nat) (s : σ) (hs : Inv s) :
    read (l.foldl f s) = if j ∈ l then v else read s := by
  induction l generalizing s with
  | nil => simp
  | cons k l ih =>
    rw [List.foldl_cons, ih _ (keep s k hs)]
    by_cases hj : k = j
    · subst hj
      simp [same s hs]
    · simp [Ne.symm hj, other s k hs hj]

/-- A fold each step of which writes at its own key a value that the key alone decides. -/
theorem foldl_writes {σ β : Type} (Inv : σ → Prop) (read : σ → Nat → β) (f : σ → Nat → σ) (v : Nat → β)
    (keep : ∀ s k, Inv s → Inv (f s k)) (other : ∀ s k j, j ≠ k → read (f s k) j = read s j)
    (same : ∀ s k, Inv s → read (f s k) k = v k) (l : List Nat) (s : σ) (hs : Inv s) (j : Nat) :
    read (l.foldl f s) j = if j ∈ l then v j else read s j :=
  foldl_writes_at Inv (read · j) f j (v j) keep (fun s k _ h => other s k j (Ne.symm h)) (fun s h => same s j h) l s hs

/-- A property that f gives to every value, and that the unlisted value has, holds of every value of a mapped store. -/
theorem smGet_smMap_of {α : Type} [DecidableEq α] (P : α → Prop) (d : α) (f : Nat → α → α) (m : SMap α) (k : Nat) (hd : P d)
    (hf : ∀ j v, P (f j v)) : P (smGet d (smMap d f m) k) := by
  induction m with
  | nil => exact hd
  | cons a m ih =>
    simp only [smMap, List.map_cons, List.filter_cons] at ih ⊢
    split
    · simp only [smGet]
      split
      · exact hf _ _
      · exact ih
    · exact ih

/-- Reading a store after f at every key of a list of different keys. -/
theorem smGet_foldl_smMod {α : Type} [DecidableEq α] (d : α) (f : Nat → α → α) (l : List Nat) (hl : l.Nodup) (m : SMap α) (j : Nat) :
    smGet d (l.foldl (fun m k => smMod d m k (f k)) m) j = if j ∈ l then f j (smGet d m j) else smGet d m j :=
  foldl_reads (fun _ => True) (smGet d) _ f (fun _ _ _ => trivial) (fun m k _ h => smGet_smMod_other d m (f k) h) l hl
    (fun m k _ _ => smGet_smMod_same d m k (f k)) m trivial j

/-- Reading a store after writes at the keys of a list. -/
theorem smGet_foldl_smSet {α : Type} [DecidableEq α] (d : α) (v : Nat → α) (l : List Nat) (m : SMap α) (j : Nat) :
    smGet d (l.foldl (fun m k => smSet d m k (v k)) m) j = if j ∈ l then v j else smGet d m j :=
  foldl_writes (fun _ => True) (smGet d) _ v (fun _ _ _ => trivial) (fun m k _ h => smGet_smSet_other d m (v k) h)
    (fun m k _ => smGet_smSet_same d m k (v k)) l m trivial j

/-- Reading a table of the values at the keys of a list. -/
theorem smGet_map {α : Type} (d : α) (f : Nat → α) (l : List Nat) (j : Nat) :
    smGet d (l.map fun k => (k, f k)) j = if j ∈ l then f j else d := by
  induction l with
  | nil => rfl
  | cons k l ih =>
    rw [List.map_cons, smGet, ih]
    by_cases hj : k = j
    · simp [hj]
    · simp [hj, Ne.symm hj]

/-! ### Stops -/

/-- A step of bring-up ends: the module stops with a cause (R586). -/
def Stops (s : State) (i : Instr) (cause : Nat) : Prop :=
  ∃ t, exec i s = .next t ∧ t.boot.phase = 9 ∧ t.boot.cause = cause ∧ t.boot.lastPhase = s.boot.phase ∧ RailsOff t ∧
    (4 ≤ s.boot.phase → cause ≠ 6 → t.hosts = s.hosts) ∧ t.flash = s.flash ∧ t.fuses = s.fuses

/-- The loss of the rails leaves no work and no power (R375, R397, R402). -/
theorem allRailsOff_railsOff (s : State) : RailsOff (allRailsOff s) :=
  ⟨fun x => smGet_smMap_of (fun c : Core => c.stream.state = .idle ∧ c.place.placed = false ∧ c.slab.words = []) Core.reset
      (fun _ c => coreCounters c) s.cores x ⟨rfl, rfl, rfl⟩ fun _ _ => ⟨rfl, rfl, rfl⟩,
    rfl, rfl, rfl, rfl, rfl,
    fun k => smGet_smMap_of (fun c : ClusterPwr => c.state = 0) ClusterPwr.reset (fun _ c => { ClusterPwr.reset with
      sliceFails := c.sliceFails, shorts := c.shorts, sensorExcluded := c.sensorExcluded, sheds := c.sheds })
      s.power.clusters k rfl fun _ _ => rfl,
    fun f => smGet_smMap_of (fun r : Rail => r.fieldOn = false) Rail.reset (fun _ r => { Rail.reset with fails := r.fails })
      s.power.rails f rfl fun _ _ => rfl⟩

/-- A step that stops the module, from a state that differs from that of the command in nothing a stop shows. -/
theorem stops_of_bootStopAt {s u : State} {i : Instr} {cause : Nat} {links : List Nat} (h : exec i s = .next (bootStopAt cause links u))
    (hphase : u.boot.phase = s.boot.phase) (hhosts : cause ≠ 6 → u.hosts = s.hosts) (hflash : u.flash = s.flash)
    (hfuses : u.fuses = s.fuses) : Stops s i cause := by
  refine ⟨_, h, rfl, rfl, hphase, allRailsOff_railsOff u, fun h4 h6 => ?_, hflash, hfuses⟩
  simp only [bootStopAt, hphase, if_pos h4, hhosts h6]

/-- Without the links of a wire fault. -/
theorem stops_of_bootStop {s : State} {i : Instr} {cause : Nat} (h : exec i s = .next (bootStop cause s)) : Stops s i cause :=
  stops_of_bootStopAt (links := []) h rfl (fun _ => rfl) rfl rfl

/-! ### Guarded commands -/

/-- A command under a guard that holds. -/
theorem next_of_guard {i : Instr} {s t u : State} {c : Prop} [Decidable c] (h : exec i s = answer true (if c then t else u)) (hc : c) :
    exec i s = .next t := by rw [h, if_pos hc]; rfl

/-- A command under a guard that fails. -/
theorem next_of_not_guard {i : Instr} {s t u : State} {c : Prop} [Decidable c] (h : exec i s = answer true (if c then t else u))
    (hc : ¬c) : exec i s = .next u := by rw [h, if_neg hc]; rfl

/-! ### Feeds, signal box, step limits -/

/-- FEED_GOOD with a good feed starts the standby plane. -/
theorem feedGood_starts (s : State) (x y strap : Nat) (h : s.boot.feedGood = false) (hxy : 10800 ≤ x ∨ 10800 ≤ y) :
    exec (.feedGood x y strap) s = .next (startFeed x y strap s) :=
  next_of_guard rfl (by simp [h, hxy])

/-- FEED_GOOD once step 1 has run, or without a good feed, does nothing. -/
theorem feedGood_idle (s : State) (x y strap : Nat) (h : s.boot.feedGood = true ∨ x < 10800 ∧ y < 10800) :
    exec (.feedGood x y strap) s = .next s :=
  next_of_not_guard rfl (by rcases h with h | ⟨hx, hy⟩ <;> simp [*])

/-- Of two feeds, the plane runs on FEED_A unless that is below 10.8 V. -/
theorem startFeed_feeds (s : State) (x y strap : Nat) :
    (startFeed x y strap s).power.feeds = { readFeeds s.power.feeds x y with onB := decide (x < 10800) } := by
  have hA : (!decide (x ≥ 10800)) = decide (x < 10800) := by simp [← decide_not]
  simp only [startFeed, readFeeds, hA]

/-- SIGNAL_BOX_SELF_TEST in step 2 takes a box or none. -/
theorem signalBoxSelfTest_chooses (s : State) (okA okB : Bool) (hfeed : s.boot.feedGood = true) (hbox : s.boot.box2 = false)
    (hno : s.boot.noBox = false) (hphase : s.boot.phase ≠ 9) :
    exec (.signalBoxSelfTest okA okB) s = .next (chooseBox okA okB s) :=
  next_of_guard rfl (by simp [*])

/-- SIGNAL_BOX_SELF_TEST outside step 2 does nothing. -/
theorem signalBoxSelfTest_idle (s : State) (okA okB : Bool)
    (h : s.boot.feedGood = false ∨ s.boot.box2 = true ∨ s.boot.noBox = true ∨ s.boot.phase = 9) :
    exec (.signalBoxSelfTest okA okB) s = .next s :=
  next_of_not_guard rfl (by rcases h with h | h | h | h <;> simp [h])

/-- A box that passes its self-test leads on to step 3, or to RESET_HELD. -/
theorem chooseBox_takes (s : State) (okA okB : Bool) (h : (okA || okB) = true) (hno : s.boot.noBox = false) :
    let t := chooseBox okA okB s
    t.boot.box2 = true ∧ t.boot.boxB = !okA ∧ t.boot.noBox = false ∧
      t.boot.phase = (if s.tripped || s.clock.lost then 0 else if s.boot.inReset then 1 else 3) := by
  simp only [chooseBox, if_pos h, afterStep2, barred]
  split
  · exact ⟨rfl, rfl, hno, rfl⟩
  · split <;> exact ⟨rfl, rfl, hno, rfl⟩

/-- With no box that passes there is no box. -/
theorem chooseBox_none (s : State) (okA okB : Bool) (h : (okA || okB) = false) :
    chooseBox okA okB s = { s with boot := { s.boot with noBox := true } } := by
  rw [chooseBox, if_neg (by simp [h])]

/-- The choice of a box changes bring-up alone. -/
theorem chooseBox_frame (s : State) (okA okB : Bool) : chooseBox okA okB s = { s with boot := (chooseBox okA okB s).boot } := by
  unfold chooseBox; split <;> rfl

/-- BOOT_STEP_TIMEOUT in steps 3 to 7 stops the module. -/
theorem bootStepTimeout_stops (s : State) (h : 3 ≤ s.boot.phase ∧ s.boot.phase ≤ 7 ∨
    s.boot.phase = 0 ∧ s.boot.feedGood = true ∧ s.boot.box2 = false ∧ s.boot.noBox = false) : Stops s .bootStepTimeout 7 :=
  stops_of_bootStop (next_of_guard rfl (by rcases h with ⟨h3, h7⟩ | ⟨h0, hf, hb, hn⟩ <;> simp [*]))

/-- BOOT_STEP_TIMEOUT with no step under way does nothing. -/
theorem bootStepTimeout_idle (s : State) (h : s.boot.phase = 1 ∨ 8 ≤ s.boot.phase ∨
    s.boot.phase = 0 ∧ (s.boot.feedGood = false ∨ s.boot.box2 = true ∨ s.boot.noBox = true)) :
    exec .bootStepTimeout s = .next s := by
  refine next_of_not_guard rfl ?_
  rcases h with h | h | ⟨h, h' | h' | h'⟩
  · simp [h]
  · have : ¬ s.boot.phase = 0 ∧ ¬ s.boot.phase ≤ 7 := by omega
    simp [this]
  all_goals simp [h, h']

/-! ### The image -/

/-- IMAGE_CHECK of the copy in turn, in step 3. -/
theorem imageCheck_checks (s : State) (readOk sigOk : Bool) (v : ImageVals) (h : s.boot.phase = 3) :
    exec (.imageCheck s.boot.checkB readOk sigOk v) s = .next (checkImage s.boot.checkB readOk sigOk v s) :=
  next_of_guard rfl ⟨h, rfl⟩

/-- The header of the copy in turn. -/
abbrev turnHeader (s : State) : List Byte := flashBytes s.flash (if s.boot.checkB then 0x10000000 else 0) 0x300

/-- The trunk ports with the presence that the board drives (R594). -/
@[irreducible] def presentTrunks (s : State) : SMap TPort :=
  (List.range 12).foldl (fun m n => smMod TPort.reset m n fun t => { t with present := t.rawPresent }) s.trunks

theorem presentTrunks_reads (s : State) {n : Nat} (hn : n < 12) :
    smGet TPort.reset (presentTrunks s) n = { getTrunk s n with present := (getTrunk s n).rawPresent } := by
  unfold presentTrunks
  rw [smGet_foldl_smMod TPort.reset (fun _ t => { t with present := t.rawPresent }) _ List.nodup_range, if_pos (List.mem_range.mpr hn)]
  rfl

/-- Bring-up with the result of the copy in turn. -/
def copyResult (s : State) (r : Nat) : Boot :=
  if s.boot.checkB then { s.boot with bResult := r } else { s.boot with aResult := r }

/-- The module after it has accepted the copy in turn, of version ver. -/
def acceptCopy (s : State) (r ver : Nat) (v : ImageVals) : State :=
  { s with
    boot := { copyResult s r with
      phase := 4, copyB := s.boot.checkB, version := ver, image := some { v with version := ver } }
    trunks := presentTrunks s }

/-- What accepting a copy changes. -/
theorem acceptCopy_spec (s : State) (ver : Nat) (v : ImageVals) :
    let t := acceptCopy s 1 ver v
    t = { s with boot := t.boot, trunks := t.trunks } ∧
      (∀ n, n < 12 → getTrunk t n = { getTrunk s n with present := (getTrunk s n).rawPresent }) ∧ t.boot.phase = 4 ∧
      t.boot.copyB = s.boot.checkB ∧ t.boot.version = ver ∧ t.boot.image = some { v with version := ver } ∧
      (if s.boot.checkB then t.boot.bResult else t.boot.aResult) = 1 := by
  refine ⟨rfl, fun n hn => presentTrunks_reads s hn, rfl, rfl, rfl, rfl, ?_⟩
  cases hB : s.boot.checkB <;> simp [acceptCopy, copyResult, hB]

/-- The three ends of an image check: accepted, the last copy rejected, copy A rejected. -/
theorem checkImage_eq (s : State) (readOk sigOk : Bool) (v : ImageVals) :
    let h := turnHeader s
    let r := imageResult h readOk sigOk s.fuses
    checkImage s.boot.checkB readOk sigOk v s =
      if r = 1 then acceptCopy s r (fieldLE h 0x10 4) v
      else if s.boot.checkB then bootStop 1 { s with boot := copyResult s r }
      else { s with boot := { copyResult s r with checkB := true } } := by
  unfold acceptCopy presentTrunks
  rfl

/-- IMAGE_CHECK of an acceptable copy in turn. -/
theorem imageCheck_accepts (s : State) (readOk sigOk : Bool) (v : ImageVals) (hphase : s.boot.phase = 3)
    (h : imageResult (turnHeader s) readOk sigOk s.fuses = 1) :
    exec (.imageCheck s.boot.checkB readOk sigOk v) s = .next (acceptCopy s 1 (fieldLE (turnHeader s) 0x10 4) v) := by
  rw [imageCheck_checks s readOk sigOk v hphase, checkImage_eq, if_pos h, h]

/-- A rejected copy A leaves copy B to check. -/
theorem imageCheck_rejectsA (s : State) (readOk sigOk : Bool) (v : ImageVals) (hphase : s.boot.phase = 3)
    (h : imageResult (turnHeader s) readOk sigOk s.fuses ≠ 1) (hA : s.boot.checkB = false) :
    exec (.imageCheck s.boot.checkB readOk sigOk v) s =
      .next { s with boot := { s.boot with aResult := imageResult (turnHeader s) readOk sigOk s.fuses, checkB := true } } := by
  have hB : ¬s.boot.checkB = true := by simp [hA]
  rw [imageCheck_checks s readOk sigOk v hphase, checkImage_eq, if_neg h, if_neg hB, copyResult, if_neg hB]

/-- With both copies rejected the module stops. -/
theorem imageCheck_stops (s : State) (readOk sigOk : Bool) (v : ImageVals) (hphase : s.boot.phase = 3)
    (h : imageResult (turnHeader s) readOk sigOk s.fuses ≠ 1) (hB : s.boot.checkB = true) :
    Stops s (.imageCheck s.boot.checkB readOk sigOk v) 1 := by
  have hexec := imageCheck_checks s readOk sigOk v hphase
  rw [checkImage_eq, if_neg h, if_pos hB, copyResult, if_pos hB] at hexec
  exact stops_of_bootStopAt hexec rfl (fun _ => rfl) rfl rfl

end Sys2Proof.Machine
end

section
/-!
PROOFS. Bring-up (O56): HBM training and READY.
-/

namespace Sys2Proof.Machine

/-! ### Events and spares -/

theorem histEvents_history_cons (u : Nat) (us : List Nat) (s : State) :
    (histEvents (u :: us) s).history = (histEvents us (histEvent u s)).history := rfl

/-- One event against a unit leaves the history as R572 has it. -/
theorem histEvent_history (u : Nat) (s : State) : (histEvent u s).history = (addHistory s.history u).1 := by
  unfold histEvent
  simp only
  split
  · rw [logEvent_eq]
  · rfl

/-- The same entry of the error log, as often as a list is long. -/
theorem foldl_logEvent_eq {β : Type} (e : LogEvent) (l : List β) (s : State) :
    l.foldl (fun s _ => logEvent e s) s = { s with
      errlog := (l.foldl (fun s _ => logEvent e s) s).errlog, hosts := (l.foldl (fun s _ => logEvent e s) s).hosts
      out := (l.foldl (fun s _ => logEvent e s) s).out } :=
  foldl_frame (fun s t => { s with errlog := t.errlog, hosts := t.hosts, out := t.out }) (fun _ => rfl) (fun _ _ _ => rfl) _
    (fun s _ => logEvent_eq e s) l s

/-- Counting the spares changes SIGNAL.SPARES_f alone. -/
theorem updateSpares_eq (s : State) : updateSpares s = { s with box := { s.box with spares := (updateSpares s).box.spares } } := rfl

/-! ### HBM training -/

/-- Stack k after training, with the temperatures and the failed stacks reported (R583). -/
def trainStack (temps : List Nat) (failed : List (Nat × List Nat)) (k : Nat) (x : Stack) : Stack :=
  { x with
    state := if failed.any (fun f => decide (f.1 = k)) then 4 else 2
    trainTemp := temps.getD k 0 % 256, temp := temps.getD k 0 % 256 }

/-- The partitions after training. -/
def trainedStacks (temps : List Nat) (failed : List (Nat × List Nat)) (h : Hbm) : Hbm :=
  (List.range 16).foldl (fun h k => setStack h k (trainStack temps failed k (getStack h k))) h

/-- Training leaves each stack trained, or failed, with its temperature. -/
theorem getStack_trainedStacks (temps : List Nat) (failed : List (Nat × List Nat)) (h : Hbm) {k : Nat} (hk : k < 16) :
    getStack (trainedStacks temps failed h) k = trainStack temps failed k (getStack h k) :=
  (foldl_reads (fun _ => True) getStack (fun h k => setStack h k (trainStack temps failed k (getStack h k)))
    (trainStack temps failed) (fun _ _ _ => trivial) (fun _ _ _ hj => smGet_smSet_other _ _ _ hj) _ List.nodup_range
    (fun _ _ _ _ => smGet_smSet_same ..) h trivial k).trans (if_pos (List.mem_range.mpr hk))

/-- Training changes nothing of the partitions but the stacks. -/
theorem trainedStacks_frame (temps : List Nat) (failed : List (Nat × List Nat)) (h : Hbm) :
    trainedStacks temps failed h = { h with stks := (trainedStacks temps failed h).stks } :=
  foldl_frame (fun s t : Hbm => { s with stks := t.stks }) (fun _ => rfl) (fun _ _ _ => rfl)
    (fun h k => setStack h k (trainStack temps failed k (getStack h k))) (fun _ _ => rfl) _ h

/-- The partitions that training takes out. -/
def trainOut (failed : List (Nat × List Nat)) (s : State) : List Nat :=
  (List.range 8).filter fun p => trainFails failed s p && !s.box.partsOut.contains p

/-- Training before it is judged: stacks trained, failed partitions out, their channels in the fault history, the failures logged. -/
def trained (temps : List Nat) (failed : List (Nat × List Nat)) (s : State) : State :=
  (trainOut failed s).foldl (fun s _ => logEvent (LogEvent.of 6) s)
    (histEvents (failed.flatMap fun f => f.2.map fun c => unitChan (f.1 / 2 * 64 + 32 * (f.1 % 2) + c % 32))
      { s with hbm := trainedStacks temps failed s.hbm, box := { s.box with partsOut := s.box.partsOut ++ trainOut failed s } })

/-- What training changes. -/
theorem trained_eq (temps : List Nat) (failed : List (Nat × List Nat)) (s : State) :
    let t := trained temps failed s
    t = { s with
      hbm := trainedStacks temps failed s.hbm, box := { s.box with partsOut := s.box.partsOut ++ trainOut failed s }
      history := t.history, errlog := t.errlog, hosts := t.hosts, out := t.out } := by
  simp only [trained]
  rw [foldl_logEvent_eq, histEvents_eq]

/-- Are both partitions of a pair out? -/
def pairLost (s : State) : Bool := (List.range 4).any fun p => s.box.partsOut.contains p && s.box.partsOut.contains (p + 4)

/-- Training goes on to step 7, or stops the module where both partitions of a pair are out. -/
theorem trainHbm_eq (temps : List Nat) (failed : List (Nat × List Nat)) (s : State) :
    trainHbm temps failed s =
      if pairLost (trained temps failed s) then bootStop 6 (trained temps failed s)
      else updateSpares { trained temps failed s with boot := { (trained temps failed s).boot with phase := 7 } } := rfl

theorem hbmTraining_trains (s : State) (temps : List Nat) (failed : List (Nat × List Nat)) (h : s.boot.phase = 6) :
    exec (.hbmTraining temps failed) s = .next (trainHbm temps failed s) := next_of_guard rfl h

section
variable {s : State} (hout : s.box.partsOut = []) (hfield : ∀ p, p < 8 → (getRail s.power p).fieldOn = true)
include hout hfield

/-- With every rail up and no partition out yet, just the partitions of the failed stacks go out. -/
theorem mem_trainOut (failed : List (Nat × List Nat)) (p : Nat) :
    p ∈ trainOut failed s ↔ p < 8 ∧ ∃ f ∈ failed, f.1 / 2 = p := by
  simp only [trainOut, trainFails, List.mem_filter, List.mem_range, hout, List.contains_nil, Bool.not_false, Bool.and_true]
  refine and_congr_right fun hp => ?_
  simp [hfield p hp]

omit hfield in
/-- The partitions out after training. -/
theorem partsOut_trained (temps : List Nat) (failed : List (Nat × List Nat)) :
    (trained temps failed s).box.partsOut = trainOut failed s := by
  rw [trained_eq]; simp [hout]

/-- A pair is lost just when a failed stack lies in each of its partitions. -/
theorem pairLost_trained (temps : List Nat) (failed : List (Nat × List Nat)) :
    pairLost (trained temps failed s) = true ↔
      ∃ p, p < 4 ∧ (∃ f ∈ failed, f.1 / 2 = p) ∧ ∃ f ∈ failed, f.1 / 2 = p + 4 := by
  simp only [pairLost, partsOut_trained hout, List.any_eq_true, List.mem_range, Bool.and_eq_true, List.contains_iff_mem,
    mem_trainOut hout hfield]
  constructor
  · rintro ⟨p, hp, ⟨-, ha⟩, -, hb⟩
    exact ⟨p, hp, ha, hb⟩
  · rintro ⟨p, hp, ha, hb⟩
    exact ⟨p, hp, ⟨by omega, ha⟩, by omega, hb⟩

/-- Training with no failed stack leads on to step 7 with every stack in service. -/
theorem hbmTraining_all (hphase : s.boot.phase = 6) (temps : List Nat) :
    ∃ t, exec (.hbmTraining temps []) s = .next t ∧
      t = { s with
        boot := { s.boot with phase := 7 }, hbm := { s.hbm with stks := t.hbm.stks }
        box := { s.box with spares := t.box.spares } } ∧
      ∀ k, k < 16 → getStack t.hbm k =
        { getStack s.hbm k with state := 2, trainTemp := temps.getD k 0 % 256, temp := temps.getD k 0 % 256 } := by
  have hlost : ¬pairLost (trained temps [] s) = true := by
    rw [pairLost_trained hout hfield]; simp
  have hnone : trainOut [] s = [] := by
    rw [List.eq_nil_iff_forall_not_mem]; intro p; rw [mem_trainOut hout hfield]; simp
  have htrained : trained temps [] s = { s with hbm := trainedStacks temps [] s.hbm } := by
    simp only [trained, hnone, List.append_nil]; rfl
  refine ⟨_, hbmTraining_trains s temps [] hphase, ?_, fun k hk => ?_⟩
  · rw [trainHbm_eq, if_neg hlost, htrained, updateSpares_eq]
    rw [trainedStacks_frame]
  · rw [trainHbm_eq, if_neg hlost, htrained]
    exact getStack_trainedStacks temps [] s.hbm hk

/-- Training with one failed stack holds its partition out and leads on to step 7. -/
theorem hbmTraining_one (hphase : s.boot.phase = 6) (temps l : List Nat) {k : Nat} (hk : k < 16) :
    ∃ t, exec (.hbmTraining temps [(k, l)]) s = .next t ∧ t.boot.phase = 7 ∧ t.box.partsOut = [k / 2] ∧
      (getStack t.hbm k).state = 4 := by
  have hlost : ¬pairLost (trained temps [(k, l)] s) = true := by
    rw [pairLost_trained hout hfield]; simp
  have hone : trainOut [(k, l)] s = [k / 2] := by
    have hmem : ∀ p, p ∈ trainOut [(k, l)] s ↔ p = k / 2 := fun p => by
      rw [mem_trainOut hout hfield]; simp; omega
    have hnd : (trainOut [(k, l)] s).Nodup := List.nodup_range.filter _
    exact (List.perm_singleton.mp ((List.perm_ext_iff_of_nodup hnd (List.nodup_singleton _)).mpr (by simpa using hmem)))
  refine ⟨_, hbmTraining_trains s temps _ hphase, ?_, ?_, ?_⟩ <;> rw [trainHbm_eq, if_neg hlost]
  · rfl
  · exact (partsOut_trained hout temps _).trans hone
  · rw [trained_eq]
    exact (congrArg Stack.state (getStack_trainedStacks temps [(k, l)] s.hbm hk)).trans (by simp [trainStack])

/-- Training that fails in both partitions of a pair stops the module. -/
theorem hbmTraining_stops (hphase : s.boot.phase = 6) (temps l l' : List Nat) {k k' : Nat} (hk : k < 8) (hk' : k' / 2 = k / 2 + 4) :
    Stops s (.hbmTraining temps [(k, l), (k', l')]) 6 := by
  have hlost : pairLost (trained temps [(k, l), (k', l')] s) = true := by
    rw [pairLost_trained hout hfield]
    exact ⟨k / 2, by omega, ⟨_, List.mem_cons_self, rfl⟩, _, List.mem_cons_of_mem _ List.mem_cons_self, hk'⟩
  have hexec := hbmTraining_trains s temps [(k, l), (k', l')] hphase
  rw [trainHbm_eq, if_pos hlost] at hexec
  have ht := trained_eq temps [(k, l), (k', l')] s
  exact stops_of_bootStopAt hexec (by rw [ht]) (fun h => absurd rfl h) (by rw [ht]) (by rw [ht])

end

/-! ### READY -/

/-- READY follows glaze firing. -/
theorem ready_becomes (s : State) (ms : Nat) (hphase : s.boot.phase = 7) (hglazed : s.boot.glazed = true) :
    exec (.ready ms) s = .next (becomeReady ms s) := next_of_guard rfl ⟨hphase, hglazed⟩

end Sys2Proof.Machine
end

section
/-!
PROOFS. Bring-up (O56): router ports and a wave of core self-tests.
-/

namespace Sys2Proof.Machine

/-! ### Router ports -/

/-- What a port closing does to the flits that wait is nothing to the routers. -/
theorem stopFeeds_ports (site : Nat) (m : Mesh) : (stopFeeds site m).ports = m.ports :=
  foldl_keeps Mesh.ports (fun m v => setFeed m (vcKey site 6 v) (closeFeed (getFeed m (vcKey site 6 v)))) (fun _ _ => rfl) _ m

/-- A port closing changes the mesh alone. -/
theorem closePort_eq (reason site : Nat) (s : State) : closePort reason site s = { s with mesh := (closePort reason site s).mesh } := by
  unfold closePort; split <;> rfl

/-- A router with its port to the core closed. -/
def closedPort (reason : Nat) (p : RouterPort) : RouterPort :=
  { p with closed := true, reason := if p.bypass then p.reason else reason }

/-- Closing a port closes it, closed before or not. -/
theorem closePort_ports (reason site : Nat) (s : State) :
    (closePort reason site s).mesh.ports = smMod RouterPort.reset s.mesh.ports site (closedPort reason) := by
  unfold closePort
  split
  · rename_i h
    have hp : closedPort reason (getPort s.mesh site) =
        { getPort s.mesh site with reason := if (getPort s.mesh site).bypass then (getPort s.mesh site).reason else reason } := by
      rw [closedPort, ← h]
    exact congrArg (smSet RouterPort.reset s.mesh.ports site) hp.symm
  · exact stopFeeds_ports ..

theorem getPort_closePort_same (reason site : Nat) (s : State) :
    getPort (closePort reason site s).mesh site = closedPort reason (getPort s.mesh site) := by
  rw [getPort, closePort_ports, smGet_smMod_same, getPort]

theorem getPort_closePort_other (reason site : Nat) (s : State) {j : Nat} (h : j ≠ site) :
    getPort (closePort reason site s).mesh j = getPort s.mesh j := by
  rw [getPort, closePort_ports, smGet_smMod_other _ _ _ h, getPort]

theorem getPort_openPort_same (site : Nat) (s : State) :
    getPort (openPort site s).mesh site = { getPort s.mesh site with closed := false, reason := 0 } :=
  smGet_smMod_same _ s.mesh.ports site fun p => { p with closed := false, reason := 0 }

theorem getPort_openPort_other (site : Nat) (s : State) {j : Nat} (h : j ≠ site) :
    getPort (openPort site s).mesh j = getPort s.mesh j :=
  smGet_smMod_other _ s.mesh.ports (fun p => { p with closed := false, reason := 0 }) h

/-- The router at the column and the row of a site is that of the site. -/
theorem bypassed_site (m : Mesh) {x : Nat} (hx : x < 2560) : bypassed m (siteX x) (siteY x) = (getPort m x).bypass := by
  have : siteY x * 64 + siteX x = x := by simp only [siteX, siteY]; omega
  rw [bypassed, this]

/-! ### The ports of a wave -/

/-- Is a site kept out by the kiln map or by a permanent unit? -/
def keptOut (s : State) (x : Nat) : Bool := s.box.kiln.contains x || permanentSite s x

/-- The router of a site whose core has had its self-test (R328, R582). -/
def passPort (s : State) (x : Nat) (p : RouterPort) : RouterPort :=
  if !coreLive s x || p.bypass then p
  else if keptOut s x then closedPort 1 p
  else { p with closed := false, reason := 0 }

/-- The end of a core's tests changes the mesh alone. -/
theorem passCore_eq (s : State) (x : Nat) : passCore s x = { s with mesh := (passCore s x).mesh } := by
  unfold passCore
  split
  · rfl
  · split
    · exact closePort_eq ..
    · rfl

theorem getPort_passCore_same (s : State) {x : Nat} (hx : x < 2560) :
    getPort (passCore s x).mesh x = passPort s x (getPort s.mesh x) := by
  unfold passCore passPort
  rw [bypassed_site s.mesh hx]
  split
  · rfl
  · split
    · rename_i h
      rw [keptOut, if_pos h, getPort_closePort_same]
    · rename_i h
      rw [keptOut, if_neg h, getPort_openPort_same]

theorem getPort_passCore_other (s : State) (x j : Nat) (h : j ≠ x) : getPort (passCore s x).mesh j = getPort s.mesh j := by
  unfold passCore
  split
  · rfl
  · split
    · exact getPort_closePort_other _ _ _ h
    · exact getPort_openPort_other _ _ h

/-- The module once the cores of a list of sites have had their tests. -/
@[irreducible] def passSites (l : List Nat) (s : State) : State := l.foldl passCore s

theorem foldl_passCore (l : List Nat) (s : State) : l.foldl passCore s = passSites l s := by unfold passSites; rfl

/-- The end of the tests changes the mesh alone. -/
theorem passSites_eq (l : List Nat) (s : State) : passSites l s = { s with mesh := (passSites l s).mesh } := by
  rw [← foldl_passCore]
  exact foldl_frame (fun s t : State => { s with mesh := t.mesh }) (fun _ => rfl) (fun _ _ _ => rfl) passCore passCore_eq l s

/-- The ports of the sites open or stay closed; the others are as they were. -/
theorem getPort_passSites (l : List Nat) (hl : l.Nodup) (hsite : ∀ k ∈ l, k < 2560) (s : State) (x : Nat) :
    getPort (passSites l s).mesh x = if x ∈ l then passPort s x (getPort s.mesh x) else getPort s.mesh x := by
  rw [← foldl_passCore]
  exact foldl_reads (fun t => t = { s with mesh := t.mesh }) (fun t => getPort t.mesh) passCore (passPort s)
    (fun t k h => by rw [passCore_eq, h]) getPort_passCore_other l hl
    (fun t k hk ht => by
      rw [getPort_passCore_same t (hsite k hk)]
      rw [ht]; rfl)
    s rfl x

theorem mem_waveSites (r x : Nat) : x ∈ waveSites r ↔ x < 2560 ∧ siteY x % 20 = r := by
  simp only [waveSites, List.mem_filter, List.mem_range, decide_eq_true_eq]

theorem nodup_waveSites (r : Nat) : (waveSites r).Nodup := by
  unfold waveSites
  exact List.nodup_range.filter _

/-- A bypassed router, and one whose core is dark, is not touched. -/
theorem passPort_skips {s : State} {x : Nat} {p : RouterPort} (h : coreLive s x = false ∨ p.bypass = true) : passPort s x p = p :=
  if_pos (by rcases h with h | h <;> simp [h])

/-- The port of a live core behind a router that is not bypassed stays closed just where the site is kept out. -/
theorem passPort_closed {s : State} {x : Nat} {p : RouterPort} (hlive : coreLive s x = true) (hbyp : p.bypass = false) :
    (passPort s x p).closed = true ↔ x ∈ s.box.kiln ∨ permanentSite s x = true := by
  have hskip : ¬(!coreLive s x || p.bypass) = true := by simp [hlive, hbyp]
  have hout : keptOut s x = true ↔ x ∈ s.box.kiln ∨ permanentSite s x = true := by simp [keptOut]
  rw [passPort, if_neg hskip, ← hout]
  split <;> simp_all [closedPort]

/-- A closed port of a site that is kept out stays closed. -/
theorem passPort_stays_closed {s : State} {x : Nat} {p : RouterPort} (hout : keptOut s x = true) (hp : p.closed = true) :
    (passPort s x p).closed = true := by
  rw [passPort, if_pos hout]
  split
  · exact hp
  · rfl

/-! ### Core self-tests -/

/-- The cores of the wave that fail their tests. -/
def failedOfWave (failed : List CoreTest) (s : State) : List CoreTest :=
  (failed.filter fun t => decide (siteY t.site % 20 = s.boot.testsDone) && siteOk t.site && coreLive s t.site).eraseDups

/-- Bring-up once wave r has been tested, with n of its cores fenced. -/
def waveTested (r n : Nat) (b : Boot) : Boot :=
  { b with testsDone := r + 1, fenced := min 0xFFF (b.fenced + n), phase := if r = 19 then 6 else 5 }

/-- The module once the cores that fail are out: the ports of wave r are settled and the wave is counted. -/
def afterWave (r n : Nat) (s : State) : State :=
  updateSpares { s with mesh := (passSites (waveSites r) s).mesh, boot := waveTested r n s.boot }

theorem afterWave_eq (r n : Nat) (s : State) : afterWave r n s = { s with
    mesh := (passSites (waveSites r) s).mesh, boot := waveTested r n s.boot
    box := { s.box with spares := (afterWave r n s).box.spares } } := by
  rw [afterWave, updateSpares_eq]

/-- The ports of the wave after its tests. -/
theorem getPort_afterWave (r n : Nat) (s : State) {x : Nat} (hx : x < 2560) :
    getPort (afterWave r n s).mesh x = if siteY x % 20 = r then passPort s x (getPort s.mesh x) else getPort s.mesh x := by
  have hmem : x ∈ waveSites r ↔ siteY x % 20 = r := by rw [mem_waveSites, and_iff_right hx]
  rw [afterWave_eq]
  simp only [← hmem]
  exact getPort_passSites (waveSites r) (nodup_waveSites r) (fun k hk => ((mem_waveSites r k).mp hk).1) s x

/-- The tests of a wave: failed cores out, then the rest of the wave. -/
theorem selfTests_eq (failed : List CoreTest) (s : State) :
    selfTests failed s = afterWave s.boot.testsDone ((failedOfWave failed s).map (·.site)).eraseDups.length
      ((failedOfWave failed s).foldl failCore s) := by
  unfold selfTests failedOfWave
  simp only [foldl_passCore]
  rw [passSites_eq, afterWave]
  rfl

theorem coreSelfTest_tests (s : State) (failed : List CoreTest) (hphase : s.boot.phase = 5) (hwave : s.boot.testsDone < s.boot.wavesDone) :
    exec (.coreSelfTest failed) s = .next (selfTests failed s) := next_of_guard rfl ⟨hphase, hwave⟩

theorem coreSelfTest_idle (s : State) (failed : List CoreTest) (h : s.boot.phase ≠ 5 ∨ s.boot.wavesDone ≤ s.boot.testsDone) :
    exec (.coreSelfTest failed) s = .next s := next_of_not_guard rfl (by omega)

/-- A wave with no failed core opens the ports of its sites that nothing keeps out. -/
theorem coreSelfTest_passes (s : State) (hphase : s.boot.phase = 5) (hwave : s.boot.testsDone < s.boot.wavesDone) :
    ∃ t, exec (.coreSelfTest []) s = .next t ∧
      t = { s with boot := t.boot, mesh := t.mesh, box := { s.box with spares := t.box.spares } } ∧
      t.boot = { s.boot with
        testsDone := s.boot.testsDone + 1, fenced := min 0xFFF s.boot.fenced, phase := if s.boot.testsDone = 19 then 6 else 5 } ∧
      ∀ x, x < 2560 →
        (siteY x % 20 = s.boot.testsDone → coreLive s x = true → (getPort s.mesh x).bypass = false →
          ((getPort t.mesh x).closed = true ↔ x ∈ s.box.kiln ∨ permanentSite s x = true)) ∧
        (siteY x % 20 ≠ s.boot.testsDone ∨ coreLive s x = false ∨ (getPort s.mesh x).bypass = true →
          getPort t.mesh x = getPort s.mesh x) := by
  have hexec := coreSelfTest_tests s [] hphase hwave
  rw [selfTests_eq] at hexec
  refine ⟨afterWave s.boot.testsDone 0 s, hexec, ?_, ?_, fun x hx => ⟨fun hy hlive hbyp => ?_, fun h => ?_⟩⟩
  · rw [afterWave_eq]
  · rw [afterWave_eq]; rfl
  · rw [getPort_afterWave _ 0 s hx, if_pos hy, passPort_closed hlive hbyp]
  · rw [getPort_afterWave _ 0 s hx]
    split
    · rename_i hy
      exact passPort_skips (h.resolve_left (not_not.mpr hy))
    · rfl

end Sys2Proof.Machine
end

section
/-!
PROOFS. Bring-up (O56): a core that fails its self-test.
-/

namespace Sys2Proof.Machine

/-! ### A core that fails its self-test -/

/-- Events against units leave the history as R572 has it, event by event. -/
theorem histEvents_history (us : List Nat) (s : State) :
    (histEvents us s).history = us.foldl (fun h u => (addHistory h u).1) s.history := by
  induction us generalizing s with
  | nil => rfl
  | cons u us ih => rw [histEvents_history_cons, ih, histEvent_history, List.foldl_cons]

/-- The kiln map with a site of a failed core. -/
def kilnWith (x : Nat) (kiln : List Nat) : List Nat := if kiln.contains x then kiln else kiln ++ [x]

theorem mem_kilnWith (x y : Nat) (kiln : List Nat) : y ∈ kilnWith x kiln ↔ y = x ∨ y ∈ kiln := by
  unfold kilnWith
  split
  · rename_i h
    have : x ∈ kiln := List.contains_iff_mem.mp h
    constructor
    · exact Or.inr
    · rintro (rfl | h') <;> assumption
  · simp [or_comm]

/-- The units that a failed test names (R582). -/
def testUnits (t : CoreTest) : List Nat := t.banks.map (unitBank t.site) ++ (if t.witness then [unitCore t.site] else [])

@[simp] theorem histEvents_boot (us : List Nat) (s : State) : (histEvents us s).boot = s.boot := by rw [histEvents_eq]
@[simp] theorem histEvents_box (us : List Nat) (s : State) : (histEvents us s).box = s.box := by rw [histEvents_eq]
@[simp] theorem histEvents_mesh (us : List Nat) (s : State) : (histEvents us s).mesh = s.mesh := by rw [histEvents_eq]
@[simp] theorem updateSpares_kiln (s : State) : (updateSpares s).box.kiln = s.box.kiln := rfl

/-- A failed test by its parts: the site in the kiln map, the core fenced behind a closed port, then the events of its units. -/
theorem failCore_eq (s : State) (t : CoreTest) :
    failCore s t = histEvents (testUnits t) (updateSpares (settleSensors (closePort 1 t.site
      (putCore t.site { getCore s t.site with fenced := true }
        { s with box := { s.box with kiln := kilnWith t.site s.box.kiln } })))) := rfl

theorem failCore_boot (s : State) (t : CoreTest) : (failCore s t).boot = s.boot := by simp [failCore_eq]

theorem failCore_kiln (s : State) (t : CoreTest) : (failCore s t).box.kiln = kilnWith t.site s.box.kiln := by simp [failCore_eq]

theorem failCore_cores (s : State) (t : CoreTest) :
    (failCore s t).cores = (putCore t.site { getCore s t.site with fenced := true } s).cores := by
  simp [failCore_eq, histEvents_cores, putCore]

theorem failCore_history (s : State) (t : CoreTest) :
    (failCore s t).history = (testUnits t).foldl (fun h u => (addHistory h u).1) s.history := by
  simp [failCore_eq, histEvents_history]

theorem failCore_closes (s : State) (t : CoreTest) : (getPort (failCore s t).mesh t.site).closed = true := by
  simp only [failCore_eq, histEvents_mesh, updateSpares_mesh, settleSensors_mesh, getPort_closePort_same]
  rfl

/-- A core that fails its self-test is fenced behind its closed port, in the kiln map and in the fault history; no other core is. -/
theorem coreSelfTest_fails (s : State) (hphase : s.boot.phase = 5) (hwave : s.boot.testsDone < s.boot.wavesDone) (x : CoreTest)
    (hx : x.site < 2560) (hy : siteY x.site % 20 = s.boot.testsDone) (hlive : coreLive s x.site = true) :
    ∃ t, exec (.coreSelfTest [x]) s = .next t ∧ (getCore t x.site).fenced = true ∧ (getPort t.mesh x.site).closed = true ∧
      x.site ∈ t.box.kiln ∧ t.boot.fenced = min 0xFFF (s.boot.fenced + 1) ∧
      (x.witness = true → x.banks = [] → t.history = (addHistory s.history (unitCore x.site)).1) ∧
      (∀ k, x.witness = false → x.banks = [k] → t.history = (addHistory s.history (unitBank x.site k)).1) ∧
      ∀ y, y < 2560 → y ≠ x.site → (getCore t y).fenced = (getCore s y).fenced ∧ (y ∈ t.box.kiln ↔ y ∈ s.box.kiln) := by
  have hok : siteOk x.site = true := decide_eq_true hx
  have hbad : failedOfWave [x] s = [x] := by
    simp only [failedOfWave, List.filter_cons, List.filter_nil, hy, hok, hlive, decide_true, Bool.and_true, if_true]
    rfl
  have hexec := coreSelfTest_tests s [x] hphase hwave
  rw [selfTests_eq, hbad] at hexec
  have hcores : (afterWave s.boot.testsDone 1 (failCore s x)).cores = (failCore s x).cores := by rw [afterWave_eq]
  have hkiln : (afterWave s.boot.testsDone 1 (failCore s x)).box.kiln = kilnWith x.site s.box.kiln := by
    rw [afterWave_eq, ← failCore_kiln]
  have hhist : (afterWave s.boot.testsDone 1 (failCore s x)).history = (testUnits x).foldl (fun h u => (addHistory h u).1) s.history := by
    rw [afterWave_eq, ← failCore_history]
  have hfenced : ∀ y, getCore (afterWave s.boot.testsDone 1 (failCore s x)) y =
      getCore (putCore x.site { getCore s x.site with fenced := true } s) y := fun y => by
    unfold getCore
    rw [hcores, failCore_cores]
    rfl
  refine ⟨afterWave s.boot.testsDone 1 (failCore s x), hexec, ?_, ?_, ?_, ?_, fun hw hb => ?_, fun k hw hb => ?_, fun y _ hne => ⟨?_, ?_⟩⟩
  · rw [hfenced, getCore_putCore_same]
  · rw [getPort_afterWave _ 1 _ hx, if_pos hy]
    refine passPort_stays_closed ?_ (failCore_closes s x)
    rw [keptOut, failCore_kiln, List.contains_iff_mem.mpr ((mem_kilnWith ..).mpr (Or.inl rfl)), Bool.true_or]
  · rw [hkiln, mem_kilnWith]; exact Or.inl rfl
  · rw [afterWave_eq, failCore_boot]; rfl
  · rw [hhist, testUnits, hw, hb]; rfl
  · rw [hhist, testUnits, hw, hb]; rfl
  · rw [hfenced, getCore_putCore_other _ _ hne]
  · rw [hkiln, mem_kilnWith, or_iff_right hne]

end Sys2Proof.Machine
end

section
/-!
PROOFS. Bring-up (O56): wire-group repairs, rails, bypass map and spare banks.
-/

namespace Sys2Proof.Machine

/-! ### Fields of a word -/

/-- A field written leaves the bits outside it. -/
theorem getLsbD_setField_other {n : Nat} (x : BitVec n) {lo len v i : Nat} (h : i < lo ∨ lo + len ≤ i) :
    (setField x lo len v).getLsbD i = x.getLsbD i := by
  have hm : (BitVec.ofNat n (2 ^ len - 1) <<< lo).getLsbD i = false := by
    rw [BitVec.getLsbD_shiftLeft, BitVec.getLsbD_ofNat, Nat.testBit_two_pow_sub_one]
    rcases h with h | h
    · simp [h]
    · simp [show ¬i - lo < len by omega]
  have hv : (BitVec.ofNat n (v % 2 ^ len) <<< lo).getLsbD i = false := by
    rw [BitVec.getLsbD_shiftLeft, BitVec.getLsbD_ofNat, Nat.testBit_mod_two_pow]
    rcases h with h | h
    · simp [h]
    · simp [show ¬i - lo < len by omega]
  by_cases hi : i < n
  · simp only [setField, BitVec.getLsbD_or, BitVec.getLsbD_and, BitVec.getLsbD_not, hm, hv]
    simp [hi]
  · simp [BitVec.getLsbD_of_ge _ _ (Nat.le_of_not_lt hi)]

/-! ### Wire-group repairs -/

/-- The half of MESH_REPAIR for link l: its USED bit and the low bit of its group field. -/
def repairHalf (gs : List (Nat × Nat)) (l used lo : Nat) (w : W32) : W32 :=
  match linkRepair gs l with
  | some g => setField (setField w used 1 1) lo 5 g
  | none => w

theorem repairWord_eq (gs : List (Nat × Nat)) (k : Nat) :
    repairWord gs k = repairHalf gs (2 * k + 1) 15 8 (repairHalf gs (2 * k) 31 24 0#32) := rfl

/-- A link with no failed group has no repair. -/
theorem repairHalf_of_no_groups {gs : List (Nat × Nat)} {l : Nat} (h : linkGroups gs l = []) (used lo : Nat) (w : W32) :
    repairHalf gs l used lo w = w := by
  simp only [repairHalf, linkRepair, h]

/-- A repair leaves the bits outside its half. -/
theorem repairHalf_other (gs : List (Nat × Nat)) (l : Nat) {used lo i : Nat} (hused : i ≠ used) (hlo : i < lo ∨ lo + 5 ≤ i) (w : W32) :
    (repairHalf gs l used lo w).getLsbD i = w.getLsbD i := by
  unfold repairHalf
  split
  · rw [getLsbD_setField_other _ hlo, getLsbD_setField_other _ (by omega)]
  · rfl

/-- A link with no failed group has USED clear. -/
theorem repairWord_unused {gs : List (Nat × Nat)} {l : Nat} (h : linkGroups gs l = []) :
    (repairWord gs (l / 2)).getLsbD (if l % 2 = 0 then 31 else 15) = false := by
  rw [repairWord_eq]
  by_cases hl : l % 2 = 0
  · have hk : 2 * (l / 2) = l := by omega
    rw [if_pos hl, hk, repairHalf_other _ _ (by decide) (by decide), repairHalf_of_no_groups h]
    rfl
  · have hk : 2 * (l / 2) + 1 = l := by omega
    rw [if_neg hl, hk, repairHalf_of_no_groups h, repairHalf_other _ _ (by decide) (by decide)]
    rfl

/-- A pair of links that no finding names has no repair. -/
theorem repairWord_unnamed {gs : List (Nat × Nat)} {k : Nat} (h : k ∉ gs.map (·.1 / 2)) : repairWord gs k = 0#32 := by
  have hnone : ∀ l, l / 2 = k → linkGroups gs l = [] := fun l hl => by
    have hno : ∀ g ∈ gs, ¬g.1 = l := fun g hg he => h (List.mem_map.mpr ⟨g, hg, by rw [he, hl]⟩)
    have hfilter : (gs.filter fun g => decide (g.1 = l) && decide (g.2 ≤ 32)) = [] :=
      List.filter_eq_nil_iff.mpr fun g hg => by simp [hno g hg]
    rw [linkGroups, hfilter]
    rfl
  rw [repairWord_eq, repairHalf_of_no_groups (hnone _ (by omega)), repairHalf_of_no_groups (hnone _ (by omega))]

/-- The repairs that are loaded are those of the findings, for every link. -/
theorem loadRepairs_reads (gs : List (Nat × Nat)) (m : Mesh) (k : Nat) :
    smGet 0#32 (loadRepairs gs m).repairs k = repairWord gs k := by
  have hread := smGet_foldl_smSet 0#32 (repairWord gs) ((gs.map (·.1 / 2)).eraseDups) [] k
  refine hread.trans ?_
  split
  · rfl
  · rename_i h
    rw [List.mem_eraseDups] at h
    exact (repairWord_unnamed h).symm

/-! ### Rails, bypass map, spare banks -/

theorem getRail_modRail_same (p : Power) (f : Nat) (g : Rail → Rail) : getRail (modRail p f g) f = g (getRail p f) :=
  smGet_smMod_same ..

theorem getRail_modRail_other (p : Power) (g : Rail → Rail) {f j : Nat} (h : j ≠ f) : getRail (modRail p f g) j = getRail p j :=
  smGet_smMod_other _ _ _ h

/-- The mesh rails of field f with the phases ph f in service. -/
def railUp (ph : Nat → BitVec 8) (p : Power) (f : Nat) : Power := modRail p f fun r => { r with meshPh := ph f, meshOn := true }

/-- The mesh rails of the fields named come on. -/
theorem foldl_railUp_meshOn (ph : Nat → BitVec 8) (l : List Nat) (p : Power) (f : Nat) :
    (getRail (l.foldl (railUp ph) p) f).meshOn = if f ∈ l then true else (getRail p f).meshOn :=
  foldl_writes (fun _ => True) (fun p f => (getRail p f).meshOn) (railUp ph) (fun _ => true) (fun _ _ _ => trivial)
    (fun p _ _ hj => congrArg Rail.meshOn (getRail_modRail_other p _ hj))
    (fun p k _ => congrArg Rail.meshOn (getRail_modRail_same p k _)) l p trivial f

/-- The phases of field f's mesh rail that the fault history leaves in service. -/
def phasesLeft (h : History) (f : Nat) : BitVec 8 :=
  (List.range 8).foldl (fun m i => if h.permanent.contains (unitPhase f true i) then m else setField m i 1 1) 0#8

theorem startMeshRails_fold (s : State) :
    startMeshRails s = { s with power := (List.range 8).foldl (railUp (phasesLeft s.history)) s.power } := rfl

/-- Every mesh rail comes on. -/
theorem startMeshRails_meshOn (s : State) {f : Nat} (hf : f < 8) : (getRail (startMeshRails s).power f).meshOn = true := by
  rw [startMeshRails_fold, foldl_railUp_meshOn, if_pos (List.mem_range.mpr hf)]

/-- The router of a site once the bypass map is loaded (R312, R332). -/
def loadedPort (byp : List Nat) (m : Mesh) (x : Nat) : RouterPort :=
  { getPort m x with bypass := byp.contains x, closed := true, reason := if byp.contains x then 5 else 4 }

theorem loadBypass_eq (byp : List Nat) (m : Mesh) :
    loadBypass byp m = { m with ports := (List.range 2560).map fun x => (x, loadedPort byp m x) } := by
  unfold loadBypass loadedPort
  rfl

theorem getPort_loadBypass (byp : List Nat) (m : Mesh) {x : Nat} (hx : x < 2560) :
    getPort (loadBypass byp m) x = loadedPort byp m x := by
  rw [loadBypass_eq, getPort, smGet_map, if_pos (List.mem_range.mpr hx)]

/-- Enabling the routes changes ROUTE alone. -/
theorem enableRoutes_eq (m : Mesh) : enableRoutes m = { m with fields := (enableRoutes m).fields } :=
  foldl_frame (fun m n : Mesh => { m with fields := n.fields }) (fun _ => rfl) (fun _ _ _ => rfl)
    (fun m f => modFieldMesh m f fun x => { x with route := 0x0101010101010101#64 ^^^ (1#64 <<< (8 * f)) }) (fun _ _ => rfl) _ m

theorem enableRoutes_repairs (m : Mesh) : (enableRoutes m).repairs = m.repairs := by rw [enableRoutes_eq]
theorem enableRoutes_arbs (m : Mesh) : (enableRoutes m).arbs = m.arbs := by rw [enableRoutes_eq]
theorem enableRoutes_ports (m : Mesh) : (enableRoutes m).ports = m.ports := by rw [enableRoutes_eq]

/-- The sites at which a spare bank is assigned. -/
def spareSites (fu : Fuses) (v : ImageVals) (h : History) : List Nat :=
  ((fu.spares.map (·.1) ++ bankSites v h).eraseDups.filter siteOk)

/-- A site that gets a spare bank is among them. -/
theorem mem_spareSites {fu : Fuses} {v : ImageVals} {h : History} {x b : Nat} (hx : x < 2560) (hb : spareOf fu v h x = some b) :
    x ∈ spareSites fu v h := by
  refine List.mem_filter.mpr ⟨List.mem_eraseDups.mpr (List.mem_append.mpr ?_), decide_eq_true hx⟩
  unfold spareOf at hb
  split at hb
  · rename_i y hy
    refine Or.inl (List.mem_map.mpr ⟨y, List.mem_of_find?_eq_some hy, ?_⟩)
    simpa using List.find?_some hy
  · refine Or.inr (List.mem_eraseDups.mpr (List.mem_append.mpr ?_))
    rcases List.mem_append.mp (List.min?_mem hb) with hmem | hmem
    · obtain ⟨y, hy, -⟩ := List.mem_map.mp hmem
      obtain ⟨hy, hyx⟩ := List.mem_filter.mp hy
      exact Or.inl (List.mem_map.mpr ⟨y, hy, by simpa using hyx⟩)
    · obtain ⟨hlt, hperm⟩ := List.mem_filter.mp hmem
      have hb32 : b < 32 := List.mem_range.mp hlt
      have hkey : unitBank x b = 2 * 2 ^ 28 + x + b * 2 ^ 12 := by rw [unitBank, if_pos hb32]
      refine Or.inr (List.mem_map.mpr ⟨unitBank x b, List.mem_filter.mpr ⟨List.contains_iff_mem.mp hperm, ?_⟩, ?_⟩)
      · rw [hkey, decide_eq_true_eq]; omega
      · rw [hkey]; omega

/-- The core of site x with its spare bank. -/
def assignSpare (v : ImageVals) (s : State) (x : Nat) : State :=
  putCore x { getCore s x with slab := { (getCore s x).slab with spare := spareOf s.fuses v s.history x } } s

theorem assignSpares_fold (v : ImageVals) (s : State) :
    assignSpares v s = (spareSites s.fuses v s.history).foldl (assignSpare v) s := rfl

/-- Assigning spares changes the cores alone. -/
theorem assignSpares_eq (v : ImageVals) (s : State) : assignSpares v s = { s with cores := (assignSpares v s).cores } := by
  rw [assignSpares_fold]
  exact foldl_frame (fun s t : State => { s with cores := t.cores }) (fun _ => rfl) (fun _ _ _ => rfl) (assignSpare v)
    (fun _ _ => rfl) _ s

/-- Each site's spare bank stands for the bank that it is to take (R134). -/
theorem assignSpares_spare (v : ImageVals) (s : State) {x b : Nat} (hx : x < 2560) (hb : spareOf s.fuses v s.history x = some b) :
    (getCore (assignSpares v s) x).slab.spare = some b := by
  rw [assignSpares_fold]
  refine (foldl_writes (fun t => t.fuses = s.fuses ∧ t.history = s.history) (fun t x => (getCore t x).slab.spare) (assignSpare v)
    (spareOf s.fuses v s.history) (fun t _ (h : t.fuses = s.fuses ∧ t.history = s.history) => h) (fun t k j hj => ?_)
    (fun t k h => ?_) _ s ⟨rfl, rfl⟩ x).trans ?_
  · simp only [assignSpare, getCore_putCore_other _ _ hj]
  · simp only [assignSpare, getCore_putCore_same, h.1, h.2]
  · rw [if_pos (mem_spareSites hx hb), hb]

end Sys2Proof.Machine
end

section
/-!
PROOFS. Bring-up (O56): the module after bisque firing.
-/

namespace Sys2Proof.Machine

/-! ### Bisque firing -/

/-- The routers that bisque firing bypasses: those of the image and those that failed their test. -/
abbrev bypassMap (s : State) (found : BisqueIn) : List Nat := (((imageVals s).badRouters ++ found.routers).filter siteOk).eraseDups

theorem mem_bypassMap {s : State} {found : BisqueIn} {x : Nat} (hx : x < 2560) :
    x ∈ bypassMap s found ↔ x ∈ (imageVals s).badRouters ∨ x ∈ found.routers := by
  have hok : siteOk x = true := decide_eq_true hx
  simp [bypassMap, List.mem_eraseDups, hok]

/-- The kiln map that bisque firing loads. -/
def loadedKiln (s : State) (byp : List Nat) : List Nat :=
  ((s.box.kiln ++ s.fuses.badSites ++ (imageVals s).badSites ++ byp ++ bankFences s.fuses (imageVals s) s.history).filter siteOk).eraseDups

theorem mem_loadedKiln {s : State} {byp : List Nat} {x : Nat} (hx : x < 2560)
    (h : x ∈ s.fuses.badSites ∨ x ∈ (imageVals s).badSites ∨ x ∈ s.box.kiln) : x ∈ loadedKiln s byp := by
  refine List.mem_eraseDups.mpr (List.mem_filter.mpr ⟨?_, decide_eq_true hx⟩)
  simp only [List.mem_append]
  tauto

/-- Rails up, bypass map and kiln map loaded, spare banks assigned. -/
def mapsLoaded (found : BisqueIn) (s : State) : State :=
  assignSpares (imageVals s) { s with
    power := (startMeshRails s).power, mesh := loadBypass (bypassMap s found) s.mesh
    box := { s.box with kiln := loadedKiln s (bypassMap s found) } }

theorem mapsLoaded_eq (found : BisqueIn) (s : State) : mapsLoaded found s = { s with
    power := (startMeshRails s).power, mesh := loadBypass (bypassMap s found) s.mesh
    box := { s.box with kiln := loadedKiln s (bypassMap s found) }, cores := (mapsLoaded found s).cores } := by
  unfold mapsLoaded
  rw [assignSpares_eq]

theorem mapsLoaded_spare (found : BisqueIn) (s : State) {x b : Nat} (hx : x < 2560)
    (hb : spareOf s.fuses (imageVals s) s.history x = some b) : (getCore (mapsLoaded found s) x).slab.spare = some b := by
  unfold mapsLoaded
  exact assignSpares_spare (imageVals s) _ hx hb

/-- Every arbiter of a field at slot 0 (R346). -/
def slotsZero (m : SMap ArbBank) : SMap ArbBank := smMap ArbBank.reset (fun _ b => { b with ptr := 0 }) m

theorem slotsZero_ptr (m : SMap ArbBank) (f : Nat) : (smGet ArbBank.reset (slotsZero m) f).ptr = 0 :=
  smGet_smMap_of (fun b : ArbBank => b.ptr = 0) ArbBank.reset (fun _ b => { b with ptr := 0 }) m f rfl fun _ _ => rfl

/-- The mesh as the clock generators start (R346, R381). -/
def startedMesh (m : Mesh) : Mesh := { m with arbs := slotsZero m.arbs, ccs := [], crossings := [] }

/-- The mesh once the clocks run: routes enabled, wire groups repaired, bypass map loaded. -/
def firedMesh (found : BisqueIn) (s : State) : Mesh :=
  enableRoutes (loadRepairs found.groups (startedMesh (loadBypass (bypassMap s found) s.mesh)))

theorem firedMesh_repairs (found : BisqueIn) (s : State) (k : Nat) :
    smGet 0#32 (firedMesh found s).repairs k = repairWord found.groups k := by
  rw [firedMesh, enableRoutes_repairs, loadRepairs_reads]

theorem firedMesh_arbs (found : BisqueIn) (s : State) : (firedMesh found s).arbs = slotsZero s.mesh.arbs := by
  rw [firedMesh, enableRoutes_arbs, loadRepairs, startedMesh, loadBypass_eq]

theorem getPort_firedMesh (found : BisqueIn) (s : State) {x : Nat} (hx : x < 2560) :
    getPort (firedMesh found s) x = loadedPort (bypassMap s found) s.mesh x := by
  rw [← getPort_loadBypass _ _ hx, getPort, firedMesh, enableRoutes_ports, loadRepairs, startedMesh, getPort]

/-- The kiln map once the routes are known. -/
def firedKiln (found : BisqueIn) (s : State) : List Nat :=
  loadedKiln s (bypassMap s found) ++ (routeFences (firedMesh found s) (bypassMap s found)).filter fun x =>
    !(loadedKiln s (bypassMap s found)).contains x

/-- The clocks run and the maps are loaded; the cores that no route reaches join the kiln map. -/
def clocked (found : BisqueIn) (s : State) : State :=
  { startClocks (!found.pllA) (mapsLoaded found s) with
    mesh := firedMesh found s
    box := { s.box with kiln := firedKiln found s } }

/-- The last loads of bisque firing; step 5 follows (R580). -/
def finishBisque (v : ImageVals) (s : State) : State :=
  { bisqueLoads v s with boot := { (bisqueLoads v s).boot with phase := 5 } }

/-- Bisque firing with the stops of Table 20.2, in their order. -/
theorem bisque_eq (found : BisqueIn) (s : State) :
    bisque found s =
      if !found.meshOk || !meshRailsOk (startMeshRails s) then bootStop 5 s
      else if !found.pllA && !found.pllB then bootStop 2 s
      else if !(brokenLinks found.groups).isEmpty then bootStopAt 3 (brokenLinks found.groups) s
      else if edgeCut (bypassMap s found) then bootStop 4 s
      else finishBisque (imageVals s) (clocked found s) := by
  have hrails : startMeshRails s = { s with power := (startMeshRails s).power } := by rw [startMeshRails_fold]
  have hspares := assignSpares_eq (imageVals s) { s with
    power := (startMeshRails s).power, mesh := loadBypass (bypassMap s found) s.mesh
    box := { s.box with kiln := loadedKiln s (bypassMap s found) } }
  unfold bisque clocked firedKiln firedMesh mapsLoaded
  generalize startMeshRails s = s1 at hrails hspares ⊢
  generalize s1.power = p at hrails hspares ⊢
  subst hrails
  refine ite_congr rfl (fun _ => rfl) fun _ => ite_congr rfl (fun _ => rfl) fun _ => ite_congr rfl (fun _ => rfl) fun _ =>
    ite_congr rfl (fun _ => rfl) fun _ => congrArg (finishBisque (imageVals s)) ?_
  unfold loadedKiln bypassMap at *
  simp only [] at hspares ⊢
  generalize assignSpares (imageVals s) _ = s2 at hspares ⊢
  generalize s2.cores = cores at hspares ⊢
  subst hspares
  generalize loadBypass _ s.mesh = m
  simp only [startClocks, startGenerators, startedMesh, slotsZero]

/-- The crack events of cluster k come from the fault history (R419). -/
def loadCracks (s : State) (k : Nat) : State := modCluster k (fun c => { c with crackEvents := crackCount s.history k }) s

/-- Loading crack events changes the clusters alone. -/
theorem foldl_loadCracks_eq (l : List Nat) (s : State) :
    l.foldl loadCracks s = { s with power := { s.power with clusters := (l.foldl loadCracks s).power.clusters } } :=
  foldl_frame (fun s t : State => { s with power := { s.power with clusters := t.power.clusters } }) (fun _ => rfl) (fun _ _ _ => rfl)
    loadCracks (fun _ _ => rfl) l s

/-- The registers that bisque firing loads outside the clusters. -/
def loadRegs (v : ImageVals) (s : State) : State :=
  { s with
    errlog := { s.errlog with nextSeq := s.errlog.flashSeq }
    history := { s.history with time := s.history.savedTime }
    meter := { s.meter with idPub := s.fuses.idPub }
    clock := { s.clock with monTh := v.monTh, droopTh := v.droopTh } }

/-- The clusters with crack events in the fault history. -/
def crackedClusters (h : History) : List Nat := (List.range 640).filter fun k => decide (crackCount h k > 0)

theorem bisqueLoads_steps (v : ImageVals) (s : State) :
    let s2 := (crackedClusters s.history).foldl loadCracks (loadRegs v s)
    bisqueLoads v s = updateSpares { s2 with power := loadTargets s2.power v 16 } := rfl

/-- What the last loads of bisque firing change (R580). -/
theorem bisqueLoads_eq (v : ImageVals) (s : State) : bisqueLoads v s = { loadRegs v s with
    power := { s.power with clusters := (bisqueLoads v s).power.clusters }
    box := { s.box with spares := (bisqueLoads v s).box.spares } } := by
  rw [bisqueLoads_steps, updateSpares_eq, foldl_loadCracks_eq]
  simp only [loadTargets, loadRegs]

/-- The module after bisque firing: all but the clusters' values and the spare counts, field by field (R580). -/
theorem bisque_fires (found : BisqueIn) (s : State) : ∃ clusters spares,
    finishBisque (imageVals s) (clocked found s) = { s with
      boot := { s.boot with phase := 5, pllB := !found.pllA }
      clock := { s.clock with
        locked := true, selB := !found.pllA, div := 16, fastest := s.fuses.grade.fastest
        monTh := (imageVals s).monTh, droopTh := (imageVals s).droopTh }
      mesh := firedMesh found s
      hbm := { s.hbm with arbs := slotsZero s.hbm.arbs }
      power := { (startMeshRails s).power with clusters := clusters }
      box := { s.box with kiln := firedKiln found s, spares := spares }
      cores := (mapsLoaded found s).cores
      errlog := { s.errlog with nextSeq := s.errlog.flashSeq }
      history := { s.history with time := s.history.savedTime }
      meter := { s.meter with idPub := s.fuses.idPub } } := by
  refine ⟨(bisqueLoads (imageVals s) (clocked found s)).power.clusters, (bisqueLoads (imageVals s) (clocked found s)).box.spares, ?_⟩
  rw [finishBisque, bisqueLoads_eq]
  generalize (bisqueLoads _ _).power.clusters = clusters
  generalize (bisqueLoads _ _).box.spares = spares
  rw [loadRegs, clocked, mapsLoaded_eq]
  simp only [startClocks, startGenerators, slotsZero]

end Sys2Proof.Machine
end

section
/-!
PROOFS. Bring-up (O56): the outcomes of bisque firing.
-/

namespace Sys2Proof.Machine

theorem bisqueFiring_fires (s : State) (found : BisqueIn) (hphase : s.boot.phase = 4) :
    exec (.bisqueFiring found) s = .next (bisque found s) := next_of_guard rfl hphase

/-- Without the mesh rails bisque firing stops. -/
theorem bisqueFiring_stops_rail (s : State) (found : BisqueIn) (hphase : s.boot.phase = 4)
    (h : found.meshOk = false ∨ meshRailsOk (startMeshRails s) = false) : Stops s (.bisqueFiring found) 5 := by
  have hexec := bisqueFiring_fires s found hphase
  rw [bisque_eq, if_pos (by rcases h with h | h <;> simp [h])] at hexec
  exact stops_of_bootStop hexec

section
variable {s : State} {found : BisqueIn} (hphase : s.boot.phase = 4) (hmesh : found.meshOk = true)
  (hrails : meshRailsOk (startMeshRails s) = true)
include hphase hmesh hrails

/-- Bisque firing with the mesh rails up. -/
theorem bisqueFiring_railsUp : exec (.bisqueFiring found) s = .next
    (if !found.pllA && !found.pllB then bootStop 2 s
      else if !(brokenLinks found.groups).isEmpty then bootStopAt 3 (brokenLinks found.groups) s
      else if edgeCut (bypassMap s found) then bootStop 4 s
      else finishBisque (imageVals s) (clocked found s)) := by
  rw [bisqueFiring_fires s found hphase, bisque_eq, if_neg (by simp [hmesh, hrails])]

/-- With no root PLL bisque firing stops. -/
theorem bisqueFiring_stops_pll (hA : found.pllA = false) (hB : found.pllB = false) : Stops s (.bisqueFiring found) 2 := by
  have hexec := bisqueFiring_railsUp hphase hmesh hrails
  rw [if_pos (by simp [hA, hB])] at hexec
  exact stops_of_bootStop hexec

variable (hpll : (found.pllA || found.pllB) = true)
include hpll

/-- Bisque firing with a root PLL. -/
theorem bisqueFiring_pllUp : exec (.bisqueFiring found) s = .next
    (if !(brokenLinks found.groups).isEmpty then bootStopAt 3 (brokenLinks found.groups) s
      else if edgeCut (bypassMap s found) then bootStop 4 s
      else finishBisque (imageVals s) (clocked found s)) := by
  have hneg : ¬(!found.pllA && !found.pllB) = true := by
    rw [← Bool.not_or, hpll]; decide
  rw [bisqueFiring_railsUp hphase hmesh hrails, if_neg hneg]

/-- With a link that the spare group cannot cover bisque firing stops, and the boot record names the links. -/
theorem bisqueFiring_stops_wire (h : brokenLinks found.groups ≠ []) :
    Stops s (.bisqueFiring found) 3 ∧ ∀ t, exec (.bisqueFiring found) s = .next t → s.boot.box2 = true →
      t.boot.records = s.boot.records ++ [{ phase := 4, cause := 3, links := brokenLinks found.groups }] := by
  have hexec := bisqueFiring_pllUp hphase hmesh hrails hpll
  rw [if_pos (by simpa using h)] at hexec
  refine ⟨stops_of_bootStopAt hexec rfl (fun _ => rfl) rfl rfl, fun t ht hbox => ?_⟩
  obtain rfl : bootStopAt 3 (brokenLinks found.groups) s = t := Host.Outcome.next.inj (hexec.symm.trans ht)
  simp only [bootStopAt, hbox, hphase, if_true]

variable (hwire : brokenLinks found.groups = [])
include hwire

/-- With an edge unit cut off bisque firing stops. -/
theorem bisqueFiring_stops_edge (h : edgeCut (bypassMap s found) = true) : Stops s (.bisqueFiring found) 4 := by
  have hexec := bisqueFiring_pllUp hphase hmesh hrails hpll
  rw [if_neg (by simp [hwire]), if_pos h] at hexec
  exact stops_of_bootStop hexec

/-- Bisque firing that finds nothing to stop it. -/
theorem bisqueFiring_done (h : edgeCut (bypassMap s found) = false) :
    exec (.bisqueFiring found) s = .next (finishBisque (imageVals s) (clocked found s)) := by
  rw [bisqueFiring_pllUp hphase hmesh hrails hpll, if_neg (by simp [hwire]), if_neg (by simp [h])]

end

/-- The rails do not depend on the clusters. -/
theorem getRail_clusters (p : Power) (m : SMap ClusterPwr) (f : Nat) : getRail { p with clusters := m } f = getRail p f := rfl

/-- What bisque firing leaves: clocks, registers, arbiters, repairs, spare banks, kiln map, and every port to a core closed (R580). -/
theorem bisqueFiring_leaves (s : State) (found : BisqueIn) (hdone : exec (.bisqueFiring found) s =
      .next (finishBisque (imageVals s) (clocked found s))) :
    let v := imageVals s
    ∃ t, exec (.bisqueFiring found) s = .next t ∧ t = { s with
        boot := t.boot, clock := t.clock, mesh := t.mesh, hbm := { s.hbm with arbs := t.hbm.arbs }, power := t.power, box := t.box
        cores := t.cores, errlog := t.errlog, history := { s.history with time := s.history.savedTime }, meter := t.meter } ∧
      t.boot = { s.boot with phase := 5, pllB := !found.pllA } ∧
      t.clock = { s.clock with
        locked := true, selB := !found.pllA, div := 16, fastest := s.fuses.grade.fastest
        monTh := v.monTh, droopTh := v.droopTh } ∧
      t.errlog = { s.errlog with nextSeq := s.errlog.flashSeq } ∧ t.meter = { s.meter with idPub := s.fuses.idPub } ∧
      (∀ f, f < 8 → (getRail t.power f).meshOn = true ∧
        (smGet ArbBank.reset t.mesh.arbs f).ptr = 0 ∧ (smGet ArbBank.reset t.hbm.arbs f).ptr = 0) ∧
      (∀ l, l < 20480 → linkGroups found.groups l = [] → (repairWord found.groups (l / 2)).getLsbD (if l % 2 = 0 then 31 else 15) = false) ∧
      (∀ k, k < 10240 → smGet 0#32 t.mesh.repairs k = repairWord found.groups k) ∧
      (∀ x b, x < 2560 → spareOf s.fuses v s.history x = some b → (getCore t x).slab.spare = some b) ∧
      (∀ x, x < 2560 → x ∈ s.fuses.badSites ∨ x ∈ v.badSites ∨ x ∈ s.box.kiln → x ∈ t.box.kiln) ∧
      ∀ x, x < 2560 → (getPort t.mesh x).closed = true ∧
        ((getPort t.mesh x).bypass = true ↔ x ∈ v.badRouters ∨ x ∈ found.routers) := by
  obtain ⟨clusters, spares, heq⟩ := bisque_fires found s
  rw [heq] at hdone
  refine ⟨_, hdone, rfl, rfl, rfl, rfl, rfl, fun f hf => ⟨?_, ?_, slotsZero_ptr _ f⟩,
    fun l _ hl => repairWord_unused hl, fun k _ => firedMesh_repairs found s k, fun x b hx hb => mapsLoaded_spare found s hx hb,
    fun x hx h => List.mem_append_left _ (mem_loadedKiln hx h), fun x hx => ?_⟩
  · rw [getRail_clusters, startMeshRails_meshOn s hf]
  · simp only [firedMesh_arbs, slotsZero_ptr]
  · simp only [getPort_firedMesh found s hx]
    exact ⟨rfl, List.contains_iff_mem.trans (mem_bypassMap hx)⟩

end Sys2Proof.Machine
end

section
/-!
PROOFS. Bring-up (O56): words and bytes written in HBM.
-/

namespace Sys2Proof.Machine

/-! ### Words of HBM -/

/-- What accesses to words of HBM leave alone: the page map, the refresh rate and the arbiters. -/
def hbmSetup (h : Hbm) : SMap W64 × Nat × SMap ArbBank := (h.entries, h.rate, h.arbs)

theorem startRetrain_setup (h : Hbm) (s : Nat) : hbmSetup (startRetrain h s) = hbmSetup h ∧ (startRetrain h s).words = h.words := by
  unfold startRetrain
  simp only
  split <;> exact ⟨rfl, rfl⟩

theorem countStackCe_setup (now : Nat) (h : Hbm) (s : Nat) :
    hbmSetup (countStackCe now h s) = hbmSetup h ∧ (countStackCe now h s).words = h.words := by
  have key : ∀ (c : Prop) [Decidable c] (k : Stack),
      hbmSetup (if c then startRetrain (setStack h s k) s else setStack h s k) = hbmSetup h ∧
        (if c then startRetrain (setStack h s k) s else setStack h s k).words = h.words := by
    intro c _ k
    split
    · exact startRetrain_setup ..
    · exact ⟨rfl, rfl⟩
  unfold countStackCe
  exact key _ _

/-- A decoded read stores nothing. -/
theorem hbmReadWord_setup (now : Nat) (bad : List Nat) (a : Nat) (h : Hbm) :
    hbmSetup (hbmReadWord now bad a h).2 = hbmSetup h ∧ (hbmReadWord now bad a h).2.words = h.words := by
  unfold hbmReadWord
  simp only
  split
  · exact ⟨rfl, rfl⟩
  · split
    · exact countStackCe_setup ..
    · split <;> exact ⟨rfl, rfl⟩

/-- A word read after a word stored. -/
theorem hbmWriteWord_words (a : Nat) (d : W64) (z : Bool) (h : Hbm) (j : Nat) :
    smGet 0#72 (hbmWriteWord a d z h).words j = if j = a / 8 then hbmStored d z else smGet 0#72 h.words j := smGet_smSet ..

/-- A burst merged: the words that are missing are stored as decoded, and no word of another burst is touched. -/
theorem mergeBurst_other (now : Nat) (bad : List Nat) (ws : List (Nat × W64 × Bool)) (h : Hbm) :
    hbmSetup (mergeBurst now bad ws h) = hbmSetup h ∧
    ∀ j, (∀ w ∈ ws, j / 4 ≠ w.1 / 32) → smGet 0#72 (mergeBurst now bad ws h).words j = smGet 0#72 h.words j := by
  cases ws with
  | nil => exact ⟨rfl, fun _ _ => rfl⟩
  | cons w ws =>
    have hstep : ∀ (l : List Nat) (h : Hbm), (∀ i ∈ l, i < 4) →
        let t := l.foldl (fun h i =>
          let r := hbmReadWord now bad (32 * (w.1 / 32) + 8 * i) h
          hbmWriteWord (32 * (w.1 / 32) + 8 * i) r.1.data r.1.crazed r.2) h
        hbmSetup t = hbmSetup h ∧ ∀ j, j / 4 ≠ w.1 / 32 → smGet 0#72 t.words j = smGet 0#72 h.words j := by
      intro l
      induction l with
      | nil => exact fun h _ => ⟨rfl, fun _ _ => rfl⟩
      | cons i l ih =>
        intro h hl
        obtain ⟨hsetup, hwords⟩ := hbmReadWord_setup now bad (32 * (w.1 / 32) + 8 * i) h
        obtain ⟨ihs, ihw⟩ := ih (hbmWriteWord (32 * (w.1 / 32) + 8 * i) _ _ (hbmReadWord now bad (32 * (w.1 / 32) + 8 * i) h).2)
          fun k hk => hl k (List.mem_cons_of_mem _ hk)
        refine ⟨ihs.trans hsetup, fun j hj => (ihw j hj).trans ?_⟩
        have hi := hl i List.mem_cons_self
        rw [hbmWriteWord_words, if_neg (by omega), hwords]
    unfold mergeBurst
    simp only
    split
    · exact ⟨rfl, fun _ _ => rfl⟩
    · obtain ⟨hs, hw⟩ := hstep _ (modChan h (addrChan (32 * (w.1 / 32))) fun c => { c with rmw := sat16 c.rmw 1 })
        fun i hi => List.mem_range.mp (List.mem_filter.mp hi).1
      exact ⟨hs, fun j hj => hw j (hj w List.mem_cons_self)⟩

/-- Bursts merged one after another. -/
theorem foldl_mergeBurst_other (now : Nat) (bad : List Nat) (bs : List (List (Nat × W64 × Bool))) (h : Hbm) :
    let t := bs.foldl (fun h b => mergeBurst now bad b h) h
    hbmSetup t = hbmSetup h ∧ ∀ j, (∀ b ∈ bs, ∀ w ∈ b, j / 4 ≠ w.1 / 32) → smGet 0#72 t.words j = smGet 0#72 h.words j := by
  induction bs generalizing h with
  | nil => exact ⟨rfl, fun _ _ => rfl⟩
  | cons b bs ih =>
    obtain ⟨hs, hw⟩ := mergeBurst_other now bad b h
    obtain ⟨ihs, ihw⟩ := ih (mergeBurst now bad b h)
    exact ⟨ihs.trans hs, fun j hj => (ihw j fun c hc => hj c (List.mem_cons_of_mem _ hc)).trans (hw j (hj b List.mem_cons_self))⟩

/-- Words stored one after another: setup and the words of other keys stay. -/
theorem foldl_hbmWriteWord_other (ws : List (Nat × W64 × Bool)) (h : Hbm) :
    let t := ws.foldl (fun h w => hbmWriteWord w.1 w.2.1 w.2.2 h) h
    hbmSetup t = hbmSetup h ∧ ∀ j, (∀ w ∈ ws, j ≠ w.1 / 8) → smGet 0#72 t.words j = smGet 0#72 h.words j := by
  induction ws generalizing h with
  | nil => exact ⟨rfl, fun _ _ => rfl⟩
  | cons w ws ih =>
    obtain ⟨ihs, ihw⟩ := ih (hbmWriteWord w.1 w.2.1 w.2.2 h)
    refine ⟨ihs, fun j hj => (ihw j fun x hx => hj x (List.mem_cons_of_mem _ hx)).trans ?_⟩
    rw [hbmWriteWord_words, if_neg (hj w List.mem_cons_self)]

/-- Words stored one after another: a key reads what its entries agree on. -/
theorem foldl_hbmWriteWord_same (ws : List (Nat × W64 × Bool)) (h : Hbm) (j : Nat) (d : W64)
    (hall : ∀ w ∈ ws, j = w.1 / 8 → w.2 = (d, false)) (hsome : (∃ w ∈ ws, j = w.1 / 8) ∨ smGet 0#72 h.words j = hbmEncode d) :
    smGet 0#72 (ws.foldl (fun h w => hbmWriteWord w.1 w.2.1 w.2.2 h) h).words j = hbmEncode d := by
  induction ws generalizing h with
  | nil => exact hsome.resolve_left (by simp)
  | cons w ws ih =>
    refine ih _ (fun x hx => hall x (List.mem_cons_of_mem _ hx)) ?_
    rw [hbmWriteWord_words]
    by_cases hw : j = w.1 / 8
    · rw [if_pos hw, hall w List.mem_cons_self hw]
      exact Or.inr rfl
    · rw [if_neg hw]
      refine hsome.imp_left fun ⟨x, hx, hxj⟩ => ?_
      rcases List.mem_cons.mp hx with rfl | hx
      · exact absurd hxj hw
      · exact ⟨x, hx, hxj⟩

/-- The words of a write, burst by burst. -/
def burstsOf (ws : List (Nat × W64 × Bool)) : List (List (Nat × W64 × Bool)) := ws.splitBy fun x y => decide (x.1 / 32 = y.1 / 32)

theorem hbmWriteWords_eq (now : Nat) (bad : List Nat) (ws : List (Nat × W64 × Bool)) (h : Hbm) :
    hbmWriteWords now bad ws h = ws.foldl (fun h w => hbmWriteWord w.1 w.2.1 w.2.2 h)
      ((burstsOf ws).foldl (fun h b => mergeBurst now bad b h) h) := rfl

/-- A write of words leaves the setup and the words of every burst that it does not touch. -/
theorem hbmWriteWords_other (now : Nat) (bad : List Nat) (ws : List (Nat × W64 × Bool)) (h : Hbm) :
    hbmSetup (hbmWriteWords now bad ws h) = hbmSetup h ∧
    ∀ j, (∀ w ∈ ws, j / 4 ≠ w.1 / 32) → smGet 0#72 (hbmWriteWords now bad ws h).words j = smGet 0#72 h.words j := by
  rw [hbmWriteWords_eq]
  obtain ⟨hms, hmw⟩ := foldl_mergeBurst_other now bad (burstsOf ws) h
  obtain ⟨hws, hww⟩ := foldl_hbmWriteWord_other ws ((burstsOf ws).foldl (fun h b => mergeBurst now bad b h) h)
  refine ⟨hws.trans hms, fun j hj => (hww j fun w hw => ?_).trans (hmw j fun b hb w hw => hj w ?_)⟩
  · have := hj w hw
    omega
  · rw [← List.flatten_splitBy (fun x y => decide (x.1 / 32 = y.1 / 32)) ws]
    exact List.mem_flatten.mpr ⟨b, hb, hw⟩

/-- A write of words stores what its entries for a key agree on. -/
theorem hbmWriteWords_same (now : Nat) (bad : List Nat) (ws : List (Nat × W64 × Bool)) (h : Hbm) (j : Nat) (d : W64)
    (hall : ∀ w ∈ ws, j = w.1 / 8 → w.2 = (d, false)) (hsome : ∃ w ∈ ws, j = w.1 / 8) :
    smGet 0#72 (hbmWriteWords now bad ws h).words j = hbmEncode d :=
  foldl_hbmWriteWord_same ws _ j d hall (Or.inl hsome)

/-! ### Bytes in HBM -/

/-- The 64-bit word i of a list of bytes. -/
def wordAt (l : List Byte) (i : Nat) : W64 := BitVec.ofNat 64 (numLE ((l.drop (8 * i)).take 8))

/-- A word that the bytes fill is written as they have it, and nothing is read for it. -/
theorem byteWrite_full (now v : Nat) (l : List Byte) (i : Nat) (h : Hbm) (hi : 8 * (i + 1) ≤ l.length) :
    byteWrite now v l.toArray [] (v + 8 * i) (v + 8 * i) h = ((v + 8 * i, wordAt l i, false), h) := by
  have hbytes : (List.range 8).map (fun k => l.toArray.getD (v + 8 * i + k - v) 0#8) = (l.drop (8 * i)).take 8 := by
    refine List.ext_getElem (by simp; omega) fun k hk _ => ?_
    have hk8 : k < 8 := by simpa using hk
    have hidx : v + 8 * i + k - v = 8 * i + k := by omega
    have hlt : 8 * i + k < l.length := by omega
    simp [hidx, Array.getD, hlt]
  unfold byteWrite
  rw [if_pos (by simp; omega), hbytes]
  rfl

/-- A word written from bytes: it goes to its address, and what is read for it stores nothing. -/
theorem byteWrite_spec (now v : Nat) (arr : Array Byte) (crz : List Nat) (w0 a : Nat) (h : Hbm) :
    (byteWrite now v arr crz w0 a h).1.1 = a ∧ hbmSetup (byteWrite now v arr crz w0 a h).2 = hbmSetup h ∧
      (byteWrite now v arr crz w0 a h).2.words = h.words := by
  unfold byteWrite
  simp only
  split
  · exact ⟨rfl, rfl, rfl⟩
  · exact ⟨rfl, hbmReadWord_setup ..⟩

/-- The next word of a write of bytes, with what is read for it. -/
def pushWord (now v : Nat) (l : List Byte) (acc : List (Nat × W64 × Bool) × Hbm) (i : Nat) : List (Nat × W64 × Bool) × Hbm :=
  ((byteWrite now v l.toArray [] (v + 8 * i) (v + 8 * i) acc.2).1 :: acc.1,
    (byteWrite now v l.toArray [] (v + 8 * i) (v + 8 * i) acc.2).2)

/-- The words pushed one after another: each of the keys has its word, as the bytes have it where they fill it. -/
theorem foldl_pushWord (now v : Nat) (l : List Byte) (is : List Nat) (acc : List (Nat × W64 × Bool) × Hbm) :
    let r := is.foldl (pushWord now v l) acc
    hbmSetup r.2 = hbmSetup acc.2 ∧ r.2.words = acc.2.words ∧
      (∀ w ∈ r.1, w ∈ acc.1 ∨ ∃ i ∈ is, w.1 = v + 8 * i ∧ (8 * (i + 1) ≤ l.length → w.2 = (wordAt l i, false))) ∧
      (∀ w ∈ acc.1, w ∈ r.1) ∧ ∀ i ∈ is, ∃ w ∈ r.1, w.1 = v + 8 * i := by
  induction is generalizing acc with
  | nil => exact ⟨rfl, rfl, fun w hw => Or.inl hw, fun w hw => hw, by simp⟩
  | cons i is ih =>
    obtain ⟨haddr, hsetup, hwords⟩ := byteWrite_spec now v l.toArray [] (v + 8 * i) (v + 8 * i) acc.2
    obtain ⟨ihs, ihw, ihfrom, ihkeep, ihall⟩ := ih (pushWord now v l acc i)
    refine ⟨ihs.trans hsetup, ihw.trans hwords, fun w hw => ?_, fun w hw => ihkeep w (List.mem_cons_of_mem _ hw), fun k hk => ?_⟩
    · rcases ihfrom w hw with hacc | ⟨k, hk, hspec⟩
      · rcases List.mem_cons.mp hacc with rfl | hacc
        · exact Or.inr ⟨i, List.mem_cons_self, haddr, fun hfull => by rw [byteWrite_full now v l i _ hfull]⟩
        · exact Or.inl hacc
      · exact Or.inr ⟨k, List.mem_cons_of_mem _ hk, hspec⟩
    · rcases List.mem_cons.mp hk with rfl | hk
      · exact ⟨_, ihkeep _ List.mem_cons_self, haddr⟩
      · exact ihall k hk

/-- The words of the bytes l from the device address v on, at a multiple of 8: one for each 8 bytes begun, those that the bytes fill as
they have them. -/
theorem byteWrites_spec (now v : Nat) (l : List Byte) (h : Hbm) (hv : v % 8 = 0) :
    let r := byteWrites now some v l [] h
    hbmSetup r.2 = hbmSetup h ∧ r.2.words = h.words ∧
      (∀ w ∈ r.1, ∃ i, 8 * i < l.length ∧ w.1 = v + 8 * i ∧ (8 * (i + 1) ≤ l.length → w.2 = (wordAt l i, false))) ∧
      ∀ i, 8 * i < l.length → ∃ w ∈ r.1, w.1 = v + 8 * i := by
  have hcount : ∀ i, i ∈ List.range ((v % 8 + l.length + 7) / 8) ↔ 8 * i < l.length := fun i => by
    rw [List.mem_range]; omega
  have hbase : v / 8 * 8 = v := by omega
  obtain ⟨hs, hw, hfrom, -, hall⟩ := foldl_pushWord now v l (List.range ((v % 8 + l.length + 7) / 8)) ([], h)
  simp only [byteWrites, hbase]
  refine ⟨hs, hw, fun w hmem => ?_, fun i hi => ?_⟩
  · rcases hfrom w (List.mem_reverse.mp hmem) with hnil | ⟨i, hi, hspec⟩
    · cases hnil
    · exact ⟨i, (hcount i).mp hi, hspec⟩
  · obtain ⟨w, hmem, hw⟩ := hall i ((hcount i).mpr hi)
    exact ⟨w, List.mem_reverse.mpr hmem, hw⟩

/-- Bytes written at a device address, a multiple of 32: their full words stand there; the setup and the words outside their bursts
are as they were. -/
theorem devWriteBytes_spec (now a : Nat) (l : List Byte) (h : Hbm) (ha : a % 32 = 0) :
    hbmSetup (devWriteBytes now a l h) = hbmSetup h ∧
      (∀ k, 8 * (k + 1) ≤ l.length → smGet 0#72 (devWriteBytes now a l h).words (a / 8 + k) = bytesWord l k) ∧
      ∀ j, j < a / 8 ∨ a + l.length + 32 ≤ 8 * j → smGet 0#72 (devWriteBytes now a l h).words j = smGet 0#72 h.words j := by
  obtain ⟨hs, hw, hfrom, hall⟩ := byteWrites_spec now a l h (by omega)
  obtain ⟨hws, hww⟩ := hbmWriteWords_other now [] (byteWrites now some a l [] h).1 (byteWrites now some a l [] h).2
  unfold devWriteBytes
  refine ⟨hws.trans hs, fun k hk => hbmWriteWords_same _ _ _ _ _ (wordAt l k) (fun w hmem hkey => ?_) ?_, fun j hj => ?_⟩
  · obtain ⟨i, -, haddr, hdata⟩ := hfrom w hmem
    obtain rfl : i = k := by omega
    exact hdata hk
  · obtain ⟨w, hmem, haddr⟩ := hall k (by omega)
    exact ⟨w, hmem, by omega⟩
  · refine (hww j fun w hmem => ?_).trans (by rw [hw])
    obtain ⟨i, hi, haddr, -⟩ := hfrom w hmem
    omega

end Sys2Proof.Machine
end

section
/-!
PROOFS. Bring-up (O56): what a side-band unit writes.
-/

namespace Sys2Proof.Machine

/-! ### Routes of the side-band units -/

/-- Two meshes with the same bypass map and the same route table. -/
def SameRoutes (m n : Mesh) : Prop := n.ports = m.ports ∧ ∀ f, (getFieldMesh n f).route = (getFieldMesh m f).route

theorem SameRoutes.refl (m : Mesh) : SameRoutes m m := ⟨rfl, fun _ => rfl⟩

theorem SameRoutes.trans {m n k : Mesh} (h : SameRoutes m n) (h' : SameRoutes n k) : SameRoutes m k :=
  ⟨h'.1.trans h.1, fun f => (h'.2 f).trans (h.2 f)⟩

section
variable {m n : Mesh} (h : SameRoutes m n)
include h

theorem SameRoutes.bypassed_eq (x y : Nat) : bypassed n x y = bypassed m x y := by rw [bypassed, bypassed, getPort, getPort, h.1]

theorem SameRoutes.chooseRoute_eq (src dst : Nat) : chooseRoute n src dst = chooseRoute m src dst := by
  simp only [chooseRoute, h.bypassed_eq, h.2]

theorem SameRoutes.unitEntry_eq (u : SideUnit) : unitEntry n u = unitEntry m u := by simp only [unitEntry, h.bypassed_eq]

theorem SameRoutes.unitHbmRouter_eq (u : SideUnit) (p : Nat) : unitHbmRouter n u p = unitHbmRouter m u p := by
  simp only [unitHbmRouter, entryRouter, h.bypassed_eq]

end

/-- A unit's ways to a partition stay with the routes, the partitions in service and the rails. -/
theorem UnitReaches.of_same {s t : State} (hroutes : SameRoutes s.mesh t.mesh) (hbox : t.box = s.box) (hpower : t.power = s.power)
    {u : SideUnit} {p : Nat} (h : UnitReaches s u p) : UnitReaches t u p := by
  obtain ⟨hservice, e, o, yt, hentry, hroute⟩ := h
  refine ⟨?_, e, o, yt, ?_, ?_⟩
  · rw [partInService, hbox, hpower]
    exact hservice
  · rw [hroutes.unitEntry_eq, hentry]
  · rw [hroutes.chooseRoute_eq, hroutes.unitHbmRouter_eq, hroute]

theorem route_modFieldMesh (m : Mesh) (k : Nat) (g : FieldMesh → FieldMesh) (hg : ∀ x, (g x).route = x.route) (f : Nat) :
    (getFieldMesh (modFieldMesh m k g) f).route = (getFieldMesh m f).route := by
  unfold getFieldMesh modFieldMesh
  by_cases hf : f = k
  · rw [hf, smGet_smMod_same, hg]
  · rw [smGet_smMod_other _ _ _ hf]

/-- A refused route is counted, and no route changes. -/
theorem routePacket_mesh (p : Packet) (m : Mesh) :
    (routePacket p m).2.2 = { m with fields := (routePacket p m).2.2.fields } ∧ SameRoutes m (routePacket p m).2.2 := by
  unfold routePacket
  split
  · exact ⟨rfl, .refl m⟩
  · simp only
    split
    · exact ⟨rfl, rfl, route_modFieldMesh m _ _ fun _ => rfl⟩
    · exact ⟨rfl, .refl m⟩

/-- What a unit's access leaves but for the words it is made for: the refusals counted and the grants counted. -/
theorem unitAccess_spec (u : SideUnit) (write : Bool) (job part v n : Nat) (s : State) :
    let r := unitAccess u write job part v n s
    r.2 = { s with
      mesh := { s.mesh with fields := r.2.mesh.fields }, hbm := { s.hbm with grants := r.2.hbm.grants } } ∧
      SameRoutes s.mesh r.2.mesh ∧ (UnitReaches s u part → r.1 = true) := by
  unfold unitAccess
  split
  · rename_i hnone
    refine ⟨rfl, .refl _, fun ⟨_, e, o, yt, hentry, _⟩ => ?_⟩
    simp [unitPacket, hentry] at hnone
  · rename_i p hp
    obtain ⟨hmesh, hsame⟩ := routePacket_mesh p s.mesh
    split
    · rename_i m hroute
      rw [hroute] at hmesh hsame
      simp only at hmesh hsame ⊢
      refine ⟨by rw [hmesh], hsame, fun ⟨_, e, o, yt, hentry, hgo⟩ => ?_⟩
      simp only [unitPacket, hentry, Option.map_some, Option.some.injEq] at hp
      subst hp
      simp only [routePacket, hgo] at hroute
      cases hroute
    · rename_i m hroute
      rw [hroute] at hmesh hsame
      simp only at hmesh hsame ⊢
      split
      · exact ⟨by rw [hmesh], hsame, fun _ => rfl⟩
      · rename_i hservice
        exact ⟨rfl, .refl _, fun hreach => absurd hreach.1 hservice⟩

/-! ### Writes of a side-band unit -/

/-- The frame of what the signal box writes into the partitions: the partitions, the refusals counted, and what events bring. -/
def boxWriteFrame (s t : State) : State :=
  { s with
    mesh := { s.mesh with fields := t.mesh.fields }, hbm := t.hbm, history := t.history, errlog := t.errlog, hosts := t.hosts
    out := t.out }

theorem flushHbm_eq (s : State) : flushHbm s = { s with
    hbm := { s.hbm with events := [] }, history := (flushHbm s).history, errlog := (flushHbm s).errlog, hosts := (flushHbm s).hosts
    out := (flushHbm s).out } := by
  unfold flushHbm
  rw [histEvents_eq]

/-- The partitions after f and after its events have entered the history. -/
theorem atHbm_eq (f : Hbm → Hbm) (s : State) : atHbm f s = { s with
    hbm := { f s.hbm with events := [] }, history := (atHbm f s).history, errlog := (atHbm f s).errlog, hosts := (atHbm f s).hosts
    out := (atHbm f s).out } := by
  unfold atHbm
  rw [flushHbm_eq]

/-- A write at a device address, a multiple of 32: within its frame; the bytes stand there when the unit reaches the partition; the
setup and the words outside their bursts are as they were. -/
theorem unitWriteDev_spec (u : SideUnit) (a : Nat) (l : List Byte) (s : State) (ha : a % 32 = 0) :
    let t := unitWriteDev u a l s
    t = boxWriteFrame s t ∧ SameRoutes s.mesh t.mesh ∧ hbmSetup t.hbm = hbmSetup s.hbm ∧
      (UnitReaches s u (addrPart a) → ∀ k, 8 * (k + 1) ≤ l.length → smGet 0#72 t.hbm.words (a / 8 + k) = bytesWord l k) ∧
      ∀ j, j < a / 8 ∨ a + l.length + 32 ≤ 8 * j → smGet 0#72 t.hbm.words j = smGet 0#72 s.hbm.words j := by
  obtain ⟨hframe, hroutes, hserved⟩ := unitAccess_spec u true boxAccount (addrPart a) a l.length s
  unfold unitWriteDev
  simp only
  generalize unitAccess u true boxAccount (addrPart a) a l.length s = r at hframe hroutes hserved ⊢
  obtain ⟨served, u1⟩ := r
  simp only at hframe hroutes hserved ⊢
  cases served with
  | false =>
    simp only [Bool.false_eq_true, imp_false] at hserved
    simp only [Bool.false_eq_true, if_false]
    refine ⟨by rw [hframe, boxWriteFrame], hroutes, by rw [hframe]; rfl, fun hreach => absurd hreach hserved, fun j _ => by rw [hframe]⟩
  | true =>
    obtain ⟨hsetup, hfull, hother⟩ := devWriteBytes_spec (timeNow s) a l u1.hbm ha
    have hwords : u1.hbm.words = s.hbm.words := by rw [hframe]
    have hsame : hbmSetup u1.hbm = hbmSetup s.hbm := by rw [hframe]; rfl
    simp only [if_true]
    rw [atHbm_eq]
    generalize atHbm _ u1 = u2
    generalize devWriteBytes _ a l u1.hbm = h at hsetup hfull hother ⊢
    refine ⟨by rw [hframe, boxWriteFrame], hroutes, hsetup.trans hsame, fun _ k hk => hfull k hk, fun j hj => ?_⟩
    rw [← hwords, ← hother j hj]

end Sys2Proof.Machine
end

section
/-!
PROOFS. Bring-up (O56): the page map and the RESIDENT section.
-/

namespace Sys2Proof.Machine

/-! ### The page map and the RESIDENT section (R365, R584) -/

/-- The device-reserved entry i: VALID and DEV, with its page. -/
def reservedEntry (i : Nat) : W64 := BitVec.ofNat 64 (2 ^ 63 + 2 ^ 59 + (i / 256 * partPages + partFree + i % 256))

theorem reservedEntries_eq (h : Hbm) : reservedEntries h = { h with
    entries := (List.range 2048).foldl (fun m i => smSet 0#64 m (runLimit + i) (reservedEntry i)) h.entries } := by
  unfold reservedEntries reservedEntry
  rfl

/-- The page map with the device-reserved entries alone. -/
theorem pageEntry_reserved (h : Hbm) (hnone : h.entries = []) (e : Nat) :
    pageEntry (reservedEntries h) e = if e < 196608 ∧ 194560 ≤ e then reservedEntry (e - 194560) else 0#64 := by
  have hread : ∀ (l : List Nat) (m : SMap W64), smGet 0#64 (l.foldl (fun m i => smSet 0#64 m (runLimit + i) (reservedEntry i)) m) e =
      if e ∈ l.map (runLimit + ·) then reservedEntry (e - runLimit) else smGet 0#64 m e := by
    intro l m
    rw [← smGet_foldl_smSet 0#64 (fun k => reservedEntry (k - runLimit)) (l.map (runLimit + ·)), List.foldl_map]
    simp only [Nat.add_sub_cancel_left]
  have hmem : e ∈ (List.range 2048).map (runLimit + ·) ↔ e < 196608 ∧ 194560 ≤ e := by
    simp only [List.mem_map, List.mem_range, runLimit]
    constructor
    · rintro ⟨i, hi, rfl⟩
      omega
    · exact fun ⟨hlt, hle⟩ => ⟨e - 194560, by omega, by omega⟩
  rw [reservedEntries_eq, pageEntry, hread, hnone]
  simp only [hmem]
  rfl

/-- The first device address of the RESIDENT section in partition p. -/
def residentAddr (p : Nat) : Nat := p * partBytes + partFree * 0x400000 + 656 * 0x100000

theorem residentAddr_eq (p : Nat) : residentAddr p = p * 103079215104 + 102693339136 := by
  have hoffset : partFree * 0x400000 + 656 * 0x100000 = 102693339136 := by decide
  have hbytes : partBytes = 103079215104 := by decide
  rw [residentAddr, Nat.add_assoc, hoffset, hbytes]

theorem addrPart_residentAddr (p : Nat) : addrPart (residentAddr p) = p := by
  rw [addrPart, residentAddr_eq, partBytes]; omega

/-- One partition gets the RESIDENT section. -/
def writeResident (b : List Byte) (s : State) (p : Nat) : State := unitWriteDev (boxUnit s) (residentAddr p) b s

/-- The page map and the refresh rate as glaze firing sets them. -/
def glazeStart (s : State) : State :=
  { s with hbm := reservedEntries { s.hbm with entries := [], runs := [], rate := (imageVals s).hbmRate } }

/-- Glaze firing begins with the partitions alone. -/
theorem glazeStart_eq (s : State) : ∃ h, glazeStart s = { s with hbm := h } := ⟨_, rfl⟩

theorem glazeHbm_fold (s : State) : glazeHbm s = (List.range 8).foldl (writeResident (residentBytes s)) (glazeStart s) := by
  unfold glazeHbm glazeStart writeResident residentAddr
  rfl

/-- What the writes of the RESIDENT section keep of a state. -/
def ResidentKept (s t : State) : Prop := t = boxWriteFrame s t ∧ SameRoutes s.mesh t.mesh ∧ hbmSetup t.hbm = hbmSetup s.hbm

section
variable {s t : State} (h : ResidentKept s t)
include h

theorem ResidentKept.boot_eq : t.boot = s.boot := by rw [h.1]; rfl
theorem ResidentKept.box_eq : t.box = s.box := by rw [h.1]; rfl
theorem ResidentKept.power_eq : t.power = s.power := by rw [h.1]; rfl

end

theorem ResidentKept.refl (s : State) : ResidentKept s s := ⟨rfl, .refl _, rfl⟩

theorem writeResident_keeps (b : List Byte) {s t : State} (p : Nat) (h : ResidentKept s t) : ResidentKept s (writeResident b t p) := by
  obtain ⟨hframe, hroutes, hsetup⟩ := h
  obtain ⟨hframe', hroutes', hsetup', -, -⟩ := unitWriteDev_spec (boxUnit t) (residentAddr p) b t (by rw [residentAddr_eq]; omega)
  refine ⟨?_, hroutes.trans hroutes', hsetup'.trans hsetup⟩
  unfold writeResident
  generalize unitWriteDev _ _ b t = u at hframe' ⊢
  rw [hframe', hframe]
  rfl

/-- The writes of the RESIDENT section keep all but their frame. -/
theorem glazeHbm_keeps (s : State) : ResidentKept (glazeStart s) (glazeHbm s) := by
  rw [glazeHbm_fold]
  exact List.foldlRecOn (motive := ResidentKept (glazeStart s)) (List.range 8) (writeResident (residentBytes s)) (.refl _)
    fun t ht p _ => writeResident_keeps _ p ht

/-- The RESIDENT section stands in every partition that the signal box reaches. -/
theorem glazeHbm_resident (s : State) {p k : Nat} (hp : p < 8) (hreach : UnitReaches s (boxUnit s) p)
    (hk : 8 * (k + 1) ≤ (residentBytes s).length) (hlen : (residentBytes s).length ≤ 32 * 2 ^ 20) :
    smGet 0#72 (glazeHbm s).hbm.words (residentAddr p / 8 + k) = bytesWord (residentBytes s) k := by
  have haddr := residentAddr_eq
  rw [glazeHbm_fold, foldl_writes_at (ResidentKept (glazeStart s)) (fun t => smGet 0#72 t.hbm.words (residentAddr p / 8 + k))
    (writeResident (residentBytes s)) p (bytesWord (residentBytes s) k) (fun t q ht => writeResident_keeps _ q ht)
    (fun t q _ hq => ?_) (fun t ht => ?_) _ _ (.refl _), if_pos (List.mem_range.mpr hp)]
  · obtain ⟨-, -, -, -, hother⟩ := unitWriteDev_spec (boxUnit t) (residentAddr q) (residentBytes s) t (by rw [haddr]; omega)
    refine hother _ ?_
    rw [haddr, haddr]
    omega
  · obtain ⟨-, -, -, hwrites, -⟩ := unitWriteDev_spec (boxUnit t) (residentAddr p) (residentBytes s) t (by rw [haddr]; omega)
    refine hwrites ?_ k hk
    obtain ⟨h, hstart⟩ := glazeStart_eq s
    rw [hstart] at ht
    rw [addrPart_residentAddr, boxUnit, ht.boot_eq]
    exact hreach.of_same ht.2.1 ht.box_eq ht.power_eq

end Sys2Proof.Machine
end

section
/-!
PROOFS. Bring-up (O56): the timetables and the image's values.
-/

namespace Sys2Proof.Machine

/-! ### The timetables of glaze firing (R350) -/

/-- The arbiters of every field with the default values v. -/
def bankDefaulted (v : ArbVals) (m : SMap ArbBank) : SMap ArbBank :=
  (List.range 8).foldl (fun m f => smMod ArbBank.reset m f (bankDefaults · v)) m

theorem bankDefaulted_effV (v : ArbVals) (m : SMap ArbBank) {f : Nat} (hf : f < 8) :
    (smGet ArbBank.reset (bankDefaulted v m) f).effV = v := by
  unfold bankDefaulted
  rw [smGet_foldl_smMod ArbBank.reset (fun _ b => bankDefaults b v) _ List.nodup_range, if_pos (List.mem_range.mpr hf)]
  rfl

/-- A trunk port with the default values in its arbiter. -/
def trunkDefaulted (t : TPort) : TPort := { t with arb := commitVals t.arb trunkDefault, arbInst := { t.arbInst with gsg := 0 } }

/-- The trunk ports with the default values. -/
def trunksDefaulted (m : SMap TPort) : SMap TPort :=
  (List.range 12).foldl (fun m n => smMod TPort.reset m n trunkDefaulted) m

theorem trunksDefaulted_eff (m : SMap TPort) {n : Nat} (hn : n < 12) : (smGet TPort.reset (trunksDefaulted m) n).arb.eff = trunkDefault := by
  unfold trunksDefaulted
  rw [smGet_foldl_smMod TPort.reset (fun _ => trunkDefaulted) _ List.nodup_range, if_pos (List.mem_range.mpr hn)]
  rfl

/-- The core of a site with the default values in its slab arbiters. -/
def coreDefaulted (s : State) (x : Nat) : State := putCore x (slabDefaults (getCore s x)) s

/-- Setting the slab arbiters changes the cores alone. -/
theorem foldl_coreDefaulted_eq (l : List Nat) (s : State) :
    l.foldl coreDefaulted s = { s with cores := (l.foldl coreDefaulted s).cores } :=
  foldl_frame (fun s t : State => { s with cores := t.cores }) (fun _ => rfl) (fun _ _ _ => rfl) coreDefaulted (fun _ _ => rfl) l s

theorem getCore_foldl_coreDefaulted (l : List Nat) (hl : l.Nodup) (s : State) (x : Nat) :
    getCore (l.foldl coreDefaulted s) x = if x ∈ l then slabDefaults (getCore s x) else getCore s x :=
  foldl_reads (fun _ => True) getCore coreDefaulted (fun _ => slabDefaults) (fun _ _ _ => trivial)
    (fun _ _ _ hj => getCore_putCore_other _ _ hj) l hl (fun _ _ _ _ => getCore_putCore_same ..) s trivial x

/-- The sites of the powered cores. -/
def liveSites (s : State) : List Nat := (List.range 2560).filter (coreLive s)

/-- The shared sets and the trunk sets with the default values. -/
def sharedDefaulted (s : State) : State :=
  { s with
    mesh := { s.mesh with arbs := bankDefaulted routerDefault s.mesh.arbs }
    hbm := { s.hbm with arbs := bankDefaulted hbmDefault s.hbm.arbs }
    trunks := trunksDefaulted s.trunks }

theorem getCore_sharedDefaulted (s : State) (x : Nat) : getCore (sharedDefaulted s) x = getCore s x := by
  simp only [getCore, sharedDefaulted]

theorem glazeArbs_fold (s : State) : glazeArbs s = (liveSites s).foldl coreDefaulted (sharedDefaulted s) := by
  unfold glazeArbs liveSites coreDefaulted sharedDefaulted bankDefaulted trunksDefaulted trunkDefaulted
  rfl

theorem glazeArbs_eq (s : State) : ∃ cores, glazeArbs s = { sharedDefaulted s with cores := cores } ∧
    ∀ x, x < 2560 → coreLive s x = true → smGet Core.reset cores x = slabDefaults (getCore s x) := by
  refine ⟨((liveSites s).foldl coreDefaulted (sharedDefaulted s)).cores, ?_, fun x hx hlive => ?_⟩
  · rw [glazeArbs_fold, foldl_coreDefaulted_eq]
  · have hread := getCore_foldl_coreDefaulted (liveSites s) (List.nodup_range.filter _) (sharedDefaulted s) x
    have hmem : x ∈ liveSites s := List.mem_filter.mpr ⟨List.mem_range.mpr hx, hlive⟩
    rw [if_pos hmem, getCore_sharedDefaulted, getCore] at hread
    exact hread

/-! ### The image's values (R584) -/

/-- Field f's ESC bits of the image. -/
def loadEscs (v : ImageVals) (m : Mesh) (f : Nat) : Mesh :=
  modFieldMesh m f fun x => { x with route := x.route ||| (v.escs.getD f 0#64 &&& 0x0202020202020202#64) }

theorem foldl_loadEscs_eq (v : ImageVals) (l : List Nat) (m : Mesh) :
    l.foldl (loadEscs v) m = { m with fields := (l.foldl (loadEscs v) m).fields } :=
  foldl_frame (fun m n : Mesh => { m with fields := n.fields }) (fun _ => rfl) (fun _ _ _ => rfl) (loadEscs v) (fun _ _ => rfl) l m

/-- The feeds, power manager and meter with the values of the image. -/
theorem glazeValues_eq (s : State) : ∃ fields, glazeValues s =
    let v := imageVals s
    { s with
      mesh := { s.mesh with fields := fields }
      power := { s.power with
        feeds := { s.power.feeds with bLimit := v.bLimit % 65536 }
        pm := { s.power.pm with
          fastPct := v.fastPct % 256, wCol := v.wCol % 65536, wSlab := v.wSlab % 65536, wVec := v.wVec % 65536
          wXfer := v.wXfer % 65536 } }
      meter := { s.meter with hUj := v.meterCfg / 2 ^ 32 % 65536, attrPpm := v.meterCfg % 2 ^ 32, cert := padTo 4096 v.cert } } := by
  refine ⟨((List.range 8).foldl (loadEscs (imageVals s)) s.mesh).fields, ?_⟩
  have hmesh := foldl_loadEscs_eq (imageVals s) (List.range 8) s.mesh
  unfold glazeValues
  unfold loadEscs at hmesh ⊢
  simp only
  rw [hmesh]

end Sys2Proof.Machine
end

section
/-!
PROOFS. Bring-up (O56): the module after glaze firing.
-/

namespace Sys2Proof.Machine

/-! ### Glaze firing -/

/-- The power state with the image's values (R584). -/
def glazedPower (v : ImageVals) (p : Power) : Power :=
  { p with
    feeds := { p.feeds with bLimit := v.bLimit % 65536 }
    pm := { p.pm with
      fastPct := v.fastPct % 256, wCol := v.wCol % 65536, wSlab := v.wSlab % 65536, wVec := v.wVec % 65536
      wXfer := v.wXfer % 65536 } }

/-- The meter with the image's values (R584). -/
def glazedMeter (v : ImageVals) (m : Meter) : Meter :=
  { m with hUj := v.meterCfg / 2 ^ 32 % 65536, attrPpm := v.meterCfg % 2 ^ 32, cert := padTo 4096 v.cert }

/-- What the writes of the RESIDENT section leave, within their frame. -/
theorem glazeHbm_eq (s : State) : ∃ fields history errlog hosts out, glazeHbm s = { s with
    mesh := { s.mesh with fields := fields }, hbm := (glazeHbm s).hbm, history := history, errlog := errlog, hosts := hosts
    out := out } := by
  obtain ⟨hframe, -, -⟩ := glazeHbm_keeps s
  obtain ⟨h, hstart⟩ := glazeStart_eq s
  rw [hstart] at hframe
  exact ⟨_, _, _, _, _, hframe⟩

theorem updateSpares_only (s : State) : ∃ spares, updateSpares s = { s with box := { s.box with spares := spares } } := ⟨_, rfl⟩

/-- The module after glaze firing, field by field; f is the partitions once the RESIDENT section is written. -/
theorem glaze_eq (s : State) : ∃ fields cores spares history errlog hosts out,
    glaze s = { s with
      mesh := { s.mesh with fields := fields, arbs := bankDefaulted routerDefault s.mesh.arbs }
      hbm := { (glazeHbm s).hbm with arbs := bankDefaulted hbmDefault (glazeHbm s).hbm.arbs }
      trunks := trunksDefaulted s.trunks
      cores := cores
      power := glazedPower (imageVals s) s.power
      meter := glazedMeter (imageVals s) s.meter
      box := { s.box with spares := spares }
      queues := { s.queues with states := [] }
      boot := { s.boot with glazed := true }
      history := history, errlog := errlog, hosts := hosts, out := out } ∧
    ∀ x, x < 2560 → coreLive s x = true → smGet Core.reset cores x = slabDefaults (getCore s x) := by
  obtain ⟨fields, history, errlog, hosts, out, hhbm⟩ := glazeHbm_eq s
  obtain ⟨cores, harbs, hcores⟩ := glazeArbs_eq (glazeHbm s)
  obtain ⟨fields', hvals⟩ := glazeValues_eq (glazeArbs (glazeHbm s))
  unfold glaze
  generalize glazeHbm s = g at hhbm harbs hvals hcores ⊢
  generalize g.hbm = h at hhbm ⊢
  subst hhbm
  generalize glazeArbs _ = a at harbs hvals ⊢
  subst harbs
  generalize glazeValues _ = b at hvals ⊢
  obtain ⟨spares, hspares⟩ := updateSpares_only { b with
    queues := { b.queues with states := [] }, boot := { b.boot with glazed := true } }
  rw [hspares]
  subst hvals
  refine ⟨fields', cores, spares, history, errlog, hosts, out, ?_, fun x hx hlive => hcores x hx hlive⟩
  simp only [sharedDefaulted, glazedPower, glazedMeter, imageVals]

end Sys2Proof.Machine
end

section
/-!
PROOFS. Bring-up (O56): what glaze firing leaves.
-/

namespace Sys2Proof.Machine

/-! ### What glaze firing leaves (R584) -/

theorem glazeFiring_glazes (s : State) (hphase : s.boot.phase = 7) (hglazed : s.boot.glazed = false) :
    exec .glazeFiring s = .next (glaze s) :=
  next_of_guard rfl ⟨hphase, by simp [hglazed]⟩

theorem glaze_boot (s : State) : (glaze s).boot = { s.boot with glazed := true } := by
  obtain ⟨_, _, _, _, _, _, _, heq, -⟩ := glaze_eq s
  rw [heq]

theorem glaze_queues (s : State) : (glaze s).queues = { s.queues with states := [] } := by
  obtain ⟨_, _, _, _, _, _, _, heq, -⟩ := glaze_eq s
  rw [heq]

theorem glaze_jobs (s : State) : (glaze s).jobs = s.jobs := by
  obtain ⟨_, _, _, _, _, _, _, heq, -⟩ := glaze_eq s
  rw [heq]

theorem glaze_clock (s : State) : (glaze s).clock = s.clock := by
  obtain ⟨_, _, _, _, _, _, _, heq, -⟩ := glaze_eq s
  rw [heq]

theorem glaze_power (s : State) : (glaze s).power = glazedPower (imageVals s) s.power := by
  obtain ⟨_, _, _, _, _, _, _, heq, -⟩ := glaze_eq s
  rw [heq]

theorem glaze_meter (s : State) : (glaze s).meter = glazedMeter (imageVals s) s.meter := by
  obtain ⟨_, _, _, _, _, _, _, heq, -⟩ := glaze_eq s
  rw [heq]

theorem glaze_trunks (s : State) : (glaze s).trunks = trunksDefaulted s.trunks := by
  obtain ⟨_, _, _, _, _, _, _, heq, -⟩ := glaze_eq s
  rw [heq]

theorem glaze_meshArbs (s : State) : (glaze s).mesh.arbs = bankDefaulted routerDefault s.mesh.arbs := by
  obtain ⟨_, _, _, _, _, _, _, heq, -⟩ := glaze_eq s
  rw [heq]

/-- The partitions after glaze firing: those with the RESIDENT section, their arbiters at the defaults. -/
theorem glaze_hbm (s : State) :
    (glaze s).hbm = { (glazeHbm s).hbm with arbs := bankDefaulted hbmDefault (glazeHbm s).hbm.arbs } := by
  obtain ⟨_, _, _, _, _, _, _, heq, -⟩ := glaze_eq s
  rw [heq]

theorem glaze_hbmArbs (s : State) : (glaze s).hbm.arbs = bankDefaulted hbmDefault (glazeHbm s).hbm.arbs := by
  rw [glaze_hbm]

theorem glaze_cores (s : State) {x : Nat} (hx : x < 2560) (hlive : coreLive s x = true) :
    getCore (glaze s) x = slabDefaults (getCore s x) := by
  obtain ⟨_, _, _, _, _, _, _, heq, hcores⟩ := glaze_eq s
  rw [heq]
  exact hcores x hx hlive

theorem entries_of_hbmSetup {g h : Hbm} (heq : hbmSetup g = hbmSetup h) : g.entries = h.entries := congrArg (·.1) heq

theorem rate_of_hbmSetup {g h : Hbm} (heq : hbmSetup g = hbmSetup h) : g.rate = h.rate := congrArg (·.2.1) heq

/-- The reserved entries and the refresh rate outlive the writes of the RESIDENT section. -/
theorem glazeHbm_setup (s : State) : hbmSetup (glazeHbm s).hbm = hbmSetup (glazeStart s).hbm := (glazeHbm_keeps s).2.2

theorem glaze_pageEntry (s : State) (e : Nat) :
    pageEntry (glaze s).hbm e = if e < 196608 ∧ 194560 ≤ e then reservedEntry (e - 194560) else 0#64 := by
  have hentries := entries_of_hbmSetup (glazeHbm_setup s)
  rw [glaze_hbm, ← pageEntry_reserved { s.hbm with entries := [], runs := [], rate := (imageVals s).hbmRate } rfl e, pageEntry,
    pageEntry]
  simp only
  rw [hentries, glazeStart]

theorem glaze_rate (s : State) : (glaze s).hbm.rate = (imageVals s).hbmRate := by
  rw [glaze_hbm, rate_of_hbmSetup (glazeHbm_setup s), glazeStart, reservedEntries_eq]

/-- Every shared set holds its default values. -/
theorem glaze_arbs (s : State) (f : Nat) (hf : f < 8) :
    (smGet ArbBank.reset (glaze s).mesh.arbs f).effV = routerDefault ∧ (smGet ArbBank.reset (glaze s).hbm.arbs f).effV = hbmDefault := by
  rw [glaze_meshArbs, glaze_hbmArbs]
  exact ⟨bankDefaulted_effV routerDefault _ hf, bankDefaulted_effV hbmDefault _ hf⟩

/-- Every trunk set holds its default values. -/
theorem glaze_trunkArbs (s : State) (n : Nat) (hn : n < 12) : (getTrunk (glaze s) n).arb.eff = trunkDefault := by
  rw [getTrunk, glaze_trunks]
  exact trunksDefaulted_eff _ hn

/-- Every powered core's slab arbiters hold the default values, at the start of a count. -/
theorem glaze_slabArbs (s : State) (x : Nat) (hx : x < 2560) (hlive : coreLive s x = true) :
    let c := getCore (glaze s) x
    c.arbRd.eff = rdDefault ∧ c.arbWr.eff = wrDefault ∧ c.rd.gsg = 0 ∧ c.wr.gsg = 0 := by
  rw [glaze_cores s hx hlive]
  exact ⟨rfl, rfl, rfl, rfl⟩

/-- The registers that take a value of the image. -/
theorem glaze_values (s : State) :
    let v := imageVals s
    let t := glaze s
    t.hbm.rate = v.hbmRate ∧ t.power.feeds = { s.power.feeds with bLimit := v.bLimit % 65536 } ∧
      t.power.pm.fastPct = v.fastPct % 256 ∧ t.power.pm.wCol = v.wCol % 65536 ∧ t.power.pm.wSlab = v.wSlab % 65536 ∧
      t.power.pm.wVec = v.wVec % 65536 ∧ t.power.pm.wXfer = v.wXfer % 65536 ∧ t.meter.hUj = v.meterCfg / 2 ^ 32 % 65536 ∧
      t.meter.attrPpm = v.meterCfg % 2 ^ 32 ∧ t.meter.cert = padTo 4096 v.cert := by
  simp only [glaze_power, glaze_meter]
  exact ⟨glaze_rate s, rfl, rfl, rfl, rfl, rfl, rfl, rfl, rfl, rfl⟩

theorem reservedEntry_device (i : Nat) :
    reservedEntry i = BitVec.ofNat 64 (2 ^ 63 + 2 ^ 59 + (i / 256 * 24576 + 24320 + i % 256)) := by
  have hpages : partPages = 24576 := by decide
  have hfree : partFree = 24320 := by decide
  rw [reservedEntry, hpages, hfree]

theorem glaze_unreserved (s : State) {e : Nat} (he : e < 194560) : pageEntry (glaze s).hbm e = 0#64 := by
  rw [glaze_pageEntry, if_neg (by omega)]

theorem glaze_reserved (s : State) {i : Nat} (hi : i < 2048) :
    pageEntry (glaze s).hbm (194560 + i) = BitVec.ofNat 64 (2 ^ 63 + 2 ^ 59 + (i / 256 * 24576 + 24320 + i % 256)) := by
  rw [glaze_pageEntry, if_pos (by omega), Nat.add_sub_cancel_left, reservedEntry_device]

theorem glaze_resident (s : State) {p k : Nat} (hp : p < 8) (hreach : UnitReaches s (boxUnit s) p)
    (hk : 8 * (k + 1) ≤ (residentBytes s).length) (hlen : (residentBytes s).length ≤ 32 * 2 ^ 20) :
    smGet 0#72 (glaze s).hbm.words (residentAddr p / 8 + k) = bytesWord (residentBytes s) k := by
  have hwords := glazeHbm_resident s hp hreach hk hlen
  rw [glaze_hbm]
  generalize glazeHbm s = t at hwords ⊢
  exact hwords

end Sys2Proof.Machine
end

section
/-!
PROOFS. Bring-up (O56): the statement.
-/

namespace Sys2Proof.Machine

/-! ### Bring-up step by step -/

/-- A signal-box self-test in step 2 takes box A, else box B, else none (R578). -/
theorem signalBoxSelfTest_leaves (s : State) (okA okB : Bool) (hfeed : s.boot.feedGood = true) (hbox : s.boot.box2 = false)
    (hno : s.boot.noBox = false) (hphase : s.boot.phase ≠ 9) :
    ∃ t, exec (.signalBoxSelfTest okA okB) s = .next t ∧ t = { s with boot := t.boot } ∧
      ((okA || okB) = true → t.boot.box2 = true ∧ t.boot.boxB = !okA ∧ t.boot.noBox = false ∧
        t.boot.phase = (if s.tripped || s.clock.lost then 0 else if s.boot.inReset then 1 else 3)) ∧
      ((okA || okB) = false → t.boot = { s.boot with noBox := true }) :=
  ⟨_, signalBoxSelfTest_chooses s okA okB hfeed hbox hno hphase, chooseBox_frame s okA okB,
    fun h => chooseBox_takes s okA okB h hno, fun h => by rw [chooseBox_none s okA okB h]⟩

/-- Settles O56, one lemma for each bring-up command and each of its outcomes. -/
theorem bringUp : Obligations.BringUp := by
  unfold Obligations.BringUp
  intro s
  refine ⟨?_, feedGood_idle s, signalBoxSelfTest_leaves s, signalBoxSelfTest_idle s, ?_, ?_, ?_, fun l => coreSelfTest_idle s l, ?_, ?_, ?_,
    fun h3 h7 => bootStepTimeout_stops s (Or.inl ⟨h3, h7⟩),
    fun h0 hf hb hn => bootStepTimeout_stops s (Or.inr ⟨h0, hf, hb, hn⟩), bootStepTimeout_idle s⟩
  · exact fun x y strap hoff hfeed => ⟨_, feedGood_starts s x y strap hoff hfeed, rfl, rfl, rfl, rfl, rfl, rfl, startFeed_feeds s x y strap⟩
  · exact fun readOk sigOk v hphase =>
      ⟨fun h => ⟨_, imageCheck_accepts s readOk sigOk v hphase h, acceptCopy_spec s _ v⟩,
        imageCheck_rejectsA s readOk sigOk v hphase, imageCheck_stops s readOk sigOk v hphase⟩
  · intro found hphase
    refine ⟨fun hmesh => bisqueFiring_stops_rail s found hphase (Or.inl hmesh),
      fun _ hrails => bisqueFiring_stops_rail s found hphase (Or.inr hrails), fun hmesh hrails => ?_⟩
    refine ⟨bisqueFiring_stops_pll hphase hmesh hrails, fun hpll => ⟨bisqueFiring_stops_wire hphase hmesh hrails hpll,
      bisqueFiring_stops_edge hphase hmesh hrails hpll, fun hwire hcut => ?_⟩⟩
    exact bisqueFiring_leaves s found (bisqueFiring_done hphase hmesh hrails hpll hwire hcut)
  · exact fun hphase hwave => ⟨coreSelfTest_passes s hphase hwave, coreSelfTest_fails s hphase hwave⟩
  · exact fun hphase hout hfield => ⟨hbmTraining_all hout hfield hphase, fun temps k l => hbmTraining_one hout hfield hphase temps l,
      fun temps k l k' l' => hbmTraining_stops hout hfield hphase temps l l'⟩
  · exact fun hphase hglazed => ⟨glaze s, glazeFiring_glazes s hphase hglazed, glaze_boot s, glaze_queues s, glaze_jobs s, glaze_clock s,
      fun e => glaze_unreserved s, fun i => glaze_reserved s, glaze_arbs s, glaze_trunkArbs s, glaze_slabArbs s,
      fun p k hp hreach hk hlen => glaze_resident s hp hreach hk hlen, glaze_values s⟩
  · exact fun ms hphase hglazed => ⟨_, ready_becomes s ms hphase hglazed, rfl, rfl, rfl, rfl, rfl⟩

end Sys2Proof.Machine
end

section
/-!
PROOFS. Monitors, witness tests and instruction banks (O19).
-/

namespace Sys2Proof.Machine

/-! ### A load of an instruction bank -/

/-- A load of the active bank counts a refusal and changes no word (R195). -/
theorem loadImem_active (pos : Nat) (word : W64) (c : Core) :
    loadImem c.stream.bankB pos word c =
      { c with stream := { c.stream with imemRefused := min 65535 (c.stream.imemRefused + 1) } } := by
  simp [loadImem, imemActive, sat16, satAdd]

theorem loadImem_bankA (pos : Nat) (word : W64) {c : Core} (h : c.stream.bankB = true) :
    loadImem false pos word c = { c with stream := { c.stream with imemA := smSet imemEmpty c.stream.imemA pos word } } := by
  simp [loadImem, imemActive, h]

theorem loadImem_bankB (pos : Nat) (word : W64) {c : Core} (h : c.stream.bankB = false) :
    loadImem true pos word c = { c with stream := { c.stream with imemB := smSet imemEmpty c.stream.imemB pos word } } := by
  simp [loadImem, imemActive, h]

section
variable {bank : Bool} {c : Core}

theorem loadImem_frame (pos : Nat) (word : W64) (h : bank ≠ c.stream.bankB) :
    loadImem bank pos word c = { c with stream := { c.stream with
      imemA := (loadImem bank pos word c).stream.imemA, imemB := (loadImem bank pos word c).stream.imemB } } := by
  cases bank with
  | false => rw [loadImem_bankA pos word (Bool.eq_true_of_not_eq_false h.symm)]
  | true => rw [loadImem_bankB pos word (Bool.eq_false_of_not_eq_true h.symm)]

/-- A load of the inactive bank leaves every word that the core fetches (R195). -/
theorem fetchWord_loadImem (pos : Nat) (word : W64) (h : bank ≠ c.stream.bankB) (n : Nat) :
    fetchWord (loadImem bank pos word c).stream n = fetchWord c.stream n := by
  cases bank with
  | false =>
    have hb : c.stream.bankB = true := Bool.eq_true_of_not_eq_false h.symm
    rw [loadImem_bankA pos word hb]
    simp [fetchWord, hb]
  | true =>
    have hb : c.stream.bankB = false := Bool.eq_false_of_not_eq_true h.symm
    rw [loadImem_bankB pos word hb]
    simp [fetchWord, hb]

/-- Once the loaded bank is active, the core fetches the loaded word at its position and what stood elsewhere in that bank (R196). -/
theorem fetchWord_switched_loadImem (pos : Nat) (word : W64) (h : bank ≠ c.stream.bankB) (n : Nat) :
    fetchWord { (loadImem bank pos word c).stream with bankB := bank } n =
      if n = pos then word else fetchWord { c.stream with bankB := bank } n := by
  cases bank with
  | false =>
    rw [loadImem_bankA pos word (Bool.eq_true_of_not_eq_false h.symm)]
    exact smGet_smSet imemEmpty c.stream.imemA pos n word
  | true =>
    rw [loadImem_bankB pos word (Bool.eq_false_of_not_eq_true h.symm)]
    exact smGet_smSet imemEmpty c.stream.imemB pos n word

end

/-! ### The commands -/

section
variable {site : Nat} (s : State)

/-- IMEM_LOAD loads the core, and answers IMEM_ACTIVE where the bank is the active one (R195). -/
theorem imemLoad_next (hsite : siteOk site = true) (bank : Bool) {pos : Nat} (word : W64) (hpos : pos < 8192) :
    exec (.imemLoad site bank pos word) s =
      .next (emit (if imemActive bank (getCore s site) then [.imemActive site] else []) (atCore site (loadImem bank pos word) s)) := by
  have hok : instrOk (.imemLoad site bank pos word) = true := by simp [instrOk, hsite, hpos]
  change execImemLoad site bank pos word s = _
  rw [execImemLoad, hok]
  rfl

theorem imemLoad_inactive (hsite : siteOk site = true) {bank : Bool} {pos : Nat} (word : W64) (hpos : pos < 8192)
    (hbank : bank ≠ (getCore s site).stream.bankB) :
    exec (.imemLoad site bank pos word) s = .next (atCore site (fun _ => loadImem bank pos word (getCore s site)) s) := by
  have hidle : imemActive bank (getCore s site) = false := decide_eq_false hbank.symm
  rw [imemLoad_next s hsite bank word hpos, hidle]
  simp [emit, atCore]

theorem imemLoad_refused (hsite : siteOk site = true) {pos : Nat} (word : W64) (hpos : pos < 8192) :
    exec (.imemLoad site (getCore s site).stream.bankB pos word) s =
      .next (emit [.imemActive site] (atCore site (fun _ => { getCore s site with stream := { (getCore s site).stream with
        imemRefused := min 65535 ((getCore s site).stream.imemRefused + 1) } }) s)) := by
  have hactive : imemActive (getCore s site).stream.bankB (getCore s site) = true := decide_eq_true rfl
  rw [imemLoad_next s hsite _ word hpos, hactive, ← loadImem_active pos word]
  rfl

end

/-- Settles O19: the three monitor and witness commands and SWITCH are each one update of the core; a load of an instruction bank
lands in the inactive bank alone, or counts and answers its refusal. -/
theorem monitorsTestsAndBanks : Obligations.MonitorsTestsAndBanks := by
  unfold Obligations.MonitorsTestsAndBanks
  intro site s hsite
  refine ⟨onCore_next site _ s hsite, onCore_next site _ s hsite, onCore_next site _ s hsite,
    fun v => onCore_next site _ s hsite, ?_, fun pos word hpos => imemLoad_refused s hsite word hpos⟩
  intro bank pos word hpos hbank
  exact ⟨loadImem bank pos word (getCore s site), imemLoad_inactive s hsite word hpos hbank, fetchWord_loadImem pos word hbank,
    fetchWord_switched_loadImem pos word hbank, loadImem_frame pos word hbank⟩

end Sys2Proof.Machine
end

section
/-!
PROOFS. The matrix engine (O16): a command on one core, the head of a queue, completions and first faults.
-/

namespace Sys2Proof.Machine

/-- A command on one core answers with the core that its meaning makes. -/
theorem coreNext_of_onCore {site : Nat} {s : State} {i : Instr} {f : Core → Core} {P : Core → Prop} (hsite : siteOk site = true)
    (hexec : exec i s = onCore site f s) (hP : P (f (getCore s site))) :
    ∃ c', exec i s = .next (atCore site (fun _ => c') s) ∧ P c' := by
  refine ⟨f (getCore s site), ?_, hP⟩
  rw [hexec, onCore_next site f s hsite]
  rfl

/-! ### The head of a queue -/

section
variable {c c1 : Core} {e : Engine} {st : Started}

/-- A command that names the instruction at the head of a queue starts it. -/
theorem HeadStarts.takeHead_eq (h : HeadStarts c e st c1) {ok : CoreOp → Bool} (hok : ok st.entry.insn.op = true) :
    takeHead c e ok = some (st, c1) := by
  obtain ⟨rest, hq, -, hmay, hfree, hadmits, hgen, hc1⟩ := takeHead_some c e _ st c1 h
  obtain ⟨entry, gen⟩ := st
  simp only at hq hok hfree hadmits hgen
  simp [takeHead, hq, hmay, hok, hfree, hadmits, hgen, hc1]

/-- A start keeps what leaving the queue and taking the admission keep. -/
theorem HeadStarts.keeps {γ : Type} (h : HeadStarts c e st c1) (p : Core → γ)
    (hp : ∀ w rest, p (setQueue (admitWait c w) e rest) = p c) : p c1 = p c := by
  obtain ⟨rest, -, -, -, -, -, -, rfl⟩ := takeHead_some c e _ st c1 h
  exact hp _ rest

theorem HeadStarts.matrix_eq (h : HeadStarts c e st c1) : c1.matrix = c.matrix := h.keeps Core.matrix (by simp)

theorem HeadStarts.vec_eq (h : HeadStarts c e st c1) : c1.vec = c.vec := h.keeps Core.vec (by simp)

theorem HeadStarts.stream_eq (h : HeadStarts c e st c1) : c1.stream = c.stream := h.keeps Core.stream (by simp)

theorem HeadStarts.started_eq (h : HeadStarts c e st c1) : c1.started = c.started := h.keeps Core.started (by simp)

theorem HeadStarts.cc_eq (h : HeadStarts c e st c1) : c1.cc = c.cc := h.keeps Core.cc (by simp)

theorem HeadStarts.getV_eq (h : HeadStarts c e st c1) (n : Nat) : getV c1 n = getV c n := by rw [getV, h.vec_eq, getV]

end

/-! ### Completions and faults -/

theorem postField_frame (c : Core) (p : BitVec 8) :
    postField c p = { c with sync := { c.sync with slots := (postField c p).sync.slots } } := by
  unfold postField
  split <;> rfl

theorem releaseWait_frame (c : Core) (w : BitVec 8) (g : Nat) :
    releaseWait c w g = { c with sync := { c.sync with slots := (releaseWait c w g).sync.slots } } := by
  unfold releaseWait releaseSlot
  split
  · rfl
  · split <;> rfl

/-- A completion changes nothing but slots (R156). -/
theorem completeEntry_frame (c : Core) (st : Started) :
    completeEntry c st = { c with sync := { c.sync with slots := (completeEntry c st).sync.slots } } := by
  unfold completeEntry
  rw [postField_frame, releaseWait_frame]

theorem getSlot_postField (c : Core) (p : BitVec 8) (n : Nat) :
    getSlot (postField c p) n = { getSlot c n with posts := (getSlot c n).posts + oneOf p n } := by
  unfold postField
  by_cases hp : p = 0xFF#8
  · simp [hp, oneOf]
  · by_cases hn : n = p.toNat
    · simp [hp, hn, oneOf, postSlot]
    · simp [hp, hn, oneOf, postSlot, getSlot_setSlot_other _ _ hn]

theorem getSlot_releaseWait (c : Core) (w : BitVec 8) (g n : Nat) :
    getSlot (releaseWait c w g) n =
      { getSlot c n with releases := (getSlot c n).releases + if (getSlot c n).gen = g then oneOf w n else 0 } := by
  unfold releaseWait
  by_cases hw : w = 0xFF#8
  · simp [hw, oneOf]
  · by_cases hn : n = w.toNat
    · subst hn
      by_cases hg : (getSlot c w.toNat).gen = g <;> simp [hw, hg, oneOf, releaseSlot]
    · by_cases hg : (getSlot c w.toNat).gen = g <;>
        simp [hw, hn, hg, oneOf, releaseSlot, getSlot_setSlot_other _ _ hn]

/-- A completion posts and releases what `Completed` says (R156, R171, R173, R174). -/
theorem completed_completeEntry (c : Core) (st : Started) : Completed c (completeEntry c st) st := by
  intro n
  unfold completeEntry
  rw [getSlot_postField, getSlot_releaseWait]
  rfl

/-- The first fault of a core is recorded, reported, and nothing else (R198, R199). -/
theorem faults_entryFault {c : Core} (code : FaultCode) (q : QEntry) (h : c.stream.fault = none) :
    Faults c (entryFault c code q) code (opEngine q.insn.op) q.pc q.icount := by
  simp [Faults, entryFault, coreFault, h, sendPkts, faultReport]

/-- A command on one core that starts the head of a queue and faults on it. -/
theorem coreFaults_of_onCore {site : Nat} {s : State} {i : Instr} {f : Core → Core} {e : Engine} {st : Started} {c1 b : Core}
    {code : FaultCode} (hsite : siteOk site = true) (h : HeadStarts (getCore s site) e st c1) (hexec : exec i s = onCore site f s)
    (hf : f (getCore s site) = entryFault b code st.entry) (hb : b.stream = c1.stream) (heng : opEngine st.entry.insn.op = e)
    (hnone : (getCore s site).stream.fault = none) :
    ∃ c', exec i s = .next (atCore site (fun _ => c') s) ∧ Faults b c' code e st.entry.pc st.entry.icount := by
  refine coreNext_of_onCore hsite hexec ?_
  rw [hf, ← heng]
  exact faults_entryFault code st.entry (by rw [hb, h.stream_eq, hnone])

end Sys2Proof.Machine
end

section
/-!
PROOFS. The matrix engine (O16): what the instruction at the head of the matrix queue does when it starts.
-/

namespace Sys2Proof.Machine

section
variable {c c1 : Core} {st : Started} (h : HeadStarts c .matrix st c1)
include h

/-! ### MMODE -/

theorem startMmode_eq {a w : BitVec 4} (hop : st.entry.insn.op = .mmode a w) : startMmode c = runMmode st a w c1 := by
  simp [startMmode, h.takeHead_eq, hop, opByte]

/-- A pair of Table 2.5 is the mode, and both buffers are invalid (R79, R80). -/
theorem startMmode_allowed {a w : BitVec 4} (hop : st.entry.insn.op = .mmode a w) {wt at_ : EType} (hw : etypeOfCode w.toNat = some wt)
    (ha : etypeOfCode a.toNat = some at_) (hpair : pairOk wt at_ = true) :
    startMmode c = completeEntry (setMx c1 { c.matrix with
      mode := some (wt, at_), front := { c.matrix.front with valid := false }, back := { c.matrix.back with valid := false } }) st := by
  rw [startMmode_eq h hop, ← h.matrix_eq]
  simp [runMmode, hw, ha, hpair]

theorem startMmode_otherPair {a w : BitVec 4} (hop : st.entry.insn.op = .mmode a w) {wt at_ : EType}
    (hw : etypeOfCode w.toNat = some wt) (ha : etypeOfCode a.toNat = some at_) (hpair : pairOk wt at_ = false) :
    startMmode c = entryFault c1 .modePair st.entry := by
  rw [startMmode_eq h hop]
  simp [runMmode, hw, ha, hpair]

theorem startMmode_noType {a w : BitVec 4} (hop : st.entry.insn.op = .mmode a w)
    (hnone : etypeOfCode w.toNat = none ∨ etypeOfCode a.toNat = none) : startMmode c = entryFault c1 .modePair st.entry := by
  rw [startMmode_eq h hop, runMmode]
  split
  · next wt at_ hw ha => simp [hw, ha] at hnone
  · rfl

/-! ### MLOAD -/

theorem startMload_eq {an : BitVec 5} {pi : BitVec 2} {k : BitVec 10} {rm : BitVec 16} (hop : st.entry.insn.op = .mload an pi k rm) :
    startMload c = runMload st k rm c1 := by
  simp [startMload, h.takeHead_eq, hop, opByte]

section
variable {an : BitVec 5} {pi : BitVec 2} {k : BitVec 10} {rm : BitVec 16} (hop : st.entry.insn.op = .mload an pi k rm)
include hop

/-- An MLOAD within the slab has all its rows to read (R83). -/
theorem startMload_inRange {wt at_ : EType} (hmode : c.matrix.mode = some (wt, at_)) (hbase : st.entry.ra.value.toNat + 31 < 24576) :
    startMload c = setMx c1 { c.matrix with
      back := { c.matrix.back with valid := false }
      load := some { st := st, base := st.entry.ra.value.toNat, k := min k.toNat (etypeLanes wt), rowMask := rm, nread := 0 } } := by
  rw [startMload_eq h hop, runMload]
  simp only [h.matrix_eq, hmode, slabRows, ge_iff_le, if_neg (Nat.not_le.mpr hbase)]
  rfl

theorem startMload_pastSlab {wt at_ : EType} (hmode : c.matrix.mode = some (wt, at_)) (hbase : 24576 ≤ st.entry.ra.value.toNat + 31) :
    startMload c = entryFault (setMx c1 { c.matrix with back := { c.matrix.back with valid := false } }) .slabRange st.entry := by
  rw [startMload_eq h hop]
  simp [runMload, h.matrix_eq, hmode, slabRows, hbase]

theorem startMload_noMode (hmode : c.matrix.mode = none) :
    startMload c = entryFault (setMx c1 { c.matrix with back := { c.matrix.back with valid := false } }) .modeMismatch st.entry := by
  rw [startMload_eq h hop]
  simp [runMload, h.matrix_eq, hmode]

end

/-! ### MDRAIN, MSTREAM and MCLEAR -/

theorem startMdrain_eq {vb : BitVec 6} {clr : BitVec 1} {g0 ng : BitVec 6} {r0 nr : BitVec 4}
    (hop : st.entry.insn.op = .mdrain vb clr g0 ng r0 nr) :
    startMdrain st.entry.icount c =
      runMdrain st vb.toNat (decide (clr = 1#1)) g0.toNat (ng.toNat + 1) r0.toNat (nr.toNat + 1) c1 := by
  simp [startMdrain, h.takeHead_eq, hop, opByte]

theorem startMclear_eq {tiles : BitVec 16} (hop : st.entry.insn.op = .mclear tiles) : startMclear c = runMclear st tiles c1 := by
  simp [startMclear, h.takeHead_eq, hop, opByte]

/-- MCLEAR of no tile completes at once (R103). -/
theorem startMclear_none {tiles : BitVec 16} (hop : st.entry.insn.op = .mclear tiles) (htiles : tiles = 0#16) :
    startMclear c = completeEntry c1 st := by
  rw [startMclear_eq h hop, runMclear, if_pos htiles]

theorem startMclear_some {tiles : BitVec 16} (hop : st.entry.insn.op = .mclear tiles) (htiles : tiles ≠ 0#16) :
    startMclear c = { c1 with started := c.started ++ [st], matrix := clearTiles tiles c.matrix } := by
  rw [startMclear_eq h hop, runMclear, if_neg htiles, ← h.matrix_eq, ← h.started_eq]
  rfl

theorem startMstream_eq {an : BitVec 5} {pi : BitVec 2} {flip : BitVec 1} {c0 : BitVec 11} {n : BitVec 12}
    (hop : st.entry.insn.op = .mstream an pi flip c0 n) :
    startMstream c = runMstream st (decide (flip = 1#1)) c0.toNat n.toNat c1 := by
  simp [startMstream, h.takeHead_eq, hop, opByte]

end

/-! ### MSTREAM under its limits and past them -/

/-- The matrix engine as an MSTREAM starts with it: its buffers exchanged with FLIP, the new back buffer invalid (R88). -/
def streamBuffers (flip : BitVec 1) (m : Matrix) : Matrix :=
  { m with
    front := if flip = 1#1 then m.back else m.front
    back := if flip = 1#1 then { m.front with valid := false } else m.back }

section
variable {c c1 : Core} {st : Started} (h : HeadStarts c .matrix st c1)
  {an : BitVec 5} {pi : BitVec 2} {flip : BitVec 1} {c0 : BitVec 11} {n : BitVec 12} (hop : st.entry.insn.op = .mstream an pi flip c0 n)
include h hop

/-- An MSTREAM starts as one without FLIP does whose buffers have been exchanged. -/
theorem startMstream_flipped :
    startMstream c = runMstream st false c0.toNat n.toNat (setMx c1 (streamBuffers flip c.matrix)) := by
  rw [startMstream_eq h hop, ← h.matrix_eq]
  by_cases hflip : flip = 1#1 <;> simp [hflip, runMstream, flipBuffers, streamBuffers, setMx]

theorem startMstream_zero (hn : n = 0#12) : startMstream c = completeEntry (setMx c1 (streamBuffers flip c.matrix)) st := by
  rw [startMstream_flipped h hop, hn]
  rfl

variable (hn : n.toNat ≠ 0)
include hn

theorem startMstream_invalid (hvalid : (streamBuffers flip c.matrix).front.valid = false) :
    startMstream c = entryFault (setMx c1 (streamBuffers flip c.matrix)) .modeMismatch st.entry := by
  rw [startMstream_flipped h hop]
  simp [runMstream, setMx, hn, hvalid]

variable (hvalid : (streamBuffers flip c.matrix).front.valid = true)
include hvalid

theorem startMstream_pastAcc (hacc : 2048 < c0.toNat + n.toNat) :
    startMstream c = entryFault (setMx c1 (streamBuffers flip c.matrix)) .accRange st.entry := by
  rw [startMstream_flipped h hop]
  simp [runMstream, setMx, hn, hvalid, hacc]

variable (hacc : c0.toNat + n.toNat ≤ 2048)
include hacc

theorem startMstream_pastSlab (hslab : 24576 < st.entry.ra.value.toNat + n.toNat) :
    startMstream c = entryFault (setMx c1 (streamBuffers flip c.matrix)) .slabRange st.entry := by
  rw [startMstream_flipped h hop]
  simp [runMstream, setMx, hn, hvalid, Nat.not_lt.mpr hacc, slabRows, hslab]

/-- An MSTREAM under its limits joins the streams with no column read (R90, R91). -/
theorem startMstream_inRange (hslab : st.entry.ra.value.toNat + n.toNat ≤ 24576) :
    startMstream c = setMx c1 { streamBuffers flip c.matrix with
      streams := c.matrix.streams ++ [{ st := st, base := st.entry.ra.value.toNat, n := n.toNat, c0 := c0.toNat, granted := 0,
                                        done := 0, inflight := [], mismatches := [] }] } := by
  rw [startMstream_flipped h hop]
  simp [runMstream, setMx, hn, hvalid, Nat.not_lt.mpr hacc, slabRows, Nat.not_lt.mpr hslab]
  rfl

end

/-! ### Cleared tiles -/

/-- A fold whose every step may set a bit sets it where one of its steps does. -/
theorem getLsbD_foldl_or {β : Type} {w : Nat} (f : BitVec w → β → BitVec w) (q : β → Bool) (i : Nat)
    (hf : ∀ b x, (f b x).getLsbD i = (b.getLsbD i || q x)) (l : List β) (b : BitVec w) :
    (l.foldl f b).getLsbD i = (b.getLsbD i || l.any q) := by
  induction l generalizing b with
  | nil => simp
  | cons x l ih => rw [List.foldl_cons, ih, hf, List.any_cons, Bool.or_assoc]

/-- The live bits of a tile in one row: four groups (R99, R103). -/
theorem getLsbD_tileMask (r t i : Nat) :
    (0xF#1024 <<< (r * 64 + 4 * t)).getLsbD i =
      (decide (i < 1024) && decide (r * 64 + 4 * t ≤ i) && decide (i < r * 64 + 4 * t + 4)) := by
  have hmask : 0xF#1024 = BitVec.ofNat 1024 (2 ^ 4 - 1) := rfl
  rw [BitVec.getLsbD_shiftLeft, hmask, BitVec.getLsbD_ofNat, Nat.testBit_two_pow_sub_one, Bool.eq_iff_iff]
  simp only [Bool.and_eq_true, Bool.not_eq_true', decide_eq_true_eq, decide_eq_false_iff_not]
  omega

/-- The live bits of the named tiles in row r' hold the group of column col in row r exactly where r' is r and its tile is named. -/
theorem getLsbD_tileRow (tiles : BitVec 16) {r col : Nat} (hr : r < 16) (hcol : col < 2048) (m : BitVec 1024) (r' : Nat) :
    ((List.range 16).foldl (fun m t => if tiles.getLsbD t then m ||| (0xF#1024 <<< (r' * 64 + 4 * t)) else m) m).getLsbD
        (r * 64 + col / 32) =
      (m.getLsbD (r * 64 + col / 32) || (decide (r' = r) && tiles.getLsbD (col / 128))) := by
  rw [getLsbD_foldl_or _ (fun t => tiles.getLsbD t && (0xF#1024 <<< (r' * 64 + 4 * t)).getLsbD (r * 64 + col / 32)) _
    fun b t => by cases tiles.getLsbD t <;> simp]
  congr 1
  rw [Bool.eq_iff_iff]
  simp only [List.any_eq_true, List.mem_range, Bool.and_eq_true, getLsbD_tileMask, decide_eq_true_eq]
  constructor
  · rintro ⟨t, ht, htile, hrange⟩
    exact ⟨by omega, by rwa [show col / 128 = t by omega]⟩
  · rintro ⟨rfl, htile⟩
    exact ⟨col / 128, by omega, htile, by omega⟩

/-- The live bit of a group is that of its tile (R103). -/
theorem getLsbD_tileLive (tiles : BitVec 16) {r col : Nat} (hr : r < 16) (hcol : col < 2048) :
    (tileLive tiles).getLsbD (r * 64 + col / 32) = tiles.getLsbD (col / 128) := by
  rw [tileLive, getLsbD_foldl_or _ _ _ (getLsbD_tileRow tiles hr hcol), Bool.eq_iff_iff]
  simp only [BitVec.getLsbD_zero, Bool.false_or, List.any_eq_true, List.mem_range, Bool.and_eq_true, decide_eq_true_eq]
  exact ⟨fun ⟨_, _, _, htile⟩ => htile, fun htile => ⟨r, hr, rfl, htile⟩⟩

/-- A store without the keys that fail a test reads as before at the others. -/
theorem smGet_filter_key {α : Type} (d : α) (p : Nat → Bool) (m : SMap α) (k : Nat) :
    smGet d (m.filter fun kv => p kv.1) k = if p k then smGet d m k else d := by
  induction m with
  | nil => simp [smGet]
  | cons a m ih =>
    obtain ⟨j, v⟩ := a
    by_cases hj : j = k
    · subst hj
      cases hp : p j <;> simp [hp, smGet, ih]
    · cases hp : p j <;> simp [hp, smGet, hj, ih]

/-- MCLEAR zeroes the entries of its tiles (R103). -/
theorem clearTiles_acc (tiles : BitVec 16) (m : Matrix) (r : Nat) {col : Nat} (hcol : col < 2048) :
    smGet 0#32 (clearTiles tiles m).acc (accKey r col) = if tiles.getLsbD (col / 128) then 0#32 else smGet 0#32 m.acc (accKey r col) := by
  have hkey : accKey r col % 2048 = col := by rw [accKey]; omega
  have hget := smGet_filter_key 0#32 (fun k => !tiles.getLsbD (k % 2048 / 128)) m.acc (accKey r col)
  rw [hkey] at hget
  rw [clearTiles, hget]
  cases tiles.getLsbD (col / 128) <;> rfl

/-- MCLEAR clears the live bits of its tiles (R99, R103). -/
theorem clearTiles_live (tiles : BitVec 16) (m : Matrix) {r col : Nat} (hr : r < 16) (hcol : col < 2048) :
    (clearTiles tiles m).live.getLsbD (r * 64 + col / 32) = (m.live.getLsbD (r * 64 + col / 32) && !tiles.getLsbD (col / 128)) := by
  have hi : r * 64 + col / 32 < 1024 := by omega
  rw [clearTiles, BitVec.getLsbD_and, BitVec.getLsbD_not, getLsbD_tileLive tiles hr hcol, decide_eq_true hi, Bool.true_and]

end Sys2Proof.Machine
end

section
/-!
PROOFS. The matrix engine (O16): rows made of words, the keys of the accumulators, and the writes of an MDRAIN.
-/

namespace Sys2Proof.Machine

/-! ### Rows -/

/-- A row made of words holds them in their order. -/
theorem rowWord_rowOfWords (ws : List W32) (side : BitVec 128) (z : BitVec 36) {c : Nat} (hc : c < 32) :
    rowWord (rowOfWords ws side z) c = ws.getD c 0#32 := by
  have hbit : ∀ (ws : List W32) (c : Nat), c < 32 → ∀ b, b < 32 →
      (rowOfWords ws side z).data.getLsbD (32 * c + b) = (ws.getD c 0#32).getLsbD b := by
    intro ws
    induction ws with
    | nil => intro c _ b _; simp [rowOfWords]
    | cons w ws ih =>
      intro c hc b hb
      have hcons : (rowOfWords (w :: ws) side z).data = (rowOfWords ws side z).data <<< 32 ||| w.setWidth 1024 := rfl
      rw [hcons, BitVec.getLsbD_or, BitVec.getLsbD_shiftLeft, BitVec.getLsbD_setWidth]
      cases c with
      | zero => simp [hb, show b < 1024 by omega]
      | succ c =>
        have hrest := ih c (by omega) b hb
        rw [show 32 * (c + 1) + b - 32 = 32 * c + b by omega, hrest, BitVec.getLsbD_of_ge w _ (by omega)]
        simp [show 32 * (c + 1) + b < 1024 by omega]
        omega
  apply BitVec.eq_of_getLsbD_eq
  intro b hb
  rw [rowWord, BitVec.getLsbD_extractLsb', hbit ws c hc b hb]
  simp [hb]

/-- A field written with zero is zero. -/
theorem getLsbD_setField_zero {n : Nat} (x : BitVec n) {lo len i : Nat} (hlo : lo ≤ i) (hi : i < lo + len) :
    (setField x lo len 0).getLsbD i = false := by
  by_cases hn : i < n
  · have hmask : (BitVec.ofNat n (2 ^ len - 1) <<< lo).getLsbD i = true := by
      rw [BitVec.getLsbD_shiftLeft, BitVec.getLsbD_ofNat, Nat.testBit_two_pow_sub_one]
      simp [hn, Nat.not_lt.mpr hlo, show i - lo < n by omega, show i - lo < len by omega]
    simp only [setField, BitVec.getLsbD_or, BitVec.getLsbD_and, BitVec.getLsbD_not, hmask]
    simp
  · exact BitVec.getLsbD_of_ge _ _ (Nat.le_of_not_lt hn)

/-! ### The keys of the accumulators -/

theorem accKey_inj {r r' col col' : Nat} (hcol : col < 2048) (hcol' : col' < 2048) :
    accKey r col = accKey r' col' ↔ r = r' ∧ col = col' := by
  unfold accKey
  omega

/-- Zeroing the 32 entries of a group (R100). -/
theorem smGet_clearGroup (acc : SMap W32) (r : Nat) {g : Nat} (hg : g < 64) (r' : Nat) {col : Nat} (hcol : col < 2048) :
    smGet 0#32 ((List.range 32).foldl (fun a j => smSet 0#32 a (accKey r (32 * g + j)) 0#32) acc) (accKey r' col) =
      if r' = r ∧ col / 32 = g then 0#32 else smGet 0#32 acc (accKey r' col) := by
  have hmem : accKey r' col ∈ (List.range 32).map (fun j => accKey r (32 * g + j)) ↔ r' = r ∧ col / 32 = g := by
    simp only [List.mem_map, List.mem_range]
    constructor
    · rintro ⟨j, hj, hkey⟩
      obtain ⟨rfl, rfl⟩ := (accKey_inj (by omega) hcol).mp hkey
      exact ⟨rfl, by omega⟩
    · rintro ⟨rfl, hgroup⟩
      exact ⟨col % 32, by omega, by rw [← hgroup, Nat.div_add_mod]⟩
  have hfold := smGet_foldl_smSet 0#32 (fun _ => 0#32) ((List.range 32).map fun j => accKey r (32 * g + j)) acc (accKey r' col)
  rw [List.foldl_map] at hfold
  simp only [hfold, hmem]

/-- The bit of one group is that row's and that group's alone. -/
theorem getLsbD_groupBit {r g r' g' : Nat} (hg : g < 64) (hr' : r' < 16) (hg' : g' < 64) :
    (1#1024 <<< (r * 64 + g)).getLsbD (r' * 64 + g') = (decide (r' = r) && decide (g' = g)) := by
  rw [BitVec.getLsbD_shiftLeft, BitVec.getLsbD_one, Bool.eq_iff_iff]
  simp only [Bool.and_eq_true, Bool.not_eq_true', decide_eq_true_eq, decide_eq_false_iff_not]
  omega

/-! ### One write -/

/-- The core s with what an MDRAIN may change as t has it: drained registers, accumulators, live bits and the drain check (R100,
R543). -/
def drainFrame (s t : Core) : Core :=
  { s with
    lockDrain := t.lockDrain
    vec := { s.vec with regs := t.vec.regs, drains := t.vec.drains }
    matrix := { s.matrix with acc := t.matrix.acc, live := t.matrix.live } }

/-- No vector-engine write lands in cycle t or later, so that none meets an MDRAIN write of then (R221). -/
def LandedBefore (c : Core) (t : Nat) : Prop := ∀ x ∈ c.vec.lands, x.cyc < t

theorem LandedBefore.mono {c : Core} {t u : Nat} (h : LandedBefore c t) (htu : t ≤ u) : LandedBefore c u :=
  fun x hx => Nat.lt_of_lt_of_le (h x hx) htu

theorem LandedBefore.any_eq_false {c : Core} {t : Nat} (h : LandedBefore c t) {q : RegWrite → Bool}
    (hq : ∀ x, q x = true → t ≤ x.cyc) : c.vec.lands.any q = false :=
  List.any_eq_false.mpr fun x hx hqx => Nat.not_lt.mpr (hq x hqx) (h x hx)

/-- An MDRAIN write that no vector-engine write meets gives its register the data, clean (R100). -/
theorem drainLands_eq {c : Core} {t : Nat} (h : LandedBefore c t) (r : Nat) (data : BitVec 1024) :
    drainLands c t r data =
      setV { c with vec := { c.vec with drains := freshWrites c.cc c.vec.drains ++ [{ cyc := t, reg := r % 64, old := getV c r }] } } r
        { getV c r with data := data, z := setField (getV c r).z 0 32 0 } := by
  have hmeets : (c.vec.lands.any fun w => decide (w.reg = r % 64) && decide (w.cyc = t)) = false :=
    h.any_eq_false fun x hx => by simp at hx; omega
  have hlater : (c.vec.lands.any fun w => decide (w.reg = r % 64) && decide (t < w.cyc)) = false :=
    h.any_eq_false fun x hx => by simp at hx; omega
  simp [drainLands, hmeets, hlater]

@[simp] theorem drainLands_matrix (c : Core) (t r : Nat) (data : BitVec 1024) : (drainLands c t r data).matrix = c.matrix := by
  simp only [drainLands]
  split <;> rfl

/-- The words that write i takes from the accumulators (R100). -/
def drainWords (r0 g0 ng : Nat) (m : Matrix) (i : Nat) : List W32 :=
  (List.range 32).map fun j => smGet 0#32 m.acc (accKey (r0 + i / ng) (32 * (g0 + i % ng) + j))

/-- What write i gives its register: the words, clean, beside the side part that stood there (R100). -/
def drainedRow (r0 g0 ng : Nat) (m : Matrix) (i : Nat) (old : Row) : Row :=
  { old with data := (rowOfWords (drainWords r0 g0 ng m i) 0#128 0#36).data, z := setField old.z 0 32 0 }

/-- Does write i take the group of accumulator column col in row r? -/
abbrev DrainsEntry (r0 g0 ng i r col : Nat) : Prop := r = r0 + i / ng ∧ col / 32 = g0 + i % ng

/-- The core after the first n writes of an MDRAIN. -/
def drainWrites (r0 g0 ng vb : Nat) (clr : Bool) (c : Core) (n : Nat) : Core := (List.range n).foldl (drainWrite r0 g0 ng vb clr) c

section
variable (r0 g0 ng vb : Nat) (clr : Bool)

theorem rowWord_drainedRow (m : Matrix) (i : Nat) (old : Row) {lane : Nat} (hlane : lane < 32) :
    rowWord (drainedRow r0 g0 ng m i old) lane = smGet 0#32 m.acc (accKey (r0 + i / ng) (32 * (g0 + i % ng) + lane)) := by
  have hword : rowWord (drainedRow r0 g0 ng m i old) lane = rowWord (rowOfWords (drainWords r0 g0 ng m i) 0#128 0#36) lane := rfl
  rw [hword, rowWord_rowOfWords _ _ _ hlane, drainWords]
  simp [hlane]

theorem rowZ_drainedRow (m : Matrix) (i : Nat) (old : Row) {lane : Nat} (hlane : lane < 32) :
    rowZ (drainedRow r0 g0 ng m i old) lane = false :=
  getLsbD_setField_zero old.z (Nat.zero_le lane) (by omega)

section
variable (c : Core) (i : Nat)

/-- What a write with CLR leaves in the matrix engine (R100). -/
theorem drainWrite_matrix :
    (drainWrite r0 g0 ng vb clr c i).matrix =
      if clr then { c.matrix with
        acc := (List.range 32).foldl (fun a j => smSet 0#32 a (accKey (r0 + i / ng) (32 * (g0 + i % ng) + j)) 0#32) c.matrix.acc
        live := c.matrix.live &&& ~~~(1#1024 <<< ((r0 + i / ng) * 64 + (g0 + i % ng))) }
      else c.matrix := by
  cases clr <;> simp [drainWrite, setMx]

theorem drainWrite_vec :
    (drainWrite r0 g0 ng vb clr c i).vec =
      (drainLands c (c.cc + 2 + i) (vb + i) (rowOfWords (drainWords r0 g0 ng c.matrix i) 0#128 0#36).data).vec := by
  cases clr <;> simp [drainWrite, drainWords, setMx]

theorem drainWrite_acc (hgroup : g0 + i % ng < 64) (r : Nat) {col : Nat} (hcol : col < 2048) :
    smGet 0#32 (drainWrite r0 g0 ng vb clr c i).matrix.acc (accKey r col) =
      if clr = true ∧ DrainsEntry r0 g0 ng i r col then 0#32 else smGet 0#32 c.matrix.acc (accKey r col) := by
  rw [drainWrite_matrix]
  cases clr with
  | false => simp
  | true => simpa [DrainsEntry] using smGet_clearGroup c.matrix.acc (r0 + i / ng) hgroup r hcol

theorem drainWrite_live (hgroup : g0 + i % ng < 64) {r col : Nat} (hr : r < 16) (hcol : col < 2048) :
    (drainWrite r0 g0 ng vb clr c i).matrix.live.getLsbD (r * 64 + col / 32) =
      if clr = true ∧ DrainsEntry r0 g0 ng i r col then false else c.matrix.live.getLsbD (r * 64 + col / 32) := by
  rw [drainWrite_matrix]
  cases clr with
  | false => simp
  | true =>
    have hi : r * 64 + col / 32 < 1024 := by omega
    simp only [if_true, BitVec.getLsbD_and, BitVec.getLsbD_not, getLsbD_groupBit hgroup hr (show col / 32 < 64 by omega),
      decide_eq_true hi, Bool.true_and, true_and, DrainsEntry]
    by_cases hdrains : r = r0 + i / ng ∧ col / 32 = g0 + i % ng
    · simp [hdrains]
    · rw [if_neg hdrains, ← Bool.decide_and, decide_eq_false hdrains, Bool.not_false, Bool.and_true]

variable {c i} (hlands : LandedBefore c (c.cc + 2))
include hlands

theorem drainWrite_frame : drainWrite r0 g0 ng vb clr c i = drainFrame c (drainWrite r0 g0 ng vb clr c i) := by
  have hwrite : drainWrite r0 g0 ng vb clr c i =
      drainFrame (drainLands c (c.cc + 2 + i) (vb + i) (rowOfWords (drainWords r0 g0 ng c.matrix i) 0#128 0#36).data)
        (drainWrite r0 g0 ng vb clr c i) := by
    cases clr <;> simp [drainWrite, drainWords, drainFrame, setMx]
  rw [hwrite, drainLands_eq (hlands.mono (Nat.le_add_right _ i))]
  simp [drainFrame, setV]

theorem drainWrite_getV_same {n : Nat} (hn : n % 64 = (vb + i) % 64) :
    getV (drainWrite r0 g0 ng vb clr c i) n = drainedRow r0 g0 ng c.matrix i (getV c n) := by
  rw [getV, drainWrite_vec, drainLands_eq (hlands.mono (Nat.le_add_right _ i))]
  simp [setV, drainedRow, getV, hn]

theorem drainWrite_getV_other {n : Nat} (hn : n % 64 ≠ (vb + i) % 64) :
    getV (drainWrite r0 g0 ng vb clr c i) n = getV c n := by
  rw [getV, drainWrite_vec, drainLands_eq (hlands.mono (Nat.le_add_right _ i))]
  simp [setV, smGet_smSet_other _ _ _ hn, getV]

end

/-! ### All writes -/

/-- A fold whose steps either set what is read to v or keep it: it is v where one of them sets it, and else as it was. -/
theorem foldl_sets {σ β γ : Type} (read : σ → γ) (v : γ) (f : σ → β → σ) (q : β → Prop)
    (hset : ∀ s x, q x → read (f s x) = v) (hkeep : ∀ s x, ¬q x → read (f s x) = read s) (l : List β) (s : σ) :
    ((∃ x ∈ l, q x) → read (l.foldl f s) = v) ∧ ((∀ x ∈ l, ¬q x) → read (l.foldl f s) = read s) := by
  induction l generalizing s with
  | nil => simp
  | cons x l ih =>
    obtain ⟨hsets, hkeeps⟩ := ih (f s x)
    rw [List.foldl_cons]
    refine ⟨fun hex => ?_, fun hno => ?_⟩
    · by_cases hl : ∃ y ∈ l, q y
      · exact hsets hl
      · have hx : q x := by
          obtain ⟨y, hy, hq⟩ := hex
          rcases List.mem_cons.mp hy with rfl | hy
          · exact hq
          · exact absurd ⟨y, hy, hq⟩ hl
        rw [hkeeps fun y hy hq => hl ⟨y, hy, hq⟩, hset s x hx]
    · obtain ⟨hx, hl⟩ := List.forall_mem_cons.mp hno
      rw [hkeeps hl, hkeep s x hx]

theorem drainWrites_succ (c : Core) (n : Nat) :
    drainWrites r0 g0 ng vb clr c (n + 1) = drainWrite r0 g0 ng vb clr (drainWrites r0 g0 ng vb clr c n) n := by
  simp [drainWrites, List.range_succ]

section
variable {c : Core} (hlands : LandedBefore c (c.cc + 2))
include hlands

theorem drainWrites_frame (n : Nat) : drainWrites r0 g0 ng vb clr c n = drainFrame c (drainWrites r0 g0 ng vb clr c n) := by
  induction n with
  | zero => rfl
  | succ n ih =>
    rw [drainWrites_succ]
    generalize hX : drainWrites r0 g0 ng vb clr c n = X at ih ⊢
    have hX' : LandedBefore X (X.cc + 2) := by rw [ih]; exact hlands
    calc drainWrite r0 g0 ng vb clr X n = drainFrame X (drainWrite r0 g0 ng vb clr X n) := drainWrite_frame r0 g0 ng vb clr hX'
      _ = drainFrame (drainFrame c X) (drainWrite r0 g0 ng vb clr X n) := congrArg (drainFrame · _) ih
      _ = drainFrame c (drainWrite r0 g0 ng vb clr X n) := rfl

theorem drainWrites_landedBefore (n : Nat) :
    LandedBefore (drainWrites r0 g0 ng vb clr c n) ((drainWrites r0 g0 ng vb clr c n).cc + 2) := by
  rw [drainWrites_frame r0 g0 ng vb clr hlands n]
  exact hlands

/-- A register that no write reaches keeps its row. -/
theorem drainWrites_getV_other {n : Nat} {m : Nat} (hm : ∀ i, i < n → m % 64 ≠ (vb + i) % 64) :
    getV (drainWrites r0 g0 ng vb clr c n) m = getV c m := by
  induction n with
  | zero => rfl
  | succ n ih =>
    have hX := drainWrites_landedBefore r0 g0 ng vb clr hlands n
    rw [drainWrites_succ, drainWrite_getV_other _ _ _ _ _ hX (hm n (Nat.lt_succ_self n)), ih fun i hi => hm i (Nat.lt_succ_of_lt hi)]

end

section
variable (hng : 0 < ng) (hgroups : g0 + ng ≤ 64) (c : Core) (n : Nat)
include hng hgroups

/-- What a write sets exactly where CLR is set and it takes the entry, all writes set exactly where one of them takes it. -/
theorem drainWrites_sets {γ : Type} (read : Core → γ) (v : γ) {r col : Nat}
    (hwrite : ∀ s i, g0 + i % ng < 64 → read (drainWrite r0 g0 ng vb clr s i) =
      if clr = true ∧ DrainsEntry r0 g0 ng i r col then v else read s) :
    (clr = true ∧ (∃ i, i < n ∧ DrainsEntry r0 g0 ng i r col) → read (drainWrites r0 g0 ng vb clr c n) = v) ∧
    (¬(clr = true ∧ ∃ i, i < n ∧ DrainsEntry r0 g0 ng i r col) → read (drainWrites r0 g0 ng vb clr c n) = read c) := by
  have hgroup : ∀ i, g0 + i % ng < 64 := fun i => by have := Nat.mod_lt i hng; omega
  obtain ⟨hsets, hkeeps⟩ := foldl_sets read v (drainWrite r0 g0 ng vb clr) (fun i => clr = true ∧ DrainsEntry r0 g0 ng i r col)
    (fun s i hi => (hwrite s i (hgroup i)).trans (if_pos hi)) (fun s i hi => (hwrite s i (hgroup i)).trans (if_neg hi)) (List.range n) c
  exact ⟨fun ⟨hclr, i, hi, hd⟩ => hsets ⟨i, List.mem_range.mpr hi, hclr, hd⟩,
    fun hno => hkeeps fun i hi ⟨hclr, hd⟩ => hno ⟨hclr, i, List.mem_range.mp hi, hd⟩⟩

/-- Exactly the entries whose group is drained with CLR are zeroed (R100). -/
theorem drainWrites_acc (r : Nat) {col : Nat} (hcol : col < 2048) :
    (clr = true ∧ (∃ i, i < n ∧ DrainsEntry r0 g0 ng i r col) →
      smGet 0#32 (drainWrites r0 g0 ng vb clr c n).matrix.acc (accKey r col) = 0#32) ∧
    (¬(clr = true ∧ ∃ i, i < n ∧ DrainsEntry r0 g0 ng i r col) →
      smGet 0#32 (drainWrites r0 g0 ng vb clr c n).matrix.acc (accKey r col) = smGet 0#32 c.matrix.acc (accKey r col)) :=
  drainWrites_sets r0 g0 ng vb clr hng hgroups c n (fun s => smGet 0#32 s.matrix.acc (accKey r col)) 0#32
    fun s i hi => drainWrite_acc r0 g0 ng vb clr s i hi r hcol

/-- Exactly the live bits whose group is drained with CLR are cleared (R99, R100). -/
theorem drainWrites_live {r col : Nat} (hr : r < 16) (hcol : col < 2048) :
    (clr = true ∧ (∃ i, i < n ∧ DrainsEntry r0 g0 ng i r col) →
      (drainWrites r0 g0 ng vb clr c n).matrix.live.getLsbD (r * 64 + col / 32) = false) ∧
    (¬(clr = true ∧ ∃ i, i < n ∧ DrainsEntry r0 g0 ng i r col) →
      (drainWrites r0 g0 ng vb clr c n).matrix.live.getLsbD (r * 64 + col / 32) = c.matrix.live.getLsbD (r * 64 + col / 32)) :=
  drainWrites_sets r0 g0 ng vb clr hng hgroups c n (fun s => s.matrix.live.getLsbD (r * 64 + col / 32)) false
    fun s i hi => drainWrite_live r0 g0 ng vb clr s i hi hr hcol

end

section
variable {r0 g0 ng vb clr} {c : Core} (hng : 0 < ng) (hgroups : g0 + ng ≤ 64) (hlands : LandedBefore c (c.cc + 2))
include hng hgroups hlands

/-- A register that a write reaches holds what stood in the accumulators before the MDRAIN: no two of up to 64 writes reach the same
register, and none takes a group that an earlier one has cleared (R100). -/
theorem drainWrites_getV {n : Nat} (hn : n ≤ 64) {i : Nat} (hi : i < n) :
    getV (drainWrites r0 g0 ng vb clr c n) (vb + i) = drainedRow r0 g0 ng c.matrix i (getV c (vb + i)) := by
  induction n with
  | zero => exact absurd hi (Nat.not_lt_zero i)
  | succ n ih =>
    have hX := drainWrites_landedBefore r0 g0 ng vb clr hlands n
    rw [drainWrites_succ]
    rcases Nat.lt_succ_iff_lt_or_eq.mp hi with hi | rfl
    · rw [drainWrite_getV_other _ _ _ _ _ hX (by omega), ih (by omega) hi]
    · have hold : getV (drainWrites r0 g0 ng vb clr c i) (vb + i) = getV c (vb + i) :=
        drainWrites_getV_other _ _ _ _ _ hlands fun j hj => by omega
      have hwords : drainWords r0 g0 ng (drainWrites r0 g0 ng vb clr c i).matrix i = drainWords r0 g0 ng c.matrix i := by
        refine List.map_congr_left fun lane hlane => ?_
        have hlane := List.mem_range.mp hlane
        have hmod := Nat.mod_lt i hng
        refine (drainWrites_acc r0 g0 ng vb clr hng hgroups c i _ (by omega)).2 ?_
        rintro ⟨-, j, hj, hrow, hgroup⟩
        have hdiv : i / ng = j / ng := by omega
        have hmod : i % ng = j % ng := by omega
        have heq : i = j := by rw [← Nat.div_add_mod i ng, hdiv, hmod, Nat.div_add_mod]
        omega
      rw [drainWrite_getV_same _ _ _ _ _ hX rfl, hold, drainedRow, hwords]
      rfl

end

/-- The writes of an MDRAIN take the groups of its rows and groups, and no other (R100). -/
theorem exists_drainsEntry_iff {r0 g0 ng rows r col : Nat} (hng : 0 < ng) :
    (∃ i, i < rows * ng ∧ DrainsEntry r0 g0 ng i r col) ↔
      r0 ≤ r ∧ r < r0 + rows ∧ g0 ≤ col / 32 ∧ col / 32 < g0 + ng := by
  constructor
  · rintro ⟨i, hi, hrow, hgroup⟩
    have hdiv : i / ng < rows := Nat.div_lt_of_lt_mul (by rwa [Nat.mul_comm])
    have hmod := Nat.mod_lt i hng
    generalize i / ng = row at hrow hdiv
    omega
  · rintro ⟨hlo, hhi, hglo, hghi⟩
    have hlt : col / 32 - g0 < ng := by omega
    refine ⟨ng * (r - r0) + (col / 32 - g0), ?_, ?_, ?_⟩
    · calc ng * (r - r0) + (col / 32 - g0) < ng * (r - r0) + ng := by omega
        _ = (r - r0 + 1) * ng := by rw [Nat.add_mul, Nat.mul_comm, Nat.one_mul]
        _ ≤ rows * ng := Nat.mul_le_mul_right ng (by omega)
    · rw [Nat.mul_add_div hng, Nat.div_eq_of_lt hlt]
      omega
    · rw [Nat.mul_add_mod, Nat.mod_eq_of_lt hlt]
      omega

end

section
variable (st : Started) {vb g0 ng r0 nr : Nat} (clr : Bool) (c : Core)

theorem runMdrain_limits (hr : r0 + nr ≤ 16) (hg : g0 + ng ≤ 64) (hn : nr * ng ≤ 64) :
    runMdrain st vb clr g0 ng r0 nr c =
      { drainWrites r0 g0 ng vb clr c (nr * ng) with started := (drainWrites r0 g0 ng vb clr c (nr * ng)).started ++ [st] } := by
  rw [runMdrain, if_neg (by omega)]
  rfl

theorem runMdrain_past (hlimits : 16 < r0 + nr ∨ 64 < g0 + ng ∨ 64 < nr * ng) :
    runMdrain st vb clr g0 ng r0 nr c = entryFault c .accRange st.entry := by
  rw [runMdrain, if_pos hlimits]

end

end Sys2Proof.Machine
end

section
/-!
PROOFS. The matrix engine (O16): an MDRAIN at the head of the matrix queue.
-/

namespace Sys2Proof.Machine

/-- The core after every write of an MDRAIN with these fields (R100). -/
def drainedCore (vb : BitVec 6) (clr : BitVec 1) (g0 ng : BitVec 6) (r0 nr : BitVec 4) (c : Core) : Core :=
  drainWrites r0.toNat g0.toNat (ng.toNat + 1) vb.toNat (decide (clr = 1#1)) c ((nr.toNat + 1) * (ng.toNat + 1))

section
variable {c c1 : Core} {st : Started} (h : HeadStarts c .matrix st c1)
include h

theorem HeadStarts.landedBefore (hlands : LandedBefore c (c.cc + 2)) : LandedBefore c1 (c1.cc + 2) := by
  rwa [LandedBefore, h.vec_eq, h.cc_eq]

section
variable {vb : BitVec 6} {clr : BitVec 1} {g0 ng : BitVec 6} {r0 nr : BitVec 4} (hop : st.entry.insn.op = .mdrain vb clr g0 ng r0 nr)
include hop

theorem startMdrain_past
    (hlimits : 16 < r0.toNat + (nr.toNat + 1) ∨ 64 < g0.toNat + (ng.toNat + 1) ∨ 64 < (nr.toNat + 1) * (ng.toNat + 1)) :
    startMdrain st.entry.icount c = entryFault c1 .accRange st.entry := by
  rw [startMdrain_eq h hop, runMdrain_past st _ c1 hlimits]

variable (hr : r0.toNat + (nr.toNat + 1) ≤ 16) (hg : g0.toNat + (ng.toNat + 1) ≤ 64) (hn : (nr.toNat + 1) * (ng.toNat + 1) ≤ 64)
  (hlands : LandedBefore c (c.cc + 2))
include hr hg hn

/-- An MDRAIN under its limits has started, its writes made. -/
theorem startMdrain_limits :
    startMdrain st.entry.icount c =
      { drainedCore vb clr g0 ng r0 nr c1 with started := (drainedCore vb clr g0 ng r0 nr c1).started ++ [st] } := by
  rw [startMdrain_eq h hop, runMdrain_limits st _ c1 hr hg hn, drainedCore]

/-- An MDRAIN with CLR zeroes the entries that it drains and clears their live bits, and leaves all others (R100). -/
theorem startMdrain_entries {r col : Nat} (hrow : r < 16) (hcol : col < 2048) :
    let c' := startMdrain st.entry.icount c
    let drained := r0.toNat ≤ r ∧ r < r0.toNat + (nr.toNat + 1) ∧ g0.toNat ≤ col / 32 ∧ col / 32 < g0.toNat + (ng.toNat + 1)
    (clr = 1#1 ∧ drained → smGet 0#32 c'.matrix.acc (accKey r col) = 0#32 ∧
      c'.matrix.live.getLsbD (r * 64 + col / 32) = false) ∧
    (clr = 0#1 ∨ ¬drained → smGet 0#32 c'.matrix.acc (accKey r col) = smGet 0#32 c.matrix.acc (accKey r col) ∧
      c'.matrix.live.getLsbD (r * 64 + col / 32) = c.matrix.live.getLsbD (r * 64 + col / 32)) := by
  have hng : 0 < ng.toNat + 1 := Nat.succ_pos _
  obtain ⟨hzero, hkeep⟩ := drainWrites_acc r0.toNat g0.toNat (ng.toNat + 1) vb.toNat (decide (clr = 1#1)) hng hg c1
    ((nr.toNat + 1) * (ng.toNat + 1)) r hcol
  obtain ⟨hclear, hlive⟩ := drainWrites_live r0.toNat g0.toNat (ng.toNat + 1) vb.toNat (decide (clr = 1#1)) hng hg c1
    ((nr.toNat + 1) * (ng.toNat + 1)) hrow hcol
  rw [exists_drainsEntry_iff hng, decide_eq_true_eq] at hzero hkeep hclear hlive
  rw [startMdrain_limits h hop hr hg hn, ← h.matrix_eq]
  refine ⟨fun hd => ⟨hzero hd, hclear hd⟩, fun hno => ?_⟩
  have hnot : ¬(clr = 1#1 ∧ r0.toNat ≤ r ∧ r < r0.toNat + (nr.toNat + 1) ∧ g0.toNat ≤ col / 32 ∧
      col / 32 < g0.toNat + (ng.toNat + 1)) := by
    rintro ⟨rfl, hd⟩
    exact hno.elim (by decide) fun hnd => hnd hd
  exact ⟨hkeep hnot, hlive hnot⟩

include hlands

theorem startMdrain_frame :
    let c' := startMdrain st.entry.icount c
    c' = { c1 with
      started := c.started ++ [st], lockDrain := c'.lockDrain
      vec := { c.vec with regs := c'.vec.regs, drains := c'.vec.drains }
      matrix := { c.matrix with acc := c'.matrix.acc, live := c'.matrix.live } } := by
  have hframe : drainedCore vb clr g0 ng r0 nr c1 = drainFrame c1 (drainedCore vb clr g0 ng r0 nr c1) :=
    drainWrites_frame _ _ _ _ _ (h.landedBefore hlands) _
  rw [startMdrain_limits h hop hr hg hn, ← h.started_eq, ← h.vec_eq, ← h.matrix_eq]
  generalize drainedCore vb clr g0 ng r0 nr c1 = x at hframe ⊢
  rw [hframe]
  rfl

/-- A register that an MDRAIN writes holds the group of its row, clean, beside its own side part (R100). -/
theorem startMdrain_register {i : Nat} (hi : i < (nr.toNat + 1) * (ng.toNat + 1)) :
    getV (startMdrain st.entry.icount c) (vb.toNat + i) =
      drainedRow r0.toNat g0.toNat (ng.toNat + 1) c.matrix i (getV c (vb.toNat + i)) := by
  rw [startMdrain_limits h hop hr hg hn, ← h.matrix_eq, ← h.getV_eq]
  exact drainWrites_getV (Nat.succ_pos _) hg (h.landedBefore hlands) hn hi

theorem startMdrain_otherRegister {n : Nat} (hother : ∀ i, i < (nr.toNat + 1) * (ng.toNat + 1) → n % 64 ≠ (vb.toNat + i) % 64) :
    getV (startMdrain st.entry.icount c) n = getV c n := by
  rw [startMdrain_limits h hop hr hg hn, ← h.getV_eq]
  exact drainWrites_getV_other r0.toNat g0.toNat (ng.toNat + 1) vb.toNat _ (h.landedBefore hlands) hother

end

end

end Sys2Proof.Machine
end

section
/-!
PROOFS. The matrix engine (O16): the end of an MLOAD, columns of a stream, and the mismatch that a stream ends with.
-/

namespace Sys2Proof.Machine

/-! ### MLOAD -/

/-- The last row of an MLOAD: the back buffer is valid with its K count and row mask, and the MLOAD completes (R83, R85). -/
theorem loadComplete_eq {c : Core} {w a : EType} (hmode : c.matrix.mode = some (w, a)) {j : LoadJob} (hload : c.matrix.load = some j)
    (hread : j.nread = 32) :
    Completed c (loadComplete c) j.st ∧ loadComplete c = { c with
      matrix := { c.matrix with load := none, back := { c.matrix.back with valid := true, k := j.k, rowMask := j.rowMask } }
      mon := { c.mon with specialIn := (loadComplete c).mon.specialIn }
      sync := { c.sync with slots := (loadComplete c).sync.slots } } := by
  have hend : ∃ n, loadComplete c = completeEntry { c with
      matrix := { c.matrix with load := none, back := { c.matrix.back with valid := true, k := j.k, rowMask := j.rowMask } }
      mon := { c.mon with specialIn := n } } j.st := by
    rw [loadComplete]
    simp only [hload, hmode, if_pos hread]
    exact ⟨_, rfl⟩
  obtain ⟨n, hend⟩ := hend
  rw [hend, completeEntry_mon]
  exact ⟨completed_completeEntry _ j.st, completeEntry_frame _ j.st⟩

/-! ### The oldest column in flight -/

section
variable {pre post : List StreamJob} {j : StreamJob} {p : StreamJob → Bool}

theorem modFirst_append (f : StreamJob → StreamJob) (hpre : ∀ x ∈ pre, p x = false) (hj : p j = true) :
    modFirst p f (pre ++ j :: post) = pre ++ f j :: post := by
  induction pre with
  | nil => simp [modFirst, hj]
  | cons x pre ih =>
    obtain ⟨hx, hpre⟩ := List.forall_mem_cons.mp hpre
    simp [modFirst, hx, ih hpre]

theorem find?_append_of_first (hpre : ∀ x ∈ pre, p x = false) (hj : p j = true) : (pre ++ j :: post).find? p = some j := by
  rw [List.find?_append, List.find?_eq_none.mpr fun x hx => by simp [hpre x hx]]
  simp [hj]

end

/-! ### Accumulation -/

theorem mem_enabledRows {b : ActBuf} {r : Nat} : r ∈ enabledRows b ↔ r < 16 ∧ b.rowMask.getLsbD r = true := by
  simp [enabledRows]

/-- What a column adds to an entry of row r (R55, R90). -/
def addColumnSum (w a : EType) (ds : List Defect) (col : Column) (r : Nat) (x : W32) : W32 :=
  fpAdd x (columnSum w a col.buf.k col.data (bufRow col.buf r) (rowDefects ds r))

section
variable (w a : EType) (ds : List Defect) (col : Column) (cx : Nat) (m : Matrix)

theorem accumulate_acc :
    (accumulate w a ds col cx m).acc =
      (enabledRows col.buf).foldl (fun acc r => smMod 0#32 acc (accKey r cx) (addColumnSum w a ds col r)) m.acc := by
  rw [accumulate]
  exact (List.foldl_hom Matrix.acc fun _ _ => rfl).symm

theorem accumulate_live :
    (accumulate w a ds col cx m).live =
      (enabledRows col.buf).foldl (fun live r => live ||| (1#1024 <<< (r * 64 + cx / 32))) m.live := by
  rw [accumulate]
  exact (List.foldl_hom Matrix.live fun _ _ => rfl).symm

/-- An accumulation changes nothing but accumulators and live bits (R90, R99). -/
theorem accumulate_frame :
    accumulate w a ds col cx m = { m with acc := (accumulate w a ds col cx m).acc, live := (accumulate w a ds col cx m).live } :=
  foldl_frame (fun s t : Matrix => { s with acc := t.acc, live := t.live }) (fun _ => rfl) (fun _ _ _ => rfl) _ (fun _ _ => rfl) _ m

variable {cx}

/-- The sums go into the column's entry of every enabled row, and into no other (R90). -/
theorem accumulate_get (hcx : cx < 2048) {r x : Nat} (hr : r < 16) (hx : x < 2048) :
    smGet 0#32 (accumulate w a ds col cx m).acc (accKey r x) =
      if col.buf.rowMask.getLsbD r ∧ x = cx then addColumnSum w a ds col r (smGet 0#32 m.acc (accKey r x))
      else smGet 0#32 m.acc (accKey r x) := by
  rw [accumulate_acc]
  by_cases hcol : x = cx
  · subst hcol
    rw [foldl_reads (fun _ => True) (fun acc r => smGet 0#32 acc (accKey r x)) _ (addColumnSum w a ds col) (fun _ _ _ => trivial)
      (fun acc k i hi => smGet_smMod_other _ _ _ fun hkey => hi ((accKey_inj hx hx).mp hkey).1) (enabledRows col.buf)
      (List.nodup_range.filter _) (fun acc k _ _ => smGet_smMod_same _ _ _ _) m.acc trivial r]
    simp [mem_enabledRows, hr]
  · rw [foldl_keeps (fun acc => smGet 0#32 acc (accKey r x)) _ (fun acc k => smGet_smMod_other _ _ _ fun hkey =>
      hcol ((accKey_inj hx hcx).mp hkey).2), if_neg fun h => hcol h.2]

/-- The live bit of the column's group is set in every enabled row (R99). -/
theorem accumulate_sets_live (hcx : cx < 2048) {r : Nat} (hr : r < 16) (hmask : col.buf.rowMask.getLsbD r = true) :
    (accumulate w a ds col cx m).live.getLsbD (r * 64 + cx / 32) = true := by
  rw [accumulate_live, getLsbD_foldl_or _ (fun r' => (1#1024 <<< (r' * 64 + cx / 32)).getLsbD (r * 64 + cx / 32)) _
    fun b r' => BitVec.getLsbD_or]
  have hany : (enabledRows col.buf).any (fun r' => (1#1024 <<< (r' * 64 + cx / 32)).getLsbD (r * 64 + cx / 32)) = true :=
    List.any_eq_true.mpr ⟨r, mem_enabledRows.mpr ⟨hr, hmask⟩, by
      rw [getLsbD_groupBit (by omega) hr (by omega)]
      simp⟩
  rw [hany, Bool.or_true]

end

/-! ### Columns -/

section
variable {c : Core} {w a : EType} {pre post : List StreamJob} {j : StreamJob} {col : Column} {cols : List Column}

/-- The core once a column's codes have been counted (R58). -/
def monitored (w : EType) (col : Column) (c : Core) : Core := { c with mon := monColumn c.mon w col }

section
variable (hmode : c.matrix.mode = some (w, a)) (hstreams : c.matrix.streams = pre ++ j :: post) (hpre : ∀ x ∈ pre, x.inflight = [])
  (hcol : j.inflight = col :: cols)
include hmode hstreams hpre hcol

/-- The oldest column in flight meets no signalled mismatch: it faults or it lands. -/
theorem runColumn_unsignalled (ds : List Defect) (hsig : ∀ p ∈ pendingMismatches c, col.grant < p.2.grant + 3) :
    runColumn ds c =
      match columnCode w a col with
      | some code => columnFault (if col.bankOff then c else monitored w col c) code j
      | none => landColumn w a ds j col cols (if col.bankOff then c else monitored w col c) := by
  have hfind : c.matrix.streams.find? (fun j => !j.inflight.isEmpty) = some j := by
    rw [hstreams]
    exact find?_append_of_first (fun x hx => by simp [hpre x hx]) (by simp [hcol])
  have hsignalled : ((pendingMismatches c).any fun p => decide (p.2.grant + 3 ≤ col.grant)) = false :=
    List.any_eq_false.mpr fun p hp => by simpa using hsig p hp
  have hbefore : ((pendingMismatches c).any fun p => decide (p.2.grant + 3 < col.grant)) = false :=
    List.any_eq_false.mpr fun p hp => by simpa using (hsig p hp).le
  simp only [runColumn, hfind, hmode, hcol, hsignalled, hbefore, Bool.or_false]
  cases columnCode w a col <;> rfl

/-- A column without a fault lands, its codes counted. -/
theorem runColumn_lands (ds : List Defect) (hsig : ∀ p ∈ pendingMismatches c, col.grant < p.2.grant + 3)
    (hcode : columnCode w a col = none) : runColumn ds c = landColumn w a ds j col cols (monitored w col c) := by
  have hon : col.bankOff = false := by
    cases hoff : col.bankOff with
    | false => rfl
    | true => simp [columnCode, hoff] at hcode
  rw [runColumn_unsignalled hmode hstreams hpre hcol ds hsig, hcode, hon]
  rfl

/-- A column with a fault faults its stream, with no earlier mismatch to raise (R92, R93). -/
theorem runColumn_faulting (ds : List Defect) {code : FaultCode} (hcode : columnCode w a col = some code)
    (hpend : pendingMismatches c = []) :
    ∃ mon, runColumn ds c = dropStreams (entryFault { c with mon := mon } code j.st.entry) := by
  have hrun := runColumn_unsignalled hmode hstreams hpre hcol ds (by simp [hpend])
  have hraise : ∀ mon, raiseAll (entryFault { c with mon := mon } code j.st.entry) =
      entryFault { c with mon := mon } code j.st.entry := by
    intro mon
    have hnone : pendingMismatches (entryFault { c with mon := mon } code j.st.entry) = pendingMismatches c := by
      simp [pendingMismatches, entryFault]
    rw [raiseAll, hnone, hpend]
    rfl
  rw [hcode] at hrun
  cases hoff : col.bankOff with
  | true => exact ⟨c.mon, by rw [hrun, hoff]; exact congrArg dropStreams (hraise c.mon)⟩
  | false => exact ⟨monColumn c.mon w col, by rw [hrun, hoff]; exact congrArg dropStreams (hraise _)⟩

end

/-- A check without an arming uses none. -/
theorem checkColumn_unarmed (ds : List Defect) (m : Matrix) (hres : m.armRes = false) (hdup : m.armDup = false) :
    (checkColumn w a ds col m).usedRes = false ∧ (checkColumn w a ds col m).usedDup = false := by
  simp only [checkColumn, hres, hdup]
  split
  · split <;> exact ⟨rfl, rfl⟩
  · split <;> exact ⟨rfl, rfl⟩

/-- A column that lands without an arming adds its sums, counts its rows, and takes the column from its stream, with the mismatch that
its check finds (R90, R105 to R109). -/
theorem landColumn_unarmed (hstreams : c.matrix.streams = pre ++ j :: post) (hpre : ∀ x ∈ pre, x.inflight = [])
    (hcol : j.inflight = col :: cols) (hres : c.matrix.armRes = false) (hdup : c.matrix.armDup = false) (ds : List Defect) :
    ∃ ms checks, landColumn w a ds j col cols c = { c with
      matrix := { accumulate w a ds col (j.c0 + col.k) c.matrix with
        dupChecks := checks
        streams := pre ++ { j with inflight := cols, done := j.done + 1, mismatches := j.mismatches ++ ms } :: post }
      activity := { c.activity with cols := c.activity.cols + (enabledRows col.buf).length } } := by
  obtain ⟨husedRes, husedDup⟩ := checkColumn_unarmed (w := w) (a := a) (col := col) ds c.matrix hres hdup
  have hst : (accumulate w a ds col (j.c0 + col.k) c.matrix).streams = pre ++ j :: post := by rw [accumulate_frame, ← hstreams]
  have hempty : ∀ x ∈ pre, (!x.inflight.isEmpty) = false := fun x hx => by simp [hpre x hx]
  have hfirst : (!j.inflight.isEmpty) = true := by simp [hcol]
  simp only [landColumn, husedRes, husedDup, Bool.not_false, Bool.and_true, hst,
    modFirst_append (p := fun j => !j.inflight.isEmpty) _ hempty hfirst]
  exact ⟨_, _, rfl⟩

end

/-- Where no mismatch is pending, a fault leaves the streams that are done (R198). -/
theorem dropStreams_clean {c : Core} (hclean : ∀ x ∈ c.matrix.streams, x.mismatches = []) :
    dropStreams c = setMx c { c.matrix with streams := c.matrix.streams.filter fun x => decide (x.done = x.n) } := by
  have hfilter : c.matrix.streams.filter (fun x => decide (x.done = x.n) && x.mismatches.isEmpty) =
      c.matrix.streams.filter fun x => decide (x.done = x.n) :=
    List.filter_congr fun x hx => by simp [hclean x hx]
  rw [dropStreams, hfilter]

/-- A stream with a mismatch ends with the fault, the others where they are not done (R108, R198). -/
theorem dropStreams_mismatch {c : Core} {j : StreamJob} {rest : List StreamJob} {m : Mismatch} (hstreams : c.matrix.streams = j :: rest)
    (hm : j.mismatches = [m]) (hrest : ∀ x ∈ rest, x.mismatches = []) :
    dropStreams c = setMx c { c.matrix with streams := rest.filter fun x => decide (x.done = x.n) } := by
  have hfilter : rest.filter (fun x => decide (x.done = x.n) && x.mismatches.isEmpty) = rest.filter fun x => decide (x.done = x.n) :=
    List.filter_congr fun x hx => by simp [hrest x hx]
  simp [dropStreams, hstreams, hm, hfilter]

/-- A first fault that ends streams: the core without them, and the fault. -/
theorem faults_dropStreams {c : Core} (code : FaultCode) (q : QEntry) (hnone : c.stream.fault = none) :
    Faults (dropStreams c) (dropStreams (entryFault c code q)) code (opEngine q.insn.op) q.pc q.icount := by
  have hcomm : dropStreams (entryFault c code q) = entryFault (dropStreams c) code q := by
    simp [dropStreams, setMx, entryFault, coreFault, hnone, sendPkts, mkPkt]
  rw [hcomm]
  exact faults_entryFault code q hnone

theorem pendingMismatches_eq_nil {c : Core} : pendingMismatches c = [] ↔ ∀ x ∈ c.matrix.streams, x.mismatches = [] := by
  simp [pendingMismatches]

/-- A column with a fault faults, adds nothing, and ends every stream that is not done (R92, R93). -/
theorem runColumn_faults {c : Core} {w a : EType} {pre post : List StreamJob} {j : StreamJob} {col : Column} {cols : List Column}
    (hmode : c.matrix.mode = some (w, a)) (hstreams : c.matrix.streams = pre ++ j :: post) (hpre : ∀ x ∈ pre, x.inflight = [])
    (hcol : j.inflight = col :: cols) (ds : List Defect) {code : FaultCode} (hcode : columnCode w a col = some code)
    (hpend : pendingMismatches c = []) (hnone : c.stream.fault = none) :
    Faults { c with mon := (runColumn ds c).mon, matrix := { c.matrix with streams := (runColumn ds c).matrix.streams } }
      (runColumn ds c) code (opEngine j.st.entry.insn.op) j.st.entry.pc j.st.entry.icount ∧
    (runColumn ds c).matrix.streams = c.matrix.streams.filter fun x => decide (x.done = x.n) := by
  obtain ⟨mon, hrun⟩ := runColumn_faulting hmode hstreams hpre hcol ds hcode hpend
  have hfaults := faults_dropStreams (c := { c with mon := mon }) code j.st.entry hnone
  rw [dropStreams_clean (c := { c with mon := mon }) (pendingMismatches_eq_nil.mp hpend), ← hrun] at hfaults
  have hmon : (runColumn ds c).mon = mon := congrArg Core.mon hfaults
  have hleft : (runColumn ds c).matrix.streams = c.matrix.streams.filter fun x => decide (x.done = x.n) :=
    congrArg (·.matrix.streams) hfaults
  rw [hmon, hleft]
  exact ⟨hfaults, rfl⟩

/-! ### The end of a stream -/

/-- INSTRUCTION_COMPLETE of the oldest stream's count ends that stream and no other instruction (R105, R156). -/
theorem complete_oldestStream {c : Core} {j : StreamJob} {rest : List StreamJob} (hstreams : c.matrix.streams = j :: rest)
    (hstarted : ∀ x ∈ c.started, x.entry.icount ≠ j.st.entry.icount)
    (hjobs : ∀ x ∈ c.xfer.jobs, x.st.entry.icount ≠ j.st.entry.icount) :
    completeStream j.st.entry.icount (completeXfer j.st.entry.icount (completeStarted j.st.entry.icount c)) = finishStream c := by
  have hs : completeStarted j.st.entry.icount c = c := by
    have hfind : c.started.find? (fun s => decide (s.entry.icount = j.st.entry.icount)) = none :=
      List.find?_eq_none.mpr fun x hx => by simp [hstarted x hx]
    simp only [completeStarted, hfind]
  have hx : completeXfer j.st.entry.icount c = c := by
    have hfind : c.xfer.jobs.find? (fun i => decide (i.st.entry.icount = j.st.entry.icount) && xferDone i) = none :=
      List.find?_eq_none.mpr fun x hx => by simp [hjobs x hx]
    simp only [completeXfer, hfind]
  rw [hs, hx]
  simp only [completeStream, hstreams, if_true]

/-- A stream that is done and found one mismatch raises it in place of completing (R105, R108). -/
theorem finishStream_mismatch {c : Core} {j : StreamJob} {rest : List StreamJob} {m : Mismatch}
    (hstreams : c.matrix.streams = j :: rest) (hdone : j.done = j.n) (hm : j.mismatches = [m])
    (hrest : ∀ x ∈ rest, x.mismatches = []) : finishStream c = dropStreams (raiseMismatch c j m) := by
  have hpend : pendingMismatches c = [(j, m)] := by
    have hnone : rest.flatMap (fun j => j.mismatches.map fun m => (j, m)) = [] :=
      List.flatMap_eq_nil_iff.mpr fun x hx => by simp [hrest x hx]
    simp [pendingMismatches, hstreams, hm, hnone]
  simp [finishStream, hstreams, hdone, hm, raiseAll, hpend]

/-- The core with a mismatch counted, unless it was injected (R110, R111). -/
def mismatchCounted (m : Mismatch) (c : Core) : Core :=
  { c with
    matrix := { c.matrix with
      injected := m.injected
      witnessEvents := if m.injected then c.matrix.witnessEvents else sat32 c.matrix.witnessEvents 1 }
    events := if m.injected then c.events else c.events ++ [(0, 0)] }

theorem finishStream_faults {c : Core} {j : StreamJob} {rest : List StreamJob} {m : Mismatch} (hstreams : c.matrix.streams = j :: rest)
    (hdone : j.done = j.n) (hm : j.mismatches = [m]) (hrest : ∀ x ∈ rest, x.mismatches = []) (hnone : c.stream.fault = none) :
    Faults (setMx (mismatchCounted m c) { (mismatchCounted m c).matrix with streams := rest.filter fun x => decide (x.done = x.n) })
      (finishStream c) .witnessMismatch (opEngine j.st.entry.insn.op) j.st.entry.pc j.st.entry.icount := by
  rw [finishStream_mismatch hstreams hdone hm hrest, ← dropStreams_mismatch (c := mismatchCounted m c) hstreams hm hrest]
  exact faults_dropStreams (c := mismatchCounted m c) .witnessMismatch j.st.entry hnone

end Sys2Proof.Machine
end

section
/-!
PROOFS. The matrix engine (O16): the statement, instruction by instruction.
-/

namespace Sys2Proof.Machine

/-- Settles O16: each command is one update of its core; the starts come from the head of the matrix queue, the columns and ends from
the streams. -/
theorem matrixEngine : Obligations.MatrixEngine := by
  unfold Obligations.MatrixEngine
  refine ⟨?_, ?_⟩
  · intro site s st c1 hsite h c base next slots faults invalid
    refine ⟨?mmode, ?mclear, ?mdrain, ?mload, ?mstream⟩
    case mmode =>
      intro a w hop
      have heng := congrArg opEngine hop
      refine ⟨fun wt at_ hw ha => ⟨fun hpair => coreNext_of_onCore hsite rfl ?_,
        fun hpair => coreFaults_of_onCore hsite h rfl (startMmode_otherPair h hop hw ha hpair) rfl heng⟩,
        fun hnone => coreFaults_of_onCore hsite h rfl (startMmode_noType h hop hnone) rfl heng⟩
      rw [startMmode_allowed h hop hw ha hpair]
      exact ⟨completed_completeEntry _ st, completeEntry_frame _ st⟩
    case mclear =>
      intro tiles hop
      refine ⟨fun htiles => coreNext_of_onCore hsite rfl ?_, fun htiles => coreNext_of_onCore hsite rfl ?_⟩
      · rw [startMclear_none h hop htiles]
        exact ⟨completed_completeEntry _ st, completeEntry_frame _ st⟩
      · rw [startMclear_some h hop htiles]
        exact ⟨rfl, fun r col hr hcol => ⟨clearTiles_acc tiles c.matrix r hcol, clearTiles_live tiles c.matrix hr hcol⟩⟩
    case mdrain =>
      intro vb clr g0 ng r0 nr hop groups rows
      refine ⟨fun hr hg hn hlands => coreNext_of_onCore hsite rfl ⟨startMdrain_frame h hop hr hg hn hlands, ?_,
        fun n hother => startMdrain_otherRegister h hop hr hg hn hlands hother,
        fun r col hrow hcol => startMdrain_entries h hop hr hg hn hrow hcol⟩,
        fun hpast => coreFaults_of_onCore hsite h rfl (startMdrain_past h hop hpast) rfl (congrArg opEngine hop)⟩
      intro i hi reg
      rw [startMdrain_register h hop hr hg hn hlands hi]
      exact ⟨fun lane hlane => ⟨rowWord_drainedRow _ _ _ _ _ _ hlane, rowZ_drainedRow _ _ _ _ _ _ hlane⟩, rfl⟩
    case mload =>
      intro an pi k rm hop c2
      have heng := congrArg opEngine hop
      exact ⟨fun wt at_ hmode => ⟨fun hbase => coreNext_of_onCore hsite rfl (startMload_inRange h hop hmode hbase),
        fun hbase => coreFaults_of_onCore hsite h rfl (startMload_pastSlab h hop hmode hbase) rfl heng⟩,
        fun hmode => coreFaults_of_onCore hsite h rfl (startMload_noMode h hop hmode) rfl heng⟩
    case mstream =>
      intro an pi flip c0 n hop front back c2
      have heng := congrArg opEngine hop
      refine ⟨fun hn => coreNext_of_onCore hsite rfl ?_, fun hne => ?_⟩
      · rw [startMstream_zero h hop hn]
        exact ⟨completed_completeEntry c2 st, completeEntry_frame c2 st⟩
      · have hn : n.toNat ≠ 0 := fun hzero => hne (BitVec.eq_of_toNat_eq hzero)
        exact ⟨fun hvalid => coreFaults_of_onCore hsite h rfl (startMstream_invalid h hop hn hvalid) rfl heng,
          fun hvalid hacc => coreFaults_of_onCore hsite h rfl (startMstream_pastAcc h hop hn hvalid hacc) rfl heng,
          fun hvalid hacc hslab => coreFaults_of_onCore hsite h rfl (startMstream_pastSlab h hop hn hvalid hacc hslab) rfl heng,
          fun hvalid hacc hslab => coreNext_of_onCore hsite rfl (startMstream_inRange h hop hn hvalid hacc hslab)⟩
  · intro site s w a hsite hmode c next
    refine ⟨?loadEnd, ?column, ?mismatch⟩
    case loadEnd =>
      intro j hload hread
      exact coreNext_of_onCore hsite rfl (loadComplete_eq hmode hload hread)
    case column =>
      intro pre j post col cols hstreams hpre hcol hsig
      refine ⟨fun hcode hres hdup => coreNext_of_onCore hsite rfl ?_, fun code ds hcode hpend hnone =>
        coreNext_of_onCore hsite rfl (runColumn_faults hmode hstreams hpre hcol ds hcode hpend hnone)⟩
      obtain ⟨ms, checks, hland⟩ := landColumn_unarmed (c := monitored w col c) (w := w) (a := a) hstreams hpre hcol hres hdup []
      rw [runColumn_lands hmode hstreams hpre hcol [] hsig hcode, hland]
      refine ⟨?_, ⟨ms, rfl⟩, fun r x hr hx hcx => accumulate_get w a [] col c.matrix hcx hr hx,
        fun r hr hmask hcx => accumulate_sets_live w a [] col c.matrix hcx hr hmask⟩
      rw [accumulate_frame]
      rfl
    case mismatch =>
      intro j rest m hstreams hdone hm hrest hstarted hjobs hnone
      refine coreNext_of_onCore hsite rfl ?_
      rw [complete_oldestStream hstreams hstarted hjobs]
      exact finishStream_faults hstreams hdone hm hrest hnone

end Sys2Proof.Machine
end

section
/-!
PROOFS. Codes of slab and HBM words (O21): parity, syndromes, and what a word with given errors decodes to.
-/

namespace Sys2Proof.Machine

/-! ### Counts and parities of bits -/

/-- Parity is linear: whatever bits are counted, the parity of a sum is the sum of the parities. -/
theorem foldl_parity_xor {n : Nat} (x y : BitVec n) (l : List Nat) (p q : Bool) :
    l.foldl (fun p i => xor p ((x ^^^ y).getLsbD i)) (xor p q) =
      xor (l.foldl (fun p i => xor p (x.getLsbD i)) p) (l.foldl (fun p i => xor p (y.getLsbD i)) q) := by
  induction l generalizing p q with
  | nil => rfl
  | cons i l ih =>
    simp only [List.foldl_cons]
    rw [← ih, BitVec.getLsbD_xor]
    simp only [Bool.xor_assoc, Bool.xor_left_comm q]

theorem oddParity_xor {n : Nat} (x y : BitVec n) : oddParity (x ^^^ y) = xor (oddParity x) (oddParity y) :=
  foldl_parity_xor x y (List.range n) false false

/-- A parity counted from p is p and the parity counted from false. -/
theorem foldl_parity_start (g : Nat → Bool) (l : List Nat) (p : Bool) :
    l.foldl (fun p i => xor p (g i)) p = xor p (l.foldl (fun p i => xor p (g i)) false) := by
  induction l generalizing p with
  | nil => simp
  | cons i l ih =>
    rw [List.foldl_cons, List.foldl_cons, ih, ih (xor false (g i)), Bool.false_xor, Bool.xor_assoc]

theorem oddParity_append {m n : Nat} (x : BitVec m) (y : BitVec n) : oddParity (x ++ y) = xor (oddParity y) (oddParity x) := by
  have hlow : ∀ i ∈ List.range n, ∀ p, xor p ((x ++ y).getLsbD i) = xor p (y.getLsbD i) := by
    intro i hi p
    rw [BitVec.getLsbD_append, if_pos (List.mem_range.mp hi)]
  have hhigh : ∀ i, (x ++ y).getLsbD (n + i) = x.getLsbD i := by
    intro i
    rw [BitVec.getLsbD_append, if_neg (by omega), Nat.add_sub_cancel_left]
  have hrange : List.range (m + n) = List.range n ++ (List.range m).map (n + ·) := by rw [Nat.add_comm m n, List.range_add]
  unfold oddParity
  rw [hrange, List.foldl_append, List.foldl_map, foldl_parity_start]
  simp only [hhigh]
  rw [List.foldl_ext _ _ _ fun p i hi => hlow i hi p]

/-- A bit stored for a parity has that parity (R128, R357). -/
theorem oddParity_parityBit (p : Bool) : oddParity (if p then 1#1 else 0#1) = p := by cases p <;> rfl

/-- The parity is that of the number of set bits. -/
theorem oddParity_eq_popCount {n : Nat} (x : BitVec n) : oddParity x = decide (popCount x % 2 = 1) := by
  have key : ∀ (l : List Nat) (k : Nat), l.foldl (fun p i => xor p (x.getLsbD i)) (decide (k % 2 = 1)) =
      decide (l.foldl (fun k i => k + (x.getLsbD i).toNat) k % 2 = 1) := by
    intro l
    induction l with
    | nil => exact fun _ => rfl
    | cons i l ih =>
      intro k
      rw [List.foldl_cons, List.foldl_cons, ← ih]
      congr 1
      cases x.getLsbD i
      · simp
      · rcases Nat.mod_two_eq_zero_or_one k with h | h <;> simp [h, Nat.add_mod]
  exact key (List.range n) 0

/-- A word without a set bit is zero. -/
theorem eq_zero_of_popCount {n : Nat} (x : BitVec n) (h : popCount x = 0) : x = 0#n := by
  have hsum : popCount x = ((List.range n).map fun i => (x.getLsbD i).toNat).sum := by
    rw [popCount, List.sum_eq_foldl, List.foldl_map]
  rw [hsum, List.sum_eq_zero_iff] at h
  refine BitVec.eq_of_getLsbD_eq fun i hi => ?_
  simpa using h _ (List.mem_map_of_mem (List.mem_range.mpr hi))

/-! ### Hamming checks -/

/-- The check bits of a word whose bits stand at given codeword positions: the XOR of the positions of its set bits. -/
def hammingCheck {n : Nat} (m : Nat) (pos : List Nat) (d : BitVec n) : BitVec m :=
  pos.zipIdx.foldl (fun s p => if d.getLsbD p.2 then s ^^^ BitVec.ofNat m p.1 else s) 0#m

theorem secCheck_eq_hammingCheck (d : W32) : secCheck d = hammingCheck 6 secPos d := rfl

theorem hbmHamming_eq_hammingCheck (d : W64) : hbmHamming d = hammingCheck 7 hbmPos d := rfl

theorem hammingCheck_xor {n : Nat} (m : Nat) (pos : List Nat) (x y : BitVec n) :
    hammingCheck m pos (x ^^^ y) = hammingCheck m pos x ^^^ hammingCheck m pos y := by
  have key : ∀ (l : List (Nat × Nat)) (s t : BitVec m),
      l.foldl (fun s p => if (x ^^^ y).getLsbD p.2 then s ^^^ BitVec.ofNat m p.1 else s) (s ^^^ t) =
        l.foldl (fun s p => if x.getLsbD p.2 then s ^^^ BitVec.ofNat m p.1 else s) s ^^^
          l.foldl (fun s p => if y.getLsbD p.2 then s ^^^ BitVec.ofNat m p.1 else s) t := by
    intro l
    induction l with
    | nil => exact fun _ _ => rfl
    | cons p l ih =>
      intro s t
      simp only [List.foldl_cons]
      rw [← ih, BitVec.getLsbD_xor]
      congr 1
      generalize BitVec.ofNat m p.1 = g
      cases x.getLsbD p.2 <;> cases y.getLsbD p.2
      · rfl
      · exact BitVec.xor_assoc s t g
      · show s ^^^ t ^^^ g = s ^^^ g ^^^ t
        ac_rfl
      · show s ^^^ t = s ^^^ g ^^^ (t ^^^ g)
        rw [BitVec.xor_assoc s g, ← BitVec.xor_assoc g, BitVec.xor_comm g, BitVec.xor_assoc t, BitVec.xor_self, BitVec.xor_zero]
  simpa only [hammingCheck, BitVec.xor_zero] using key pos.zipIdx 0#m 0#m

/-- The data bit at a codeword position; none where the position is that of a check bit. -/
def hammingFlip {n : Nat} (pos : List Nat) (s : Nat) : BitVec n :=
  match pos.idxOf? s with
  | some i => 1#n <<< i
  | none => 0#n

/-- A decoder corrects a word by the bit at the position that the syndrome gives. -/
theorem hammingFlip_corrects {n : Nat} (pos : List Nat) (s : Nat) (d : BitVec n) :
    (match pos.idxOf? s with
      | some i => d ^^^ (1#n <<< i)
      | none => d) = d ^^^ hammingFlip pos s := by
  unfold hammingFlip
  cases pos.idxOf? s with
  | some i => rfl
  | none => exact BitVec.xor_zero.symm

/-! ### The parts of a joined word -/

theorem extractLsb'_append_low {a c : Nat} (x : BitVec a) (z : BitVec c) : (x ++ z).extractLsb' 0 c = z := by
  refine BitVec.eq_of_getLsbD_eq fun i hi => ?_
  rw [BitVec.getLsbD_extractLsb', BitVec.getLsbD_append, decide_eq_true hi, Nat.zero_add, if_pos hi, Bool.true_and]

theorem extractLsb'_append_append_low {a b c : Nat} (x : BitVec a) (y : BitVec b) (z : BitVec c) :
    (x ++ (y ++ z)).extractLsb' 0 c = z := by
  refine BitVec.eq_of_getLsbD_eq fun i hi => ?_
  rw [BitVec.getLsbD_extractLsb', BitVec.getLsbD_append, BitVec.getLsbD_append, decide_eq_true hi, Nat.zero_add,
    if_pos (by omega), if_pos hi, Bool.true_and]

theorem extractLsb'_append_append_mid {a b c : Nat} (x : BitVec a) (y : BitVec b) (z : BitVec c) :
    (x ++ (y ++ z)).extractLsb' c b = y := by
  refine BitVec.eq_of_getLsbD_eq fun i hi => ?_
  rw [BitVec.getLsbD_extractLsb', BitVec.getLsbD_append, BitVec.getLsbD_append, decide_eq_true hi, if_pos (by omega),
    if_neg (by omega), Nat.add_sub_cancel_left, Bool.true_and]

/-! ### Slab words (R128 to R131) -/

/-- The data bits of a stored word. -/
def secData (w : SlabWord) : W32 := w.extractLsb' 0 32

/-- The syndrome of a stored word (R129). -/
def secSyndrome (w : SlabWord) : BitVec 6 := secCheck (secData w) ^^^ (w.extractLsb' 32 7).extractLsb' 0 6

/-- The overall parity check of a stored word (R129). -/
def secParity (w : SlabWord) : Bool := xor (oddParity (secData w)) (oddParity (w.extractLsb' 32 7))

/-- A word with Z set reads as crazed. -/
theorem secDecode_crazed {w : SlabWord} (hz : w.getLsbD 39 = true) :
    secDecode w = { data := secData w, crazed := true, ce := false, ue := false } := by
  simp only [secDecode, hz, if_true, secData]

/-- A word with Z clear decodes by its syndrome and its parity. -/
theorem secDecode_of_z_clear {w : SlabWord} (hz : w.getLsbD 39 = false) :
    secDecode w =
      if !secParity w && (secSyndrome w).toNat == 0 then { data := secData w, crazed := false, ce := false, ue := false }
      else if secParity w && decide ((secSyndrome w).toNat < 39) then
        { data := secData w ^^^ hammingFlip secPos (secSyndrome w).toNat, crazed := false, ce := true, ue := false }
      else { data := secData w, crazed := true, ce := false, ue := true } := by
  rw [← hammingFlip_corrects]
  simp only [secDecode, hz]
  rfl

/-- An even word with syndrome 0 is clean. -/
theorem secDecode_clean {w : SlabWord} (hz : w.getLsbD 39 = false) (hp : secParity w = false) (hs : secSyndrome w = 0#6) :
    secDecode w = { data := secData w, crazed := false, ce := false, ue := false } := by
  simp [secDecode_of_z_clear hz, hp, hs]

/-- An odd word is corrected at the place of its syndrome. -/
theorem secDecode_odd {w : SlabWord} (hz : w.getLsbD 39 = false) (hp : secParity w = true) (hs : (secSyndrome w).toNat < 39) :
    secDecode w = { data := secData w ^^^ hammingFlip secPos (secSyndrome w).toNat, crazed := false, ce := true, ue := false } := by
  simp [secDecode_of_z_clear hz, hp, hs]

/-- An even word with a syndrome other than 0 is uncorrectable. -/
theorem secDecode_even {w : SlabWord} (hz : w.getLsbD 39 = false) (hp : secParity w = false) (hs : secSyndrome w ≠ 0#6) :
    secDecode w = { data := secData w, crazed := true, ce := false, ue := true } := by
  have hs' : (secSyndrome w).toNat ≠ 0 := fun h => hs (BitVec.eq_of_toNat_eq h)
  simp [secDecode_of_z_clear hz, hp, hs']

theorem secData_xor (v w : SlabWord) : secData (v ^^^ w) = secData v ^^^ secData w := BitVec.extractLsb'_xor

theorem secSyndrome_xor (v w : SlabWord) : secSyndrome (v ^^^ w) = secSyndrome v ^^^ secSyndrome w := by
  simp only [secSyndrome, secData_xor, secCheck_eq_hammingCheck, hammingCheck_xor, BitVec.extractLsb'_xor]
  ac_rfl

theorem secParity_xor (v w : SlabWord) : secParity (v ^^^ w) = xor (secParity v) (secParity w) := by
  simp only [secParity, secData_xor, BitVec.extractLsb'_xor, oddParity_xor]
  simp only [Bool.xor_assoc, Bool.xor_left_comm (oddParity (secData w))]

/-- The parts of a stored word: Z, the check bits and the data bits (R128, R131). -/
theorem secEncode_parts (d : W32) (z : Bool) :
    secEncode d z = (if z then 1#1 else 0#1) ++ ((if z then ~~~secBits d else secBits d) ++ d) := by cases z <;> rfl

theorem secEncode_z (d : W32) (z : Bool) : (secEncode d z).getLsbD 39 = z := by
  rw [secEncode_parts]
  exact (BitVec.getLsbD_append ..).trans (by cases z <;> rfl)

theorem secEncode_data (d : W32) (z : Bool) : secData (secEncode d z) = d := by
  rw [secEncode_parts]
  exact extractLsb'_append_append_low ..

theorem secEncode_check (d : W32) : (secEncode d false).extractLsb' 32 7 = secBits d := extractLsb'_append_append_mid (0#1) (secBits d) d

theorem secBits_low (d : W32) : (secBits d).extractLsb' 0 6 = secCheck d := extractLsb'_append_low _ (secCheck d)

theorem secSyndrome_secEncode (d : W32) : secSyndrome (secEncode d false) = 0#6 := by
  rw [secSyndrome, secEncode_data, secEncode_check, secBits_low, BitVec.xor_self]

theorem secParity_secEncode (d : W32) : secParity (secEncode d false) = false := by
  rw [secParity, secEncode_data, secEncode_check, secBits]
  simp only [oddParity_append, oddParity_parityBit]
  cases oddParity d <;> cases oddParity (secCheck d) <;> rfl

/-- A stored word with errors has the syndrome and the parity of the errors. -/
theorem secEncode_xor (d : W32) (e : SlabWord) :
    secSyndrome (secEncode d false ^^^ e) = secSyndrome e ∧ secParity (secEncode d false ^^^ e) = secParity e ∧
      secData (secEncode d false ^^^ e) = d ^^^ secData e ∧ (secEncode d false ^^^ e).getLsbD 39 = e.getLsbD 39 := by
  rw [secSyndrome_xor, secParity_xor, secData_xor, BitVec.getLsbD_xor, secSyndrome_secEncode, secParity_secEncode, secEncode_data,
    secEncode_z, Bool.false_xor, Bool.false_xor, BitVec.zero_xor]
  exact ⟨rfl, rfl, rfl, rfl⟩

/-- One flipped bit is odd, and its syndrome is its position, of a data bit or of a check bit (R128). -/
theorem sec_single_flip : ∀ i < 39, (1#40 <<< i).getLsbD 39 = false ∧ secParity (1#40 <<< i) = true ∧
    (secSyndrome (1#40 <<< i)).toNat < 39 ∧ hammingFlip secPos (secSyndrome (1#40 <<< i)).toNat = secData (1#40 <<< i) := by
  decide +kernel

/-- No two bits of a word stand at the same position. -/
theorem secSyndrome_single_nodup : ((List.range 39).map fun i => secSyndrome (1#40 <<< i)).Nodup := by decide +kernel

/-- One flipped bit is corrected (R129). -/
theorem secDecode_one_flip (d : W32) {i : Nat} (hi : i < 39) :
    secDecode (secEncode d false ^^^ (1#40 <<< i)) = { data := d, crazed := false, ce := true, ue := false } := by
  obtain ⟨hz, hp, hs, hflip⟩ := sec_single_flip i hi
  obtain ⟨hes, hep, hed, hez⟩ := secEncode_xor d (1#40 <<< i)
  rw [secDecode_odd (hez.trans hz) (hep.trans hp) (by rwa [hes]), hed, hes, hflip, BitVec.xor_assoc, BitVec.xor_self, BitVec.xor_zero]

/-- Two flipped bits are even and their syndrome is not 0: the word is uncorrectable (R129, R130). -/
theorem secDecode_two_flips (d : W32) {i j : Nat} (hij : i < j) (hj : j < 39) :
    ∃ x, secDecode (secEncode d false ^^^ (1#40 <<< i) ^^^ (1#40 <<< j)) = { data := x, crazed := true, ce := false, ue := true } := by
  have hi : i < 39 := hij.trans hj
  obtain ⟨hzi, hpi, -, -⟩ := sec_single_flip i hi
  obtain ⟨hzj, hpj, -, -⟩ := sec_single_flip j hj
  obtain ⟨hes, hep, -, hez⟩ := secEncode_xor d (1#40 <<< i ^^^ 1#40 <<< j)
  have hne : secSyndrome (1#40 <<< i) ≠ secSyndrome (1#40 <<< j) := fun h =>
    hij.ne (List.inj_on_of_nodup_map secSyndrome_single_nodup (List.mem_range.mpr hi) (List.mem_range.mpr hj) h)
  rw [BitVec.xor_assoc]
  refine ⟨_, secDecode_even ?_ ?_ ?_⟩
  · rw [hez, BitVec.getLsbD_xor, hzi, hzj]
    rfl
  · rw [hep, secParity_xor, hpi, hpj]
    rfl
  · rw [hes, secSyndrome_xor]
    exact fun h => hne (BitVec.xor_eq_zero_iff.mp h)

/-! ### HBM words (R357 to R359) -/

/-- The data bits of a stored word. -/
def hbmWordData (w : HbmWord) : W64 := w.extractLsb' 0 64

/-- The syndrome of a stored word (R359). -/
def hbmSyndrome (w : HbmWord) : BitVec 7 := hbmHamming (hbmWordData w) ^^^ w.extractLsb' 64 7

/-- A word within one bit of the marker reads as crazed. -/
theorem hbmDecode_near_marker {w : HbmWord} (h : popCount (w ^^^ hbmMarker) ≤ 1) :
    hbmDecode w = { data := hbmWordData w, crazed := true, ce := false, ue := false } := if_pos h

/-- Any other word decodes by its syndrome and its parity. -/
theorem hbmDecode_of_not_near {w : HbmWord} (h : ¬popCount (w ^^^ hbmMarker) ≤ 1) :
    hbmDecode w =
      if (hbmSyndrome w).toNat = 0 ∧ !oddParity w then { data := hbmWordData w, crazed := false, ce := false, ue := false }
      else if oddParity w ∧ (hbmSyndrome w).toNat ≤ 71 then
        { data := hbmWordData w ^^^ hammingFlip hbmPos (hbmSyndrome w).toNat, crazed := false, ce := true, ue := false }
      else { data := hbmWordData w, crazed := true, ce := false, ue := true } := by
  rw [← hammingFlip_corrects]
  exact if_neg h

/-- An even word with syndrome 0 is clean. -/
theorem hbmDecode_clean {w : HbmWord} (h : ¬popCount (w ^^^ hbmMarker) ≤ 1) (hp : oddParity w = false) (hs : hbmSyndrome w = 0#7) :
    hbmDecode w = { data := hbmWordData w, crazed := false, ce := false, ue := false } := by
  simp [hbmDecode_of_not_near h, hp, hs]

/-- An odd word is corrected at the place of its syndrome. -/
theorem hbmDecode_odd {w : HbmWord} (h : ¬popCount (w ^^^ hbmMarker) ≤ 1) (hp : oddParity w = true) (hs : (hbmSyndrome w).toNat ≤ 71) :
    hbmDecode w = { data := hbmWordData w ^^^ hammingFlip hbmPos (hbmSyndrome w).toNat, crazed := false, ce := true, ue := false } := by
  simp [hbmDecode_of_not_near h, hp, hs]

theorem hbmWordData_xor (v w : HbmWord) : hbmWordData (v ^^^ w) = hbmWordData v ^^^ hbmWordData w := BitVec.extractLsb'_xor

theorem hbmSyndrome_xor (v w : HbmWord) : hbmSyndrome (v ^^^ w) = hbmSyndrome v ^^^ hbmSyndrome w := by
  simp only [hbmSyndrome, hbmWordData_xor, hbmHamming_eq_hammingCheck, hammingCheck_xor, BitVec.extractLsb'_xor]
  ac_rfl

theorem hbmEncode_data (d : W64) : hbmWordData (hbmEncode d) = d := extractLsb'_append_append_low _ (hbmHamming d) d

theorem hbmEncode_check (d : W64) : (hbmEncode d).extractLsb' 64 7 = hbmHamming d := extractLsb'_append_append_mid _ (hbmHamming d) d

theorem hbmSyndrome_hbmEncode (d : W64) : hbmSyndrome (hbmEncode d) = 0#7 := by
  rw [hbmSyndrome, hbmEncode_data, hbmEncode_check, BitVec.xor_self]

theorem oddParity_hbmEncode (d : W64) : oddParity (hbmEncode d) = false := by
  rw [hbmEncode]
  simp only [oddParity_append, oddParity_parityBit]
  cases oddParity d <;> cases oddParity (hbmHamming d) <;> rfl

/-- The marker is even, and no codeword: its syndrome is not 0 (R358). -/
theorem hbmMarker_even : oddParity hbmMarker = false ∧ hbmSyndrome hbmMarker ≠ 0#7 := by decide +kernel

/-- No stored word lies within one bit of the marker: both are even, so one that did would be the marker. -/
theorem hbmEncode_not_near_marker (d : W64) : ¬popCount (hbmEncode d ^^^ hbmMarker) ≤ 1 := by
  intro hnear
  have heven : oddParity (hbmEncode d ^^^ hbmMarker) = false := by
    rw [oddParity_xor, oddParity_hbmEncode, hbmMarker_even.1]
    rfl
  rw [oddParity_eq_popCount, decide_eq_false_iff_not] at heven
  have hmarker : hbmEncode d = hbmMarker := BitVec.xor_eq_zero_iff.mp (eq_zero_of_popCount _ (by omega))
  exact hbmMarker_even.2 (hmarker ▸ hbmSyndrome_hbmEncode d)

/-- A stored word decodes to what was stored. -/
theorem hbmDecode_hbmEncode (d : W64) : hbmDecode (hbmEncode d) = { data := d, crazed := false, ce := false, ue := false } := by
  rw [hbmDecode_clean (hbmEncode_not_near_marker d) (oddParity_hbmEncode d) (hbmSyndrome_hbmEncode d), hbmEncode_data]

/-- One flipped bit is one set bit, and its syndrome is its position, of a data bit or of a check bit (R357). -/
theorem hbm_single_flip : ∀ i < 72, popCount (1#72 <<< i) = 1 ∧ (hbmSyndrome (1#72 <<< i)).toNat ≤ 71 ∧
    hammingFlip hbmPos (hbmSyndrome (1#72 <<< i)).toNat = hbmWordData (1#72 <<< i) := by decide +kernel

/-- One flipped bit is corrected, except near the marker (R359). -/
theorem hbmDecode_one_flip (d : W64) {i : Nat} (hi : i < 72) (hfar : ¬popCount (hbmEncode d ^^^ (1#72 <<< i) ^^^ hbmMarker) ≤ 1) :
    hbmDecode (hbmEncode d ^^^ (1#72 <<< i)) = { data := d, crazed := false, ce := true, ue := false } := by
  obtain ⟨hone, hs, hflip⟩ := hbm_single_flip i hi
  have hodd : oddParity (hbmEncode d ^^^ (1#72 <<< i)) = true := by
    rw [oddParity_xor, oddParity_hbmEncode, oddParity_eq_popCount, hone]
    rfl
  have hsyn : hbmSyndrome (hbmEncode d ^^^ (1#72 <<< i)) = hbmSyndrome (1#72 <<< i) := by
    rw [hbmSyndrome_xor, hbmSyndrome_hbmEncode, BitVec.zero_xor]
  rw [hbmDecode_odd hfar hodd (by rwa [hsyn]), hsyn, hflip, hbmWordData_xor, hbmEncode_data, BitVec.xor_assoc, BitVec.xor_self,
    BitVec.xor_zero]

/-- The marker with one flipped bit still reads as crazed. -/
theorem hbmDecode_marker_one_flip {i : Nat} (hi : i < 72) : (hbmDecode (hbmMarker ^^^ (1#72 <<< i))).crazed = true := by
  have hnear : popCount (hbmMarker ^^^ (1#72 <<< i) ^^^ hbmMarker) ≤ 1 := by
    rw [BitVec.xor_comm hbmMarker, BitVec.xor_assoc, BitVec.xor_self, BitVec.xor_zero]
    exact (hbm_single_flip i hi).1.le
  rw [hbmDecode_near_marker hnear]

/-- Settles O21: errors are decoded by their own syndrome and parity, since both are linear and a stored word has neither. -/
theorem codesCorrect : Obligations.CodesCorrect := by
  refine ⟨fun d => ⟨?clean, ?crazed, fun i hi => secDecode_one_flip d hi, fun i j hij hj => ?two⟩,
    fun d => ⟨hbmDecode_hbmEncode d, fun i hi => ?flip⟩, fun i hi => hbmDecode_marker_one_flip hi, ?marker⟩
  case clean =>
    rw [secDecode_clean (secEncode_z d false) (secParity_secEncode d) (secSyndrome_secEncode d), secEncode_data]
  case crazed => rw [secDecode_crazed (secEncode_z d true), secEncode_data]
  case two =>
    obtain ⟨x, h⟩ := secDecode_two_flips d hij hj
    rw [h]
    exact ⟨rfl, rfl⟩
  case flip =>
    by_cases hnear : popCount (hbmEncode d ^^^ (1#72 <<< i) ^^^ hbmMarker) ≤ 1
    · exact Or.inr ⟨hnear, by rw [hbmDecode_near_marker hnear]⟩
    · exact Or.inl (hbmDecode_one_flip d hi hnear)
  case marker => exact congrArg HbmDecoded.crazed (hbmDecode_near_marker (w := hbmMarker) (by decide))

end Sys2Proof.Machine
end

section
/-!
PROOFS. Fettling requests and banks (O24): bits of a bank, a bank's words zeroed, and what a bank that closes late refuses.
-/

namespace Sys2Proof.Machine

/-! ### Bits and words of a bank -/

/-- One bit written as 0. -/
theorem getLsbD_clearBit {n : Nat} (x : BitVec n) (b k : Nat) :
    (setField x b 1 0).getLsbD k = (x.getLsbD k && !decide (k = b)) := by
  by_cases hk : k = b
  · simp [hk, getLsbD_setField_zero x (le_refl b) (show b < b + 1 by omega)]
  · simp [hk, getLsbD_setField_other x (show k < b ∨ b + 1 ≤ k by omega)]

/-- One bit written as 1. -/
theorem getLsbD_setBit {n : Nat} (x : BitVec n) {b : Nat} (hb : b < n) (k : Nat) :
    (setField x b 1 1).getLsbD k = (x.getLsbD k || decide (k = b)) := by
  by_cases hk : k = b
  · simp [hk, setField, hb]
  · simp [hk, getLsbD_setField_other x (show k < b ∨ b + 1 ≤ k by omega)]

/-- A key below every listed key reads as the unlisted value. -/
theorem smGet_of_smAbove {α : Type} (d : α) {k : Nat} {m : SMap α} (h : smAbove k m = true) : smGet d m k = d := by
  induction m with
  | nil => rfl
  | cons a m ih =>
    simp only [smAbove, Bool.and_eq_true, decide_eq_true_eq] at h
    rw [smGet, if_neg (by omega), ih h.2]

/-- Reading a mapped store: f of what was stored, where f keeps the unlisted value. -/
theorem smGet_smMap {α : Type} [DecidableEq α] (d : α) (f : Nat → α → α) {m : SMap α} (h : smWf d m = true) (k : Nat)
    (hf : f k d = d) : smGet d (smMap d f m) k = f k (smGet d m k) := by
  induction m with
  | nil => exact hf.symm
  | cons a m ih =>
    obtain ⟨j, v⟩ := a
    simp only [smWf, Bool.and_eq_true, decide_eq_true_eq] at h
    obtain ⟨⟨-, habove⟩, hm⟩ := h
    have hcons : smMap d f ((j, v) :: m) = if f j v = d then smMap d f m else (j, f j v) :: smMap d f m := by
      by_cases hv : f j v = d <;> simp [smMap, hv]
    rw [hcons, smGet]
    by_cases hj : j = k
    · subst hj
      rw [if_pos rfl]
      split
      · next hv => rw [hv, smGet_of_smAbove d (smAbove_smMap d f j m habove)]
      · rw [smGet, if_pos rfl]
    · rw [if_neg hj]
      split
      · exact ih hm
      · rw [smGet, if_neg hj, ih hm]

/-- The words of a bank zeroed, and no other word (R145). -/
theorem zeroBanks_word {c : Core} (hwf : smWf 0#40 c.slab.words = true) {b row seg : Nat} (hseg : seg < 36) :
    smGet 0#40 (zeroBanks c (BitVec.ofNat 36 (2 ^ b))).slab.words (row * 36 + seg) =
      if slabBank row seg = b then 0#40 else smGet 0#40 c.slab.words (row * 36 + seg) := by
  have hrow : (row * 36 + seg) / 36 = row := by omega
  have hcol : (row * 36 + seg) % 36 = seg := by omega
  have hbank : slabBank row seg < 36 := by unfold slabBank; split <;> omega
  have hbit : (BitVec.ofNat 36 (2 ^ b)).getLsbD (slabBank row seg) = decide (slabBank row seg = b) := by
    rw [BitVec.getLsbD_ofNat, Nat.testBit_two_pow, decide_eq_true hbank, Bool.true_and, Bool.eq_iff_iff]
    simp [eq_comm]
  simp only [zeroBanks]
  rw [smGet_smMap 0#40 _ hwf _ (ite_self _), hrow, hcol, hbit]
  simp only [decide_eq_true_eq]

/-! ### Writes refused as a bank closes (R143) -/

/-- What refusing writes leaves alone: the banks' states, the stored words, the vector and address registers, the accumulators. -/
def bankView (c : Core) : BitVec 36 × BitVec 36 × SMap SlabWord × Vec × SMap AReg × Matrix :=
  (c.slab.closing, c.slab.off, c.slab.words, c.vec, c.aregs, c.matrix)

theorem bankView_ite {p : Prop} [Decidable p] {a b c : Core} (ha : bankView a = bankView c) (hb : bankView b = bankView c) :
    bankView (if p then a else b) = bankView c := by
  split
  · exact ha
  · exact hb

theorem sendPkts_view (c : Core) (ps : List Packet) : bankView (sendPkts c ps) = bankView c := rfl

theorem postSlot_view (c : Core) (n : Nat) : bankView (postSlot c n) = bankView c := rfl

theorem ownRows_view (p : Packet) (n : Nat) (refused : Option Nat) (c : Core) : bankView (ownRows p n refused c) = bankView c := by
  unfold ownRows
  simp only
  split
  · simp [bankView, modXfer]
  · rfl

theorem endWrite_view (site : Nat) (p : Packet) (stored : Nat) (refused : Option Nat) (c : Core) :
    bankView (endWrite site p stored refused c) = bankView c := by
  cases refused with
  | some s => rfl
  | none =>
    have hcount : ∀ rx, bankView (if p.segs then c else { c with xfer := { c.xfer with rx := rx } }) = bankView c :=
      fun _ => bankView_ite rfl rfl
    exact bankView_ite rfl (bankView_ite
      ((sendPkts_view ..).trans (bankView_ite ((postSlot_view ..).trans (hcount _)) (hcount _))) (hcount _))

theorem endIn_view (site : Nat) (j : InJob) (c : Core) : bankView (endIn site j c) = bankView c :=
  bankView_ite rfl (endWrite_view ..)

theorem setIns_view (halo : Bool) (c : Core) (l : List InJob) : bankView (setIns halo c l) = bankView c := by
  cases halo <;> rfl

theorem foldl_lateWrite_view {β : Type} (l : List β) (c : Core) : bankView (l.foldl (fun c _ => lateWrite c) c) = bankView c :=
  foldl_keeps bankView (fun c _ => lateWrite c) (fun _ _ => rfl) l c

theorem refuseIn_view (site b : Nat) (j : InJob) (c : Core) : bankView (refuseIn site b j c).2 = bankView c := by
  have hrows : ∀ (n : Nat) (l : List (Nat × Row)), bankView
      (if j.own then ownRows j.pkt n (some 2) (l.foldl (fun c _ => lateWrite c) c) else l.foldl (fun c _ => lateWrite c) c) =
        bankView c :=
    fun _ l => bankView_ite ((ownRows_view ..).trans (foldl_lateWrite_view l c)) (foldl_lateWrite_view l c)
  unfold refuseIn
  simp only
  split
  · rfl
  · split
    · exact (endIn_view ..).trans (hrows ..)
    · exact hrows _ _

theorem refuseIns_view (site b : Nat) (halo : Bool) (c : Core) : bankView (refuseIns site b halo c) = bankView c := by
  unfold refuseIns
  exact (setIns_view ..).trans
    (foldl_keeps (fun a : List InJob × Core => bankView a.2) _ (fun a j => refuseIn_view site b j a.2) (insOf halo c) ([], c))

theorem refuseBacks_view (b : Nat) (c : Core) : bankView (refuseBacks b c) = bankView c := foldl_lateWrite_view ..

/-! ### BANK_CLOSE and BANK_POWER_UP_DONE -/

/-- A closing bank that no write waits for goes off (R142). -/
theorem closeBank_idle {site b : Nat} {c : Core} (hclosing : c.slab.closing.getLsbD b = true) (hidle : inboundWrites c b = 0) :
    closeBank site b c = bankOffNow b c := by
  rw [closeBank, if_pos hclosing, if_pos hidle]

/-- A closing bank whose 2^16 cycles are over goes off, with or without writes that wait (R143). -/
theorem closeBank_late_view {site b : Nat} {c : Core} (hclosing : c.slab.closing.getLsbD b = true)
    (hlate : c.slab.closeCc + 2 ^ 16 ≤ c.cc) : bankView (closeBank site b c) = bankView (bankOffNow b c) := by
  by_cases hidle : inboundWrites c b = 0
  · rw [closeBank_idle hclosing hidle]
  · rw [closeBank, if_pos hclosing, if_neg hidle, if_pos hlate, refuseBacks_view, refuseIns_view, refuseIns_view]

/-- A bank that does not close, and one that waits for its writes, stay as they are. -/
theorem closeBank_waits {site b : Nat} {c : Core}
    (h : c.slab.closing.getLsbD b = false ∨ (inboundWrites c b ≠ 0 ∧ c.cc < c.slab.closeCc + 2 ^ 16)) : closeBank site b c = c := by
  unfold closeBank
  rcases h with hopen | ⟨hwaits, hearly⟩
  · rw [if_neg (by simp [hopen])]
  · rw [if_neg hwaits, if_neg (Nat.not_le.mpr hearly), ite_self]

/-- The bits of a bank that went off. -/
theorem bankOffNow_bits {b : Nat} (hb : b < 36) (c : Core) (k : Nat) :
    (bankOffNow b c).slab.closing.getLsbD k = (c.slab.closing.getLsbD k && !decide (k = b)) ∧
      (bankOffNow b c).slab.off.getLsbD k = (c.slab.off.getLsbD k || decide (k = b)) :=
  ⟨getLsbD_clearBit .., getLsbD_setBit _ hb k⟩

/-- A bank whose power-up ends is on, its words zero. -/
theorem riseBank_rises {b : Nat} {c : Core} (h : c.slab.rising.getLsbD b = true) :
    riseBank b c = { c with slab := { c.slab with
      rising := setField c.slab.rising b 1 0, off := setField c.slab.off b 1 0
      words := (zeroBanks c (BitVec.ofNat 36 (2 ^ b))).slab.words } } := if_pos h

theorem exec_fettleDue {site : Nat} {s : State} (hsite : siteOk site = true) (hlive : coreLive s site = true) :
    exec (.fettleDue site) s = .next (atCore site (fun c => { c with slab := { c.slab with due := true } }) s) := by
  show execFettleDue site s = _
  rw [execFettleDue, hsite, if_pos hlive]
  rfl

theorem exec_bankClose {site b : Nat} (s : State) (hsite : siteOk site = true) (hb : b < 36) :
    exec (.bankClose site b) s = .next (atCore site (fun _ => closeBank site b (getCore s site)) s) := by
  show execBankClose site b s = _
  rw [execBankClose, show instrOk (.bankClose site b) = true by simp [instrOk, hsite, hb]]
  rfl

theorem exec_bankPowerUpDone {site b : Nat} (s : State) (hsite : siteOk site = true) (hb : b < 36) :
    exec (.bankPowerUpDone site b) s = .next (atCore site (fun _ => riseBank b (getCore s site)) s) := by
  show execBankPowerUpDone site b s = _
  rw [execBankPowerUpDone, show instrOk (.bankPowerUpDone site b) = true by simp [instrOk, hsite, hb]]
  rfl

/-- Settles O24: a bank that closes late refuses its writes, which keeps the state of every bank and every stored word. -/
theorem fettlingAndBanks : Obligations.FettlingAndBanks := by
  intro site b s hsite hb c offNow
  refine ⟨fun hlive => exec_fettleDue hsite hlive, fun hclosing hidle => ?idle, fun hclosing hlate => ?late, fun h => ?waits,
    fun hrising hwf => ?rise⟩
  case idle =>
    refine ⟨bankOffNow b c, ?_, fun k _ => bankOffNow_bits hb c k, rfl⟩
    rw [exec_bankClose s hsite hb, closeBank_idle hclosing hidle]
  case late =>
    have hview := closeBank_late_view (site := site) hclosing hlate
    simp only [bankView, Prod.mk.injEq] at hview
    obtain ⟨hcl, hoff, hwords, hvec, haregs, hmatrix⟩ := hview
    refine ⟨_, exec_bankClose s hsite hb, fun k _ => ?_, hwords, hvec, haregs, hmatrix⟩
    rw [hcl, hoff]
    exact bankOffNow_bits hb c k
  case waits => rw [exec_bankClose s hsite hb, closeBank_waits h]
  case rise =>
    refine ⟨_, exec_bankPowerUpDone s hsite hb, ?_⟩
    rw [riseBank_rises hrising]
    exact ⟨fun k _ => ⟨getLsbD_clearBit .., getLsbD_clearBit ..⟩, fun row seg _ hseg => zeroBanks_word hwf hseg, rfl⟩

end Sys2Proof.Machine
end

section
/-!
PROOFS. Commands on one core (O3).
-/

namespace Sys2Proof.Machine

/-- A command on the one core of a site is a function on that core, its events entered. -/
theorem exec_coreCmd {i : Instr} {site : Nat} (h : coreCmd i = some site) (s : State) :
    ∃ f, exec i s = onCore site f s := by
  cases i <;> cases h <;> exact ⟨_, rfl⟩

theorem onlyCores_atCore (site : Nat) (f : Core → Core) (s : State) : OnlyCores s (atCore site f s) := atCore_eq site f s

theorem otherCores_atCore (site : Nat) (f : Core → Core) (s : State) : OtherCores site s (atCore site f s) :=
  fun _ h => getCore_atCore_other site f s h

/-- Settles O3: a command on one core is a function on that core, whose events alone leave the cores. -/
theorem coreCommandFrame : Obligations.CoreCommandFrame := by
  unfold Obligations.CoreCommandFrame
  intro i site s t hcmd hexec
  obtain ⟨f, hf⟩ := exec_coreCmd hcmd s
  rw [hf] at hexec
  obtain ⟨-, rfl⟩ := answer_next hexec
  exact ⟨onlyCores_atCore site f s, otherCores_atCore site f s⟩

end Sys2Proof.Machine
end

section
/-!
PROOFS. The issue unit (O7, O8): what an instruction that issues does to its core, and the words of the loop instructions.
-/

namespace Sys2Proof.Machine

/-! ### Slots at issue -/

theorem getSlot_admitWait (c : Core) (w : BitVec 8) (n : Nat) :
    getSlot (admitWait c w) n = { getSlot c n with admitted := (getSlot c n).admitted + oneOf w n } := by
  unfold admitWait
  by_cases hw : w = 0xFF#8
  · simp [hw, oneOf]
  · by_cases hn : n = w.toNat
    · simp [hw, hn, oneOf]
    · simp [hw, hn, oneOf, getSlot_setSlot_other _ _ hn]

theorem admitWait_frame (c : Core) (w : BitVec 8) :
    admitWait c w = { c with sync := { c.sync with slots := (admitWait c w).sync.slots } } := by
  unfold admitWait
  split <;> rfl

/-- An admission and the release under the generation it was taken under fall on the same slot. -/
theorem release_of_waitGen (c : Core) (w : BitVec 8) (n : Nat) :
    (if (getSlot c n).gen = waitGen c w then oneOf w n else 0) = oneOf w n := by
  by_cases h : w ≠ 0xFF#8 ∧ n = w.toNat
  · simp [waitGen, h.1, h.2]
  · simp [oneOf, h]

/-! ### Execution at issue -/

theorem execAtIssue_frame (now : Nat) (c : Core) (op : CoreOp) :
    execAtIssue now c op = { c with aregs := (execAtIssue now c op).aregs, stream := (execAtIssue now c op).stream } := by
  cases op <;> rfl

section
variable (now : Nat) (c : Core) {i : CoreInsn} (h : opEngine i.op = .issue)
include h

theorem issueInsn_of_issue :
    issueInsn now c i =
      let c1 := postField (releaseWait (execAtIssue now (admitWait c i.wait) i.op) i.wait (waitGen c i.wait)) i.post
      { c1 with stream := { c1.stream with
          pc := (issueNext c i.op).2, loops := (issueNext c i.op).1, icount := (c1.stream.icount + 1) % 2 ^ 48 } } := by
  simp only [issueInsn, h]

theorem issueInsn_stream : (issueInsn now c i).stream =
    let st := (execAtIssue now (admitWait c i.wait) i.op).stream
    { st with pc := (issueNext c i.op).2, loops := (issueNext c i.op).1, icount := (st.icount + 1) % 2 ^ 48 } := by
  simp only [issueInsn_of_issue now c h, postField_stream, releaseWait_stream]

theorem issueInsn_aregs : (issueInsn now c i).aregs = (execAtIssue now (admitWait c i.wait) i.op).aregs := by
  simp only [issueInsn_of_issue now c h, postField_aregs, releaseWait_aregs]

/-- An instruction that executes at issue touches nothing but the address registers, the stream and its slots (R153, R156, R204). -/
theorem atIssue_issueInsn : AtIssue c (issueInsn now c i) i.wait i.post := by
  refine ⟨?_, fun n => ?_⟩
  · rw [issueInsn_of_issue now c h, postField_frame, releaseWait_frame, execAtIssue_frame, admitWait_frame]
  · have hread : getSlot (issueInsn now c i) n =
        getSlot (postField (releaseWait (admitWait c i.wait) i.wait (waitGen c i.wait)) i.post) n := by
      have hexec : getSlot (execAtIssue now (admitWait c i.wait) i.op) n = getSlot (admitWait c i.wait) n := by
        rw [execAtIssue_frame]
        rfl
      have hlast : getSlot (issueInsn now c i) n =
          getSlot (postField (releaseWait (execAtIssue now (admitWait c i.wait) i.op) i.wait (waitGen c i.wait)) i.post) n := by
        rw [issueInsn_of_issue now c h]
        rfl
      rw [hlast, getSlot_postField, getSlot_releaseWait, hexec, getSlot_postField, getSlot_releaseWait]
    rw [hread, getSlot_postField, getSlot_releaseWait, getSlot_admitWait, release_of_waitGen c i.wait n]

end

/-- An operation that is no loop instruction goes through the loop end handling (R169). -/
theorem issueNext_of_no_loop (c : Core) {op : CoreOp} (h : loopCount c op = none) :
    issueNext c op = loopEnd c.stream.pc c.stream.loops := by
  simp only [issueNext, h]

/-- The first fault of a core is recorded, reported, and nothing else (R198, R199). -/
theorem faults_coreFault {c : Core} (code : FaultCode) (e : Engine) (pc icount : Nat) (h : c.stream.fault = none) :
    Faults c (coreFault c code e pc icount) code e pc icount := by
  simp [Faults, coreFault, h, sendPkts, faultReport]

/-! ### A command that lets the next instruction issue -/

section
variable {site : Nat} {s : State} {ins : Instr} {sel : Core → NextInsn → Bool} (hsite : siteOk site = true)
  (hexec : exec ins s = issueOn sel site s)
include hsite hexec

/-- A command that accepts the next instruction issues it. -/
theorem exists_issued {i : CoreInsn} {P : Core → Prop} (h : Issues (getCore s site) i) (hsel : sel (getCore s site) (.insn i) = true)
    (hP : P (issueInsn (timeNow s) (getCore s site) i)) : ∃ c', exec ins s = .next (atCore site (fun _ => c') s) ∧ P c' := by
  refine coreNext_of_onCore hsite hexec ?_
  simpa only [issueIf, h.1, hsel, h.2, if_true] using hP

/-- A command that accepts the fault at issue raises it (R199). -/
theorem exists_issueFault {code : FaultCode} (h : nextInsn (getCore s site) = .bad code)
    (hsel : sel (getCore s site) (.bad code) = true) (hnone : (getCore s site).stream.fault = none) :
    let c := getCore s site
    ∃ c', exec ins s = .next (atCore site (fun _ => c') s) ∧ Faults c c' code .issue c.stream.pc c.stream.icount := by
  refine coreNext_of_onCore hsite hexec ?_
  simp only [issueIf, h, hsel, if_true]
  exact faults_coreFault _ _ _ _ hnone

end

/-- Nothing issues in a core that does not run. -/
theorem nextInsn_idle {c : Core} (h : c.stream.state ≠ .running) : nextInsn c = .idle := by
  unfold nextInsn
  split
  · exact absurd ‹_› h
  · rfl

/-! ### STOP and HALT -/

section
variable (now : Nat) (c : Core) (w p : BitVec 8)

theorem execAtIssue_stop (id : BitVec 16) :
    execAtIssue now c (.stop id) = { c with stream := { c.stream with
      state := .stopping, stopKind := .stop id.toNat, stopPhase := .drain, stopPc := c.stream.pc
      stopIcount := c.stream.icount, stopId := id.toNat } } := rfl

theorem execAtIssue_halt :
    execAtIssue now c .halt = { c with stream := { c.stream with
      state := .stopping, stopKind := .halt, stopPhase := .drain, stopPc := c.stream.pc
      stopIcount := c.stream.icount } } := rfl

theorem issueInsn_stop_stream (id : BitVec 16) :
    (issueInsn now c { wait := w, post := p, op := .stop id }).stream = { pastInsn c with
      state := .stopping, stopKind := .stop id.toNat, stopPhase := .drain, stopPc := c.stream.pc
      stopIcount := c.stream.icount, stopId := id.toNat } := by
  rw [issueInsn_stream now c rfl, issueNext_of_no_loop c (op := .stop id) rfl]
  simp only [execAtIssue_stop, admitWait_stream, pastInsn]

theorem issueInsn_halt_stream :
    (issueInsn now c { wait := w, post := p, op := .halt }).stream = { pastInsn c with
      state := .stopping, stopKind := .halt, stopPhase := .drain, stopPc := c.stream.pc, stopIcount := c.stream.icount } := by
  rw [issueInsn_stream now c rfl, issueNext_of_no_loop c (op := .halt) rfl]
  simp only [execAtIssue_halt, admitWait_stream, pastInsn]

/-! ### Loops -/

/-- The stream after a loop instruction with end e and count n (R166, R167). -/
def openLoop (st : Stream) (e n : Nat) : Stream :=
  { st with
    icount := (st.icount + 1) % 2 ^ 48
    loops := if n = 0 then st.loops else { start := st.pc + 1, stop := e, remain := n - 1 } :: st.loops
    pc := if n = 0 then e + 1 else st.pc + 1 }

/-- A loop instruction executes nothing at issue, but opens its body or skips it. -/
theorem issueInsn_loop_stream {op : CoreOp} {e n : Nat} (hloop : loopCount c op = some (e, n)) (heng : opEngine op = .issue)
    (hexec : ∀ c', execAtIssue now c' op = c') :
    (issueInsn now c { wait := w, post := p, op := op }).stream = openLoop c.stream e n := by
  rw [issueInsn_stream now c heng]
  simp only [issueNext, hloop, hexec, admitWait_stream, openLoop]
  split <;> rfl

end

/-! ### The words of the loop instructions -/

theorem encodeInsn_opcode (i : CoreInsn) : (encodeInsn i).extractLsb' 56 8 = opByte i.op := BitVec.extractLsb'_append_eq_left

theorem encodeInsn_wait (i : CoreInsn) : (encodeInsn i).extractLsb' 48 8 = i.wait := by
  rw [encodeInsn, BitVec.extractLsb'_append_eq_of_add_le (by decide), BitVec.extractLsb'_append_eq_left]

theorem encodeInsn_post (i : CoreInsn) : (encodeInsn i).extractLsb' 40 8 = i.post := by
  rw [encodeInsn, BitVec.extractLsb'_append_eq_of_add_le (by decide), BitVec.extractLsb'_append_eq_of_add_le (by decide),
    BitVec.extractLsb'_append_eq_left]

theorem encodeInsn_operand (i : CoreInsn) {lo len : Nat} (h : lo + len ≤ 40) :
    (encodeInsn i).extractLsb' lo len = (operandBits i.op).extractLsb' lo len := by
  rw [encodeInsn, BitVec.extractLsb'_append_eq_of_add_le (by omega), BitVec.extractLsb'_append_eq_of_add_le (by omega),
    BitVec.extractLsb'_append_eq_of_add_le h]

/-- A word whose operand fields read back as those of its instruction decodes to it (R202, R203). -/
theorem decodeInsn_of_parseOp {i : CoreInsn} (hop : parseOp (encodeInsn i) = some i.op) (hok : insnOk i = true) :
    decodeInsn (encodeInsn i) = some i := by
  simp only [decodeInsn, hop, encodeInsn_wait, encodeInsn_post, hok, and_self, if_true]

section
variable (w p : BitVec 8) (e : BitVec 13)

theorem decodeInsn_loop (n : BitVec 16) :
    decodeInsn (encodeInsn { wait := w, post := p, op := .loop e n }) = some { wait := w, post := p, op := .loop e n } := by
  refine decodeInsn_of_parseOp ?_ rfl
  have he : (operandBits (.loop e n)).extractLsb' 27 13 = e := BitVec.extractLsb'_append_eq_left
  have hn : (operandBits (.loop e n)).extractLsb' 0 16 = n := by
    rw [operandBits, BitVec.extractLsb'_append_eq_of_add_le (by decide), BitVec.extractLsb'_append_eq_right]
  rw [parseOp, encodeInsn_opcode, encodeInsn_operand _ (by decide), encodeInsn_operand _ (by decide), he, hn]
  rfl

theorem decodeInsn_loopr (a : BitVec 5) :
    decodeInsn (encodeInsn { wait := w, post := p, op := .loopr e a }) = some { wait := w, post := p, op := .loopr e a } := by
  refine decodeInsn_of_parseOp ?_ rfl
  have he : (operandBits (.loopr e a)).extractLsb' 27 13 = e := BitVec.extractLsb'_append_eq_left
  have ha : (operandBits (.loopr e a)).extractLsb' 22 5 = a := by
    rw [operandBits, BitVec.extractLsb'_append_eq_of_add_le (by decide), BitVec.extractLsb'_append_eq_left]
  rw [parseOp, encodeInsn_opcode, encodeInsn_operand _ (by decide), encodeInsn_operand _ (lo := 22) (len := 5) (by decide), he, ha]
  rfl

end

/-- A fifth loop, an empty body, or a body that passes the end of the loop around it is bad (R165). -/
theorem loopBad_of {loops : List HwLoop} {pc e : Nat} (h : 4 ≤ loops.length ∨ e ≤ pc ∨ ∃ l ls, loops = l :: ls ∧ l.stop < e) :
    loopBad loops pc e = true := by
  simp only [loopBad, Bool.or_eq_true, decide_eq_true_eq, ge_iff_le]
  rcases h with h | h | ⟨l, ls, rfl, h⟩
  · exact .inl (.inl h)
  · exact .inl (.inr h)
  · exact .inr (by simpa using h)

section
variable {c : Core} {w p : BitVec 8} {e : BitVec 13} (hrun : c.stream.state = .running) (hpc : c.stream.pc < 8192)
  (hbad : loopBad c.stream.loops c.stream.pc e.toNat = true)
include hrun hpc hbad

/-- A bad LOOP at the next position faults LOOP_DEPTH (R152, R165). -/
theorem nextInsn_badLoop {n : BitVec 16} (hword : fetchWord c.stream c.stream.pc = encodeInsn { wait := w, post := p, op := .loop e n }) :
    nextInsn c = .bad .loopDepth := by
  simp only [nextInsn, hrun, hword, decodeInsn_loop, ge_iff_le, Nat.not_le.mpr hpc, if_false, hbad, if_true]

theorem nextInsn_badLoopr {a : BitVec 5} (hword : fetchWord c.stream c.stream.pc = encodeInsn { wait := w, post := p, op := .loopr e a }) :
    nextInsn c = .bad .loopDepth := by
  simp only [nextInsn, hrun, hword, decodeInsn_loopr, ge_iff_le, Nat.not_le.mpr hpc, if_false, hbad, if_true]

end

/-- A loop command takes the fault of a word with its opcode. -/
theorem selLoop_bad {c : Core} {i : CoreInsn} (hword : fetchWord c.stream c.stream.pc = encodeInsn i) :
    selLoop (opByte i.op) c (.bad .loopDepth) = true := by
  simp only [selLoop, nextByte, hword, encodeInsn_opcode, decide_true]

/-- A control instruction that keeps the address registers issues: what it leaves of its core but for the stream. -/
theorem exists_controlIssued {site : Nat} {s : State} {ins : Instr} {sel : Core → NextInsn → Bool} {w p : BitVec 8} {op : CoreOp}
    {st : Stream} (hsite : siteOk site = true) (hexec : exec ins s = issueOn sel site s)
    (h : Issues (getCore s site) { wait := w, post := p, op := op })
    (hsel : sel (getCore s site) (.insn { wait := w, post := p, op := op }) = true) (heng : opEngine op = .issue)
    (haregs : ∀ c, (execAtIssue (timeNow s) c op).aregs = c.aregs)
    (hstream : (issueInsn (timeNow s) (getCore s site) { wait := w, post := p, op := op }).stream = st) :
    ∃ c', exec ins s = .next (atCore site (fun _ => c') s) ∧ AtIssue (getCore s site) c' w p ∧
      c'.aregs = (getCore s site).aregs ∧ c'.stream = st :=
  exists_issued hsite hexec h hsel
    ⟨atIssue_issueInsn _ _ heng, by rw [issueInsn_aregs _ _ heng, haregs, admitWait_aregs], hstream⟩

/-- Settles O7: every clause is one issue, or one fault at issue, of the command's instruction. -/
theorem stopsHaltsAndLoops : Obligations.StopsHaltsAndLoops := by
  unfold Obligations.StopsHaltsAndLoops
  refine ⟨fun site s w p hsite => ⟨fun id h => ?_, fun h => ?_⟩, fun site s w p e hsite => ⟨fun n h => ?_, fun a h => ?_, ?_, ?_⟩⟩
  · obtain ⟨c', hnext, hissue, haregs, hstream⟩ :=
      exists_controlIssued (ins := .stop site) (sel := fun _ => selOp 0x08#8) hsite rfl h rfl rfl (fun _ => rfl)
        (issueInsn_stop_stream _ _ w p id)
    exact ⟨c', hnext, hissue, haregs, hstream, nextInsn_idle (by simp [hstream])⟩
  · obtain ⟨c', hnext, hissue, haregs, hstream⟩ :=
      exists_controlIssued (ins := .halt site) (sel := fun _ => selOp 0x09#8) hsite rfl h rfl rfl (fun _ => rfl)
        (issueInsn_halt_stream _ _ w p)
    exact ⟨c', hnext, hissue, haregs, hstream, nextInsn_idle (by simp [hstream])⟩
  · exact exists_controlIssued hsite rfl h rfl rfl (fun _ => rfl) (issueInsn_loop_stream _ _ w p rfl rfl fun _ => rfl)
  · exact exists_controlIssued hsite rfl h rfl rfl (fun _ => rfl) (issueInsn_loop_stream _ _ w p rfl rfl fun _ => rfl)
  · rintro n ⟨hrun, hpc, hnone, hbad⟩ hword
    exact exists_issueFault hsite rfl (nextInsn_badLoop hrun hpc (loopBad_of hbad) hword) (selLoop_bad hword) hnone
  · rintro a ⟨hrun, hpc, hnone, hbad⟩ hword
    exact exists_issueFault hsite rfl (nextInsn_badLoopr hrun hpc (loopBad_of hbad) hword) (selLoop_bad hword) hnone

end Sys2Proof.Machine
end

section
/-!
PROOFS. Queued instructions (O8): the post-increments, the entry that joins its queue, and its issue.
-/

namespace Sys2Proof.Machine

/-! ### Engine queues -/

theorem opEngine_ne_stop (op : CoreOp) : opEngine op ≠ .stop := by
  cases op <;> nofun

theorem engineQueue_setQueue_other (c : Core) (q : List QEntry) {e e' : Engine} (h : e' ≠ e) :
    engineQueue (setQueue c e q) e' = engineQueue c e' := by
  cases e <;> cases e' <;> simp [setQueue, engineQueue] at h ⊢

/-- An entry joins the end of its queue, and no other queue changes. -/
theorem engineQueue_append (c : Core) (q : QEntry) {e : Engine} (he : e ≠ .issue) (hs : e ≠ .stop) (e' : Engine) :
    engineQueue (setQueue c e (engineQueue c e ++ [q])) e' = engineQueue c e' ++ (if e' = e then [q] else []) := by
  by_cases h : e' = e
  · subst h
    rw [engineQueue_setQueue c e' _ he hs, if_pos rfl]
  · rw [engineQueue_setQueue_other c _ h, if_neg h, List.append_nil]

theorem setQueue_frame (c : Core) (e : Engine) (q : List QEntry) :
    setQueue c e q = { c with
      queue := (setQueue c e q).queue, qmat := (setQueue c e q).qmat, qxfer := (setQueue c e q).qxfer
      qsync := (setQueue c e q).qsync } := by
  cases e <;> rfl

/-! ### Post-increments -/

/-- The address registers g after the post-increment of one operand of an operation (R162). -/
def incremented (op : CoreOp) (last : Bool) (g : Nat → AReg) (o : Option (Nat × Nat)) (k : Nat) : AReg :=
  match o with
  | none => g k
  | some (r, sel) =>
    if k = r then { g r with
      value := (g r).value + (if sel % 2 = 1 then BitVec.ofNat 48 (opRepeats op) * (g r).stride0.signExtend 48 else 0#48) +
        (if sel ≥ 2 ∧ last = true then (g r).stride1.signExtend 48 else 0#48) }
    else g k

/-- The post-increment of one operand. -/
def applyInc (op : CoreOp) (last : Bool) (c : Core) (o : Option (Nat × Nat)) : Core :=
  match o with
  | none => c
  | some (r, sel) => setAVal c r ((getA c r).value + incAmount (getA c r) sel (opRepeats op) last)

theorem applyIncs_eq (c : Core) (op : CoreOp) :
    let last := lastIteration c.stream.loops
    applyIncs c op = applyInc op last (applyInc op last c (opAregs op).1) (opAregs op).2 := rfl

theorem applyInc_frame (op : CoreOp) (last : Bool) (c : Core) (o : Option (Nat × Nat)) :
    applyInc op last c o = { c with aregs := (applyInc op last c o).aregs } := by
  unfold applyInc
  split <;> rfl

theorem applyIncs_frame (c : Core) (op : CoreOp) : applyIncs c op = { c with aregs := (applyIncs c op).aregs } := by
  rw [applyIncs_eq, applyInc_frame, applyInc_frame]

theorem engineQueue_applyIncs (c : Core) (op : CoreOp) (e : Engine) : engineQueue (applyIncs c op) e = engineQueue c e := by
  rw [applyIncs_frame]
  rfl

theorem getA_applyInc (op : CoreOp) (last : Bool) (c : Core) (o : Option (Nat × Nat)) :
    getA (applyInc op last c o) = incremented op last (getA c) o := by
  funext k
  match o with
  | none => rfl
  | some (r, sel) =>
    by_cases hk : k = r
    · simp [applyInc, incremented, hk, incAmount, strideExt, BitVec.add_assoc]
    · simp [applyInc, incremented, hk, getA_setAVal_other _ _ hk]

/-- The operands' post-increments follow one another (R162, R163). -/
theorem getA_applyIncs (c : Core) (op : CoreOp) :
    let inc := incremented op (lastIteration c.stream.loops)
    getA (applyIncs c op) = inc (inc (getA c) (opAregs op).1) (opAregs op).2 := by
  simp only [applyIncs_eq, getA_applyInc]

/-! ### The issue of a queued instruction -/

/-- The value and strides that an operand captures (R154). -/
def captured (c : Core) : Option (Nat × Nat) → AReg
  | none => AReg.zero
  | some (r, _) => getA c r

/-- The entry with which an instruction joins its queue (R154). -/
def queuedEntry (c : Core) (i : CoreInsn) : QEntry :=
  { insn := i, pc := c.stream.pc, icount := c.stream.icount, ra := captured c (opAregs i.op).1, rd := captured c (opAregs i.op).2
    admitted := false, gen := 0 }

theorem captured_some {c : Core} {o : Option (Nat × Nat)} {r n : Nat} (h : o = some (r, n)) : captured c o = getA c r := by
  subst h
  rfl

theorem loopCount_of_queued (c : Core) {op : CoreOp} (h : opEngine op ≠ .issue) : loopCount c op = none := by
  cases op <;> simp [opEngine, loopCount] at h ⊢

theorem issueInsn_of_queued (now : Nat) (c : Core) {i : CoreInsn} (h : opEngine i.op ≠ .issue) :
    issueInsn now c i =
      { setQueue (applyIncs c i.op) (opEngine i.op) (engineQueue c (opEngine i.op) ++ [queuedEntry c i]) with
        stream := pastInsn c } := by
  have hstream : (applyIncs c i.op).stream = c.stream := by rw [applyIncs_frame]
  cases heng : opEngine i.op
  case issue => exact absurd heng h
  all_goals
    simp only [issueInsn, heng, issueNext_of_no_loop c (loopCount_of_queued c h), setQueue_stream, hstream]
    rfl

/-- No NOTICE issues where the next instruction is none. -/
theorem noticeOf_none (sel : NextInsn → Bool) {c : Core} {i : CoreInsn} (h : nextInsn c = .insn i)
    (hop : ∀ l d, i.op ≠ .notice l d) : noticeOf sel c = none := by
  unfold noticeOf
  simp only [h]
  split <;> rfl

theorem instructionIssue_eq {site : Nat} {s : State} {i : CoreInsn} (h : nextInsn (getCore s site) = .insn i)
    (hop : ∀ l d, i.op ≠ .notice l d) : exec (.instructionIssue site) s = issueOn (fun _ _ => true) site s := by
  change issueOn (fun _ _ => true) site (takeNoticeOf (fun _ => true) site s) = _
  rw [takeNoticeOf, noticeOf_none _ h hop]

/-- Settles O8: the entry is made of the registers before the issue, and the post-increments follow in operand order. -/
theorem queuedInstructionsCaptureOperands : Obligations.QueuedInstructionsCaptureOperands := by
  unfold Obligations.QueuedInstructionsCaptureOperands
  intro site s i hsite h heng c inc
  have hexec := instructionIssue_eq h.1 fun l d hop => heng (by rw [hop]; rfl)
  obtain ⟨c', hnext, rfl⟩ := exists_issued (P := (· = issueInsn (timeNow s) c i)) hsite hexec h rfl rfl
  refine ⟨_, queuedEntry c i, hnext, ?_, fun e => ?_, rfl, rfl, rfl, rfl, fun r n hr => captured_some hr, fun r n hr => captured_some hr,
    fun k => ?_⟩
  · rw [issueInsn_of_queued _ c heng, setQueue_frame, applyIncs_frame]
  · rw [issueInsn_of_queued _ c heng]
    have h := engineQueue_append (applyIncs c i.op) (queuedEntry c i) heng (opEngine_ne_stop _) e
    rwa [engineQueue_applyIncs, engineQueue_applyIncs] at h
  · have hregs : getA (issueInsn (timeNow s) c i) = getA (applyIncs c i.op) := by
      rw [issueInsn_of_queued _ c heng, setQueue_frame]
      rfl
    rw [hregs, getA_applyIncs]
    rfl

end Sys2Proof.Machine
end

section
/-!
PROOFS. Stops, halts and releases (O9).
-/

namespace Sys2Proof.Machine

/-! ### Bank powers -/

theorem and_not_eq_zero_iff {w : Nat} (a b : BitVec w) : a &&& ~~~b = 0#w ∧ b &&& ~~~a = 0#w ↔ a = b := by
  refine ⟨fun ⟨hab, hba⟩ => ?_, fun h => by simp [h]⟩
  ext i hi
  have hab' := congrArg (·.getLsbD i) hab
  have hba' := congrArg (·.getLsbD i) hba
  grind

/-- A commit asks for bank transitions exactly where it requests other powers than those the banks have (R141, R142). -/
theorem banksBusy_commitPwr (c : Core) : banksBusy (commitPwr c) = !decide (c.slab.pwrReq = c.slab.off) := by
  rw [banksBusy, ← Bool.decide_and, commitPwr]
  simp only [and_not_eq_zero_iff]

/-! ### STOP -/

/-- A drained STOP has committed bank powers, bank switch and mode NONE (R81, R141, R188, R196). -/
def committed (c : Core) : Core :=
  { c with
    stream := { c.stream with
      bankB := if c.stream.switchReq then !c.stream.bankB else c.stream.bankB
      switchReq := false, switched := c.stream.switchReq }
    matrix := { c.matrix with
      mode := none, front := { c.matrix.front with valid := false }, back := { c.matrix.back with valid := false } }
    slab := { c.slab with
      pwrEff := c.slab.pwrReq, closing := c.slab.pwrReq &&& ~~~c.slab.off, rising := c.slab.off &&& ~~~c.slab.pwrReq
      closeCc := c.cc } }

theorem committed_eq (c : Core) : commitImem (commitPwr (clearMode c)) = committed c := by
  unfold commitImem committed
  cases h : c.stream.switchReq <;> simp [commitPwr, clearMode, h]

theorem banksBusy_committed (c : Core) : banksBusy (committed c) = !decide (c.slab.pwrReq = c.slab.off) := banksBusy_commitPwr c

/-- A core that has come to its stop (R188, R266). -/
theorem stopArrive_eq (c : Core) (id : Nat) :
    let n := (c.stream.stopCount + 1) % 2 ^ 32
    stopArrive c id = { c with
      stream := { c.stream with
        stopCount := n, state := if c.stream.haltEn = true ∧ n = c.stream.haltAt then .halted else .arrived, stopKind := .none
        atStop := true }
      sync := { c.sync with ordinals := [] }
      out := c.out ++ [{ mkPkt c .control boxSite with ctl := some (.arrival id n) }] } := by
  simp only [stopArrive, restartOrdinals, sendPkts, Bool.and_eq_true, decide_eq_true_eq]

section
variable {c : Core} {id : Nat} (hstate : c.stream.state = .stopping) (hkind : c.stream.stopKind = .stop id)
include hstate hkind

section
variable (hphase : c.stream.stopPhase = .drain) (hdrained : coreDrained c = true)
include hphase hdrained

theorem stopDrained_commits (hlive : c.matrix.live = 0#1024) :
    stopDrained c = if c.slab.pwrReq = c.slab.off then stopArrive (committed c) id
      else { committed c with stream := { (committed c).stream with stopPhase := .banks } } := by
  simp only [stopDrained, hstate, hkind, hphase, hdrained, hlive, ne_eq, not_true, if_false, if_true, committed_eq,
    banksBusy_committed, Bool.not_eq_true', decide_eq_false_iff_not, ite_not]

theorem stopDrained_live (hlive : c.matrix.live ≠ 0#1024) :
    stopDrained c = coreFault c .accLive .stop c.stream.stopPc c.stream.stopIcount := by
  simp only [stopDrained, hstate, hkind, hphase, hdrained, hlive, ne_eq, not_false_eq_true, if_true]

end

theorem stopDrained_banks (hphase : c.stream.stopPhase = .banks) (hclosing : c.slab.closing = 0#36) (hrising : c.slab.rising = 0#36) :
    stopDrained c = stopArrive c id := by
  simp [stopDrained, hstate, hkind, hphase, banksBusy, hclosing, hrising]

end

/-! ### HALT and RELEASE -/

theorem haltDrained_eq {c : Core} (hstate : c.stream.state = .stopping) (hkind : c.stream.stopKind = .halt) (hdrained : coreDrained c = true) :
    haltDrained c =
      { c with stream := { c.stream with state := .halted, stopKind := .none, switched := false, atStop := false } } := by
  simp only [haltDrained, hstate, hkind, hdrained, if_true]

theorem takeSingle_of_not_armed {s : ArbSet} (h : s.armed = false) (a : ArbInst) : takeSingle s a = (s, a) := by
  simp [takeSingle, h]

/-- A core that RELEASE resumes: its resume point, and both slab arbiters at slot 0 (R191, R192, R347, R543). -/
def resumed (c : Core) : Core :=
  { c with
    stream := { c.stream with
      state := .running
      pc := if c.stream.entryEn then c.stream.entry else if c.stream.switched then 0 else c.stream.pc
      loops := if c.stream.entryEn || c.stream.switched then [] else c.stream.loops
      entryEn := false, switched := false, atStop := false }
    rd := { c.rd with ptr := 0 }, wr := { c.wr with ptr := 0 }
    stepCc := 0, lockDrain := BitVec.allOnes 64, lockStore := BitVec.allOnes 64 }

theorem releasable_of {c : Core}
    (h : c.stream.state = .arrived ∨ (c.stream.state = .halted ∧ c.stream.haltEn = false) ∨
      (c.stream.state = .idle ∧ c.stream.entryEn = true)) : releasable c = true := by
  rcases h with h | ⟨h, h'⟩ | ⟨h, h'⟩
  · simp [releasable, h]
  · simp [releasable, h, h']
  · simp [releasable, h, h']

theorem coreArbsTaken_iff (c : Core) : coreArbsTaken c = true ↔ c.arbRd.armed = false ∧ c.arbWr.armed = false := by
  simp [coreArbsTaken]

/-- A core without an armed commit resumes. -/
theorem releaseCore_resumes {c : Core} (h : releasable c = true) (harbs : coreArbsTaken c = true) : releaseCore c = resumed c := by
  obtain ⟨hrd, hwr⟩ := (coreArbsTaken_iff c).mp harbs
  simp only [releaseCore, h, if_true, restartArbiters, takeSingle_of_not_armed hrd, takeSingle_of_not_armed hwr, resumed]

/-- Settles O9: each command is one update of its core, under the state it asks for. -/
theorem stopsArriveAndResume : Obligations.StopsArriveAndResume := by
  unfold Obligations.StopsArriveAndResume
  intro site s hsite c n next arr com told
  refine ⟨fun id hstate hkind hphase hdrained => ⟨fun hlive => ?_, fun hlive hnone => ?_⟩,
    fun id hstate hkind hphase hclosing hrising => ?_, fun hstate hkind hdrained => ?_, fun h hrd hwr => ?_⟩
  · refine coreNext_of_onCore hsite rfl ?_
    rw [stopDrained_commits hstate hkind hphase hdrained hlive]
    by_cases hpwr : c.slab.pwrReq = c.slab.off
    · rw [if_pos hpwr, stopArrive_eq]
      simp only [if_pos hpwr]
      rfl
    · simp only [if_neg hpwr]
      rfl
  · refine coreNext_of_onCore hsite rfl ?_
    rw [stopDrained_live hstate hkind hphase hdrained hlive]
    exact faults_coreFault _ _ _ _ hnone
  · refine coreNext_of_onCore hsite rfl ?_
    rw [stopDrained_banks hstate hkind hphase hclosing hrising]
    exact stopArrive_eq c id
  · refine coreNext_of_onCore hsite rfl ?_
    exact haltDrained_eq hstate hkind hdrained
  · have harbs : coreArbsTaken c = true := (coreArbsTaken_iff c).mpr ⟨hrd, hwr⟩
    refine coreNext_of_onCore (f := fun c => if coreArbsTaken c then releaseCore c else c) hsite rfl ?_
    rw [if_pos harbs, releaseCore_resumes (releasable_of h) harbs]
    rfl

end Sys2Proof.Machine
end

section
/-!
PROOFS. Completions and the slot procedure (O10).
-/

namespace Sys2Proof.Machine

/-! ### Completions -/

section
variable {c : Core} {icount : Nat}

theorem completeStarted_none (h : ∀ x ∈ c.started, x.entry.icount ≠ icount) : completeStarted icount c = c := by
  rw [completeStarted, List.find?_eq_none.mpr (by simpa using h)]

theorem completeStarted_some {st : Started} (h : c.started.find? (fun x => decide (x.entry.icount = icount)) = some st)
    (hland : ∀ l ∈ c.vec.landing, l.icount ≠ icount) :
    completeStarted icount c =
      completeEntry { c with started := c.started.filter fun x => !decide (x.entry.icount = icount) } st := by
  have hlands : c.vec.landing.any (fun l => decide (l.icount = icount)) = false := by simpa using hland
  simp only [completeStarted, h, hlands, Bool.false_eq_true, if_false]

theorem completeXfer_none (h : ∀ j ∈ c.xfer.jobs, j.st.entry.icount ≠ icount) : completeXfer icount c = c := by
  rw [completeXfer, List.find?_eq_none.mpr fun j hj => by simp [h j hj]]

/-- The transfer of that count completes once it is done (R258). -/
theorem completeXfer_some {j : XferJob} (h : c.xfer.jobs.find? (fun j => decide (j.st.entry.icount = icount)) = some j)
    (hdone : xferDone j = true) :
    completeXfer icount c = completeEntry { c with xfer := { c.xfer with
      jobs := c.xfer.jobs.filter fun i => !decide (i.st.entry.icount = icount) } } j.st := by
  have hfind : c.xfer.jobs.find? (fun j => decide (j.st.entry.icount = icount) && xferDone j) = some j := by
    obtain ⟨hj, as, bs, hjobs, has⟩ := List.find?_eq_some_iff_append.mp h
    exact List.find?_eq_some_iff_append.mpr ⟨by simp_all, as, bs, hjobs, fun a ha => by simp_all⟩
  simp only [completeXfer, hfind]

theorem completeStream_none (h : ∀ j ∈ c.matrix.streams, j.st.entry.icount ≠ icount) : completeStream icount c = c := by
  unfold completeStream
  split
  · next j rest hstreams => rw [if_neg (h j (by simp [hstreams]))]
  · rfl

theorem completeStream_some {j : StreamJob} {rest : List StreamJob} (h : c.matrix.streams = j :: rest)
    (hcount : j.st.entry.icount = icount) (hdone : j.done = j.n) (hmatch : j.mismatches = []) :
    completeStream icount c = completeEntry { c with matrix := { c.matrix with streams := rest } } j.st := by
  simp only [completeStream, h, hcount, if_true, finishStream, hdone, hmatch, List.isEmpty_nil]
  rfl

/-- INSTRUCTION_COMPLETE asks the three engines in turn for the instruction of its count. -/
def completeInsn (icount : Nat) (c : Core) : Core := completeStream icount (completeXfer icount (completeStarted icount c))

section
variable (hstream : ∀ j ∈ c.matrix.streams, j.st.entry.icount ≠ icount)
include hstream

theorem completeInsn_started {st : Started} (h : c.started.find? (fun x => decide (x.entry.icount = icount)) = some st)
    (hland : ∀ l ∈ c.vec.landing, l.icount ≠ icount) (hxfer : ∀ j ∈ c.xfer.jobs, j.st.entry.icount ≠ icount) :
    completeInsn icount c =
      completeEntry { c with started := c.started.filter fun x => !decide (x.entry.icount = icount) } st := by
  rw [completeInsn, completeStarted_some h hland, completeXfer_none (by simpa using hxfer),
    completeStream_none (by simpa using hstream)]

theorem completeInsn_xfer {j : XferJob} (h : c.xfer.jobs.find? (fun j => decide (j.st.entry.icount = icount)) = some j)
    (hdone : xferDone j = true) (hstart : ∀ x ∈ c.started, x.entry.icount ≠ icount) :
    completeInsn icount c = completeEntry { c with xfer := { c.xfer with
      jobs := c.xfer.jobs.filter fun i => !decide (i.st.entry.icount = icount) } } j.st := by
  rw [completeInsn, completeStarted_none hstart, completeXfer_some h hdone, completeStream_none (by simpa using hstream)]

end

theorem completeInsn_stream {j : StreamJob} {rest : List StreamJob} (h : c.matrix.streams = j :: rest)
    (hcount : j.st.entry.icount = icount) (hdone : j.done = j.n) (hmatch : j.mismatches = [])
    (hstart : ∀ x ∈ c.started, x.entry.icount ≠ icount) (hxfer : ∀ j ∈ c.xfer.jobs, j.st.entry.icount ≠ icount) :
    completeInsn icount c = completeEntry { c with matrix := { c.matrix with streams := rest } } j.st := by
  rw [completeInsn, completeStarted_none hstart, completeXfer_none hxfer, completeStream_some h hcount hdone hmatch]

end

/-! ### The slot procedure -/

/-- A FULL slot whose releases reach its count becomes EMPTY (R175). -/
def slotEmpties (q : Slot) : Bool := q.full && decide (q.released + q.releases ≥ q.ccount)

theorem slotCycle_empties (q : Slot) : (slotCycle q).2.1 = slotEmpties q := rfl

theorem slotCycle_overposts (q : Slot) : (slotCycle q).2.2 = if q.full && !slotEmpties q then q.posts else 0 := by
  obtain ⟨_, _, _, ccount, full, _, _, released, _, _, _, _, _, _, releases, _⟩ := q
  by_cases h : released + releases ≥ ccount <;> cases full <;> simp [slotCycle, slotEmpties, h]

/-- The slot after the procedure: releases, then posts, then filling (R175, R176, R177). -/
theorem slotCycle_slot (q : Slot) :
    let r := (slotCycle q).1
    let posted := min (q.posted + q.posts) 255
    let fills := (q.full = false ∨ slotEmpties q = true) ∧ posted ≥ q.pcount
    (r.full = true ↔ (q.full = true ∧ slotEmpties q = false) ∨ fills) ∧
      r = { q with
        full := r.full, posted := if fills then posted - q.pcount else posted
        released := if slotEmpties q then 0 else q.released + q.releases
        admitted := if slotEmpties q then 0 else q.admitted, posts := 0, releases := 0 } := by
  obtain ⟨_, _, pcount, ccount, full, posted, _, released, _, _, _, _, _, posts, releases, _⟩ := q
  by_cases hrel : released + releases ≥ ccount <;> by_cases hposted : min (posted + posts) 255 ≥ pcount <;>
    cases full <;> simp [slotCycle, slotEmpties, hrel, hposted]

theorem slotCycle_reset : slotCycle Slot.reset = (Slot.reset, false, 0) := rfl

/-- The credits' packet of slot n (R178). -/
def creditPkt (c : Core) (n : Nat) : Packet :=
  let q := getSlot c n
  { mcastPkt c .credit q.px0 q.py0 (q.pw + 1) (q.ph + 1) with slot := n }

/-- Slot n becomes EMPTY and has producers elsewhere. -/
def sendsCredits (c : Core) (n : Nat) : Bool := slotEmpties (getSlot c n) && (getSlot c n).remote

/-- The procedure leaves a slot's producers as they are. -/
def SameProducers (q r : Slot) : Prop := r.remote = q.remote ∧ r.px0 = q.px0 ∧ r.py0 = q.py0 ∧ r.pw = q.pw ∧ r.ph = q.ph

theorem sameProducers_slotCycle (q : Slot) : SameProducers q (slotCycle q).1 := by
  rw [(slotCycle_slot q).2]
  exact ⟨rfl, rfl, rfl, rfl, rfl⟩

theorem creditPkt_congr {b c : Core} {n : Nat} (hplace : b.place = c.place) (h : SameProducers (getSlot c n) (getSlot b n)) :
    creditPkt b n = creditPkt c n := by
  obtain ⟨-, hx, hy, hw, hh⟩ := h
  simp only [creditPkt, mcastPkt, mkPkt, hplace, hx, hy, hw, hh]

theorem sendCredits_eq (c : Core) (n : Nat) : sendCredits c n = { c with
    sync := { c.sync with creditsSent := (sendCredits c n).sync.creditsSent }, out := c.out ++ [creditPkt c n] } := rfl

/-- The core with the procedure done on slot n but for its credits. -/
def cycleSlot (c : Core) (n : Nat) : Core :=
  { c with sync := { c.sync with
      slots := smSet Slot.reset c.sync.slots n (slotCycle (getSlot c n)).1
      overposts := sat16 c.sync.overposts (slotCycle (getSlot c n)).2.2 } }

theorem getSlot_cycleSlot (c : Core) (n j : Nat) :
    getSlot (cycleSlot c n) j = if j = n then (slotCycle (getSlot c n)).1 else getSlot c j := smGet_smSet _ _ _ _ _

theorem updateSlot_of_cycleSlot (c : Core) (n : Nat) :
    updateSlot c n = if sendsCredits c n then sendCredits (cycleSlot c n) n else cycleSlot c n := by
  have hremote := (sameProducers_slotCycle (getSlot c n)).1
  simp only [updateSlot, slotCycle_empties, hremote, sendsCredits]
  rfl

/-- What the procedure on one slot changes. -/
theorem updateSlot_eq (c : Core) (n : Nat) : updateSlot c n = { cycleSlot c n with
    sync := { (cycleSlot c n).sync with creditsSent := (updateSlot c n).sync.creditsSent }
    out := c.out ++ if sendsCredits c n then [creditPkt c n] else [] } := by
  rw [updateSlot_of_cycleSlot]
  split
  · have hpkt : creditPkt (cycleSlot c n) n = creditPkt c n := by
      refine creditPkt_congr rfl ?_
      rw [getSlot_cycleSlot, if_pos rfl]
      exact sameProducers_slotCycle _
    rw [sendCredits_eq, hpkt]
    rfl
  · rw [List.append_nil]
    rfl

theorem getSlot_updateSlot (c : Core) (n j : Nat) :
    getSlot (updateSlot c n) j = if j = n then (slotCycle (getSlot c n)).1 else getSlot c j := by
  rw [updateSlot_eq, ← getSlot_cycleSlot]
  rfl

/-- The procedure on slots of a list reads each slot as it was before (R175). -/
theorem getSlot_updateSlot_foldl {l : List Nat} (hl : l.Nodup) (c : Core) (j : Nat) :
    getSlot (l.foldl updateSlot c) j = if j ∈ l then (slotCycle (getSlot c j)).1 else getSlot c j :=
  foldl_reads (fun _ => True) getSlot updateSlot (fun _ q => (slotCycle q).1) (fun _ _ _ => trivial)
    (fun c k j h => by rw [getSlot_updateSlot, if_neg h]) l hl (fun c k _ _ => by rw [getSlot_updateSlot, if_pos rfl]) c trivial j

/-- The posts that meet a FULL slot (R177). -/
def overposts (c : Core) (n : Nat) : Nat := if (getSlot c n).full && !slotEmpties (getSlot c n) then (getSlot c n).posts else 0

/-- What the procedure on the slots of a list changes but for the slots themselves. -/
theorem updateSlot_foldl_eq {l : List Nat} (hl : l.Nodup) (c : Core) : l.foldl updateSlot c = { c with
    sync := { c.sync with
      slots := (l.foldl updateSlot c).sync.slots, overposts := (l.foldl updateSlot c).sync.overposts
      creditsSent := (l.foldl updateSlot c).sync.creditsSent }
    out := c.out ++ (l.filter (sendsCredits c)).map (creditPkt c) } := by
  induction l generalizing c with
  | nil => simp
  | cons k l ih =>
    obtain ⟨hk, hl⟩ := List.nodup_cons.mp hl
    have hslot : ∀ j ∈ l, getSlot (updateSlot c k) j = getSlot c j := fun j hj => by
      rw [getSlot_updateSlot, if_neg fun h : j = k => hk (h ▸ hj)]
    have hplace : (updateSlot c k).place = c.place := by rw [updateSlot_eq]; rfl
    have hsends : l.filter (sendsCredits (updateSlot c k)) = l.filter (sendsCredits c) :=
      List.filter_congr fun j hj => by simp only [sendsCredits, hslot j hj]
    have hpkts : (l.filter (sendsCredits c)).map (creditPkt (updateSlot c k)) = (l.filter (sendsCredits c)).map (creditPkt c) :=
      List.map_congr_left fun j hj => by
        simp only [creditPkt, mcastPkt, mkPkt, hplace, hslot j (List.mem_filter.mp hj).1]
    have hout : (updateSlot c k).out ++ (l.filter (sendsCredits c)).map (creditPkt c) =
        c.out ++ ((k :: l).filter (sendsCredits c)).map (creditPkt c) := by
      rw [updateSlot_eq]
      by_cases hsend : sendsCredits c k = true <;> simp [hsend]
    rw [List.foldl_cons, ih hl, hsends, hpkts, hout, updateSlot_eq]
    rfl

/-- The overposts saturate at 16 bits. -/
theorem updateSlot_foldl_overposts {l : List Nat} (hl : l.Nodup) (c : Core) (h : c.sync.overposts ≤ 0xFFFF) :
    (l.foldl updateSlot c).sync.overposts = min 0xFFFF (c.sync.overposts + (l.map (overposts c)).sum) := by
  induction l generalizing c with
  | nil => simp [h]
  | cons k l ih =>
    obtain ⟨hk, hl⟩ := List.nodup_cons.mp hl
    have hover : (updateSlot c k).sync.overposts = min 0xFFFF (c.sync.overposts + overposts c k) := by
      rw [updateSlot_eq, overposts, ← slotCycle_overposts]
      rfl
    have hrest : l.map (overposts (updateSlot c k)) = l.map (overposts c) := List.map_congr_left fun j hj => by
      simp only [overposts, getSlot_updateSlot, if_neg fun h : j = k => hk (h ▸ hj)]
    rw [List.foldl_cons, ih hl _ (by rw [hover]; exact Nat.min_le_left _ _), hrest, hover, List.map_cons, List.sum_cons]
    omega

/-! ### The procedure on every slot -/

/-- The slots that the procedure visits. -/
def busySlots (c : Core) : List Nat := (List.range 256).filter fun n => !decide (getSlot c n = Slot.reset)

theorem busySlots_nodup (c : Core) : (busySlots c).Nodup := List.nodup_range.filter _

theorem mem_busySlots {c : Core} {n : Nat} : n ∈ busySlots c ↔ n < 256 ∧ getSlot c n ≠ Slot.reset := by simp [busySlots]

theorem updateSlots_eq (c : Core) : updateSlots c = (busySlots c).foldl updateSlot c := rfl

/-- Every slot of the 256 goes through the procedure, which does nothing on one at its reset value. -/
theorem getSlot_updateSlots {n : Nat} (h : n < 256) (c : Core) : getSlot (updateSlots c) n = (slotCycle (getSlot c n)).1 := by
  rw [updateSlots_eq, getSlot_updateSlot_foldl (busySlots_nodup c)]
  split
  · rfl
  · next hn =>
    have hreset : getSlot c n = Slot.reset := by simpa [mem_busySlots, h] using hn
    rw [hreset, slotCycle_reset]

theorem getSlot_updateSlots_above {n : Nat} (h : 256 ≤ n) (c : Core) : getSlot (updateSlots c) n = getSlot c n := by
  rw [updateSlots_eq, getSlot_updateSlot_foldl (busySlots_nodup c), if_neg fun hn => by have := (mem_busySlots.mp hn).1; omega]

theorem busySlots_sending (c : Core) : (busySlots c).filter (sendsCredits c) = (List.range 256).filter (sendsCredits c) := by
  rw [busySlots, List.filter_filter]
  refine List.filter_congr fun n _ => ?_
  by_cases h : getSlot c n = Slot.reset
  · simp [h, sendsCredits, slotEmpties, Slot.reset]
  · simp [h]

theorem busySlots_overposts (c : Core) : ((busySlots c).map (overposts c)).sum = ((List.range 256).map (overposts c)).sum := by
  unfold busySlots
  induction List.range 256 with
  | nil => rfl
  | cons n l ih =>
    by_cases h : getSlot c n = Slot.reset
    · have hzero : overposts c n = 0 := by simp [overposts, h, Slot.reset]
      simpa [h, hzero] using ih
    · simpa [h] using ih

/-- A core without the instruction that ends posts and releases for it. -/
theorem exists_completed {site icount : Nat} {s : State} {b : Core} {st : Started} (hsite : siteOk site = true)
    (h : completeInsn icount (getCore s site) = completeEntry b st) (hsync : b.sync = (getCore s site).sync) :
    ∃ c', exec (.instructionComplete site icount) s = .next (atCore site (fun _ => c') s) ∧ Completed (getCore s site) c' st ∧
      c' = { b with sync := { (getCore s site).sync with slots := c'.sync.slots } } := by
  refine coreNext_of_onCore (f := completeInsn icount) hsite rfl ?_
  rw [h]
  refine ⟨?_, ?_⟩
  · have hslot : getSlot (getCore s site) = getSlot b := funext fun n => by rw [getSlot, getSlot, hsync]
    rw [Completed, SlotCounts, hslot]
    exact completed_completeEntry b st
  · rw [← hsync]
    exact completeEntry_frame b st

/-- Settles O10: a completion by which of the three engines holds the instruction; the slot procedure slot by slot. -/
theorem completionsAndSlots : Obligations.CompletionsAndSlots := by
  unfold Obligations.CompletionsAndSlots
  refine ⟨?_, ?_⟩
  · intro site icount s hsite c slots completes noStart noXfer noStream
    refine ⟨fun st hst hland hxfer hstream => exists_completed hsite (completeInsn_started hstream hst hland hxfer) rfl,
      fun j hj hacks hhbm hrows hnack hstart hstream => ?_, fun j rest hj hcount hdone hmatch hstart hxfer =>
        exists_completed hsite (completeInsn_stream hj hcount hdone hmatch hstart hxfer) rfl⟩
    have hdone : xferDone j = true := by simp [xferDone, hacks, hhbm, hrows, hnack]
    exact exists_completed hsite (completeInsn_xfer hstream hj hdone hstart) rfl
  · intro site s hsite c empties
    obtain ⟨c', hnext, rfl⟩ := coreNext_of_onCore (P := (· = updateSlots c)) (i := .slotUpdate site) hsite rfl rfl
    refine ⟨_, ((List.range 256).filter (sendsCredits c)).map (creditPkt c), hnext, ?_, fun n hn => ?_,
      fun n hn => getSlot_updateSlots_above hn c, fun hover => ?_, ?_, fun p hp => ?_⟩
    · rw [updateSlots_eq, updateSlot_foldl_eq (busySlots_nodup c), busySlots_sending]
    · rw [getSlot_updateSlots hn]
      exact slotCycle_slot _
    · rw [updateSlots_eq, updateSlot_foldl_overposts (busySlots_nodup c) c hover, busySlots_overposts]
      rfl
    · rw [List.map_map]
      exact List.map_id _
    · obtain ⟨n, -, rfl⟩ := List.mem_map.mp hp
      rfl

end Sys2Proof.Machine
end

section
/-!
PROOFS. The stall limits (O11).
-/

namespace Sys2Proof.Machine

section
variable {c : Core}

/-- A head that waits for admission or credits is what its engine waits on; a started BARRIER comes before it (R182). -/
theorem engineWaits_head {e : Engine} {q : QEntry} {rest : List QEntry} (hq : engineQueue c e = q :: rest)
    (hsync : e = .sync → c.sync.waiting = none)
    (hwaits : (creditless c q || (!q.admitted && !waitAdmits c (waitField q.insn))) = true) : engineWaits c e = some q := by
  unfold engineWaits
  split
  · next hwait => simp [hsync rfl] at hwait
  · rw [hq, List.head?_cons, Option.filter_some, if_pos hwaits]

theorem engineWaits_barrier {st : Started} {o : Nat} (h : c.sync.waiting = some (st, o)) : engineWaits c .sync = some st.entry := by
  simp only [engineWaits, h]

theorem slotStall_engine {e : Engine} {q : QEntry} (hmay : mayStart c = true) (he : e ≠ .issue) (hwaits : engineWaits c e = some q) :
    slotStall c e = entryFault c .slotStall q := by
  unfold slotStall
  simp only [hmay, Bool.not_true, Bool.false_eq_true, if_false, hwaits]

theorem slotStall_issue {i : CoreInsn} (hnext : nextInsn c = .insn i) (heng : opEngine i.op = .issue)
    (hwait : waitAdmits c i.wait = false) :
    slotStall c .issue = coreFault c .slotStall .issue c.stream.pc c.stream.icount := by
  have hrun : c.stream.state = .running := by
    by_contra h
    rw [nextInsn_idle h] at hnext
    cases hnext
  simp [slotStall, mayStart, hrun, hnext, heng, hwait]

theorem issueStall_eq {i : CoreInsn} (hnext : nextInsn c = .insn i) (hready : issueReady c i = false) :
    issueStall c = coreFault c .issueStall .issue c.stream.pc c.stream.icount := by
  simp [issueStall, hnext, hready]

end

/-- Settles O11: each limit faults on the instruction that its timer watches. -/
theorem stallsFault : Obligations.StallsFault := by
  unfold Obligations.StallsFault
  intro site s hsite c faults hnone
  have hengine : ∀ (e : Engine) (q : QEntry), mayStart c = true → e ≠ .issue → engineWaits c e = some q →
      faults (.slotStall site e) .slotStall (opEngine q.insn.op) q.pc q.icount := fun e q hmay he hwaits => by
    refine coreNext_of_onCore (f := (slotStall · e)) hsite rfl ?_
    rw [slotStall_engine hmay he hwaits]
    exact faults_entryFault _ q hnone
  refine ⟨fun e q rest he hmay hq hadm hwait hsync => hengine e q hmay he (engineWaits_head hq hsync (by simp [hadm, hwait])),
    fun q rest a hmay hq hadm hargs hcredits => hengine .transfer q hmay nofun
      (engineWaits_head hq nofun (by simp [creditless, hadm, hargs, hcredits])),
    fun st o hmay hwaiting => hengine .sync st.entry hmay nofun (engineWaits_barrier hwaiting),
    fun i hnext heng hwait => ?_, fun i hnext hready => ?_⟩
  · refine coreNext_of_onCore (f := (slotStall · .issue)) hsite rfl ?_
    rw [slotStall_issue hnext heng hwait]
    exact faults_coreFault _ _ _ _ hnone
  · refine coreNext_of_onCore (f := issueStall) hsite rfl ?_
    rw [issueStall_eq hnext hready]
    exact faults_coreFault _ _ _ _ hnone

end Sys2Proof.Machine
end

section
/-!
PROOFS. Credits, barrier packets and CONTROL packets at a core (O32).
-/

namespace Sys2Proof.Machine

/-- The state without packet i of those that have arrived. -/
def withoutArrived (i : Nat) (s : State) : State := { s with mesh := { s.mesh with arrived := listDel s.mesh.arrived i } }

theorem takeArrived_some {types : List PktType} {i : Nat} {s : State} {a : Arrived} (h : s.mesh.arrived[i]? = some a)
    (ht : types.contains a.pkt.typ = true) : takeArrived types i s = some (a, withoutArrived i s) := by
  simp only [takeArrived, h, ht, if_true, withoutArrived]

theorem isRouter_of_siteOk {site : Nat} (h : siteOk site = true) : isRouter site = true := h

section
variable {i site : Nat} {s : State} {p : Packet} (hsite : siteOk site = true)
  (harrived : s.mesh.arrived[i]? = some { place := site, pkt := p })
include hsite harrived

/-- A packet that its open port takes reaches its core. -/
theorem deliver_core {types : List PktType} {ok : Packet → Bool} {f : Nat → Packet → Core → Core} {c' : Core}
    (htyp : types.contains p.typ = true) (hok : ok p = true) (hopen : closedFor s site p = false)
    (hf : f site p (getCore s site) = c') : deliver types ok f i s = atCore site (fun _ => c') (withoutArrived i s) := by
  subst hf
  simp only [deliver, takeArrived_some harrived htyp, isRouter_of_siteOk hsite, hok, hopen, Bool.not_false, Bool.and_self, if_true]
  rfl

end

/-! ### Credits -/

/-- A credit counts as received, joins the table where it is new and fits, and is dropped and counted where it is new and does not
fit (R180). -/
theorem receiveCredit_eq (site slot : Nat) (c : Core) :
    receiveCredit site slot c = { c with sync := { c.sync with
      creditsReceived := (c.sync.creditsReceived + 1) % 2 ^ 32
      credits := c.sync.credits ++
        (if (site, slot) ∈ c.sync.credits ∨ c.sync.credits.length ≥ 1024 then [] else [(site, slot)])
      creditDrops := if (site, slot) ∉ c.sync.credits ∧ c.sync.credits.length ≥ 1024
        then min 65535 (c.sync.creditDrops + 1) else c.sync.creditDrops } } := by
  unfold receiveCredit
  by_cases hmem : (site, slot) ∈ c.sync.credits
  · simp [hmem]
  · by_cases hfull : c.sync.credits.length ≥ 1024
    · simp [hmem, hfull, sat16, satAdd]
    · simp [hmem, hfull]

/-! ### Barriers -/

/-- The tally that a leader holds for a barrier. -/
def heldTally (c : Core) (id ord : Nat) : Option Tally := c.sync.tallies.find? fun t => decide (t.id = id) && decide (t.ordinal = ord)

/-- The tallies of the other barriers. -/
def otherTallies (c : Core) (id ord : Nat) : List Tally :=
  c.sync.tallies.filter fun t => !(decide (t.id = id) && decide (t.ordinal = ord))

/-- The sites that have arrived at a barrier once `site` has. -/
def heardSites (c : Core) (site id ord : Nat) : List Nat :=
  match heldTally c id ord with
  | some t => if t.arrived.contains site then t.arrived else site :: t.arrived
  | none => [site]

section
variable {site id ord : Nat} {c : Core}

theorem tallyArrival_eq : tallyArrival site id ord c =
    if (heldTally c id ord).isNone ∧ c.sync.tallies.length ≥ 8 then
      { c with sync := { c.sync with barrierDrops := min 65535 (c.sync.barrierDrops + 1) } }
    else if (heardSites c site id ord).length = regionSize c then
      sendPkts { c with sync := { c.sync with tallies := otherTallies c id ord } } [releasePkt c id ord]
    else { c with sync := { c.sync with
      tallies := otherTallies c id ord ++ [{ id := id, ordinal := ord, arrived := heardSites c site id ord }] } } := rfl

/-- With eight other tallies held an arrival is dropped and counted (R268). -/
theorem tallyArrival_full (h : heldTally c id ord = none ∧ 8 ≤ c.sync.tallies.length) :
    tallyArrival site id ord c = { c with sync := { c.sync with barrierDrops := min 65535 (c.sync.barrierDrops + 1) } } := by
  rw [tallyArrival_eq, if_pos ⟨Option.isNone_iff_eq_none.mpr h.1, h.2⟩]

theorem tallyArrival_room (h : ¬(heldTally c id ord = none ∧ 8 ≤ c.sync.tallies.length)) : tallyArrival site id ord c =
    if (heardSites c site id ord).length = regionSize c then
      sendPkts { c with sync := { c.sync with tallies := otherTallies c id ord } } [releasePkt c id ord]
    else { c with sync := { c.sync with
      tallies := otherTallies c id ord ++ [{ id := id, ordinal := ord, arrived := heardSites c site id ord }] } } := by
  rw [tallyArrival_eq, if_neg fun ⟨hnone, hlen⟩ => h ⟨Option.isNone_iff_eq_none.mp hnone, hlen⟩]

end

section
variable {c : Core} {st : Started} {o : Nat} {b : BitVec 16} (hwait : c.sync.waiting = some (st, o)) (hop : st.entry.insn.op = .barrier b)
include hwait hop

/-- A release completes the waiting BARRIER of its ID and ordinal (R267). -/
theorem barrierReleased_own {id ord : Nat} (h : (id, ord) = (b.toNat, o)) :
    barrierReleased id ord c = completeEntry { c with sync := { c.sync with waiting := none } } st := by
  obtain ⟨rfl, rfl⟩ := Prod.mk.inj h
  simp only [barrierReleased, hwait, hop, and_self, if_true]

theorem barrierReleased_other {id ord : Nat} (h : (id, ord) ≠ (b.toNat, o)) : barrierReleased id ord c = c := by
  have hne : ¬(b.toNat = id ∧ o = ord) := fun ⟨hid, hord⟩ => h (by rw [hid, hord])
  simp only [barrierReleased, hwait, hop, if_neg hne]

end

theorem barrierReleased_idle {c : Core} (h : c.sync.waiting = none) (id ord : Nat) : barrierReleased id ord c = c := by
  simp only [barrierReleased, h]

/-! ### CONTROL packets -/

theorem coreRegWrite_stopCtl (v w : Nat) (c : Core) :
    coreRegWrite 0x20 v w c = { c with stream := { c.stream with
      haltEn := decide (v / 2 ^ 62 % 2 = 1), entryEn := decide (v / 2 ^ 61 % 2 = 1), entry := v / 2 ^ 32 % 8192
      haltAt := v % 2 ^ 32 } } := by
  rw [coreRegWrite, if_pos rfl]
  simp only [nbit, nbits, Nat.pow_zero, Nat.div_one, Nat.reducePow]

/-- A write to CORE.STOP_CTL without RELEASE (R191, R193, R311). -/
theorem controlWrite_stopCtl {site v : Nat} {s : State} (hlit : windowDark s site = false) (hrelease : v / 2 ^ 63 % 2 = 0) :
    controlWrite site 0x380020 v s = atCore site (fun c => { c with stream := { c.stream with
      haltEn := decide (v / 2 ^ 62 % 2 = 1), entryEn := decide (v / 2 ^ 61 % 2 = 1), entry := v / 2 ^ 32 % 8192
      haltAt := v % 2 ^ 32 } }) s := by
  have hbit : nbit v 63 = false := by rw [nbit, hrelease]; rfl
  rw [controlWrite, if_pos ⟨by decide, by simp [hlit]⟩]
  simp only [hbit, Bool.false_eq_true, and_false, if_false, Nat.reduceSub, coreRegWrite_stopCtl]

theorem takeControl_regWrite {a : Arrived} {o v : Nat} {s : State} (hctl : a.pkt.ctl = some (.regWrite o v))
    (hrouter : isRouter a.place = true) (hedge : a.pkt.srcEdge = true) : takeControl a s = controlWrite a.place o v s := by
  simp only [takeControl, hctl, hrouter, hedge, Bool.true_or, Bool.and_self, if_true]

/-- A CONTROL packet is taken from those that have arrived. -/
theorem controlPacket_next {k : Nat} {a : Arrived} {s : State} (h : s.mesh.arrived[k]? = some a) (htyp : a.pkt.typ = .control) :
    exec (.controlPacket k) s = .next (takeControl a (withoutArrived k s)) := by
  change answer true (match takeArrived [.control] k s with
    | some (a, s1) => takeControl a s1
    | none => s) = _
  rw [takeArrived_some h (by simp [htyp])]
  rfl

/-- Settles O32: a packet that its open port takes is one update of its core; a CONTROL packet passes a closed port, too. -/
theorem syncAndControlPackets : Obligations.SyncAndControlPackets := by
  unfold Obligations.SyncAndControlPackets
  intro i site s p hsite harrived c s1
  have hnext : ∀ {types : List PktType} {ok : Packet → Bool} {f : Nat → Packet → Core → Core} {ins : Instr} {c' : Core},
      exec ins s = answer true (deliver types ok f i s) → types.contains p.typ = true → ok p = true → closedFor s site p = false →
      f site p c = c' → exec ins s = .next (atCore site (fun _ => c') s1) := fun hexec htyp hok hopen hf => by
    rw [hexec, deliver_core hsite harrived htyp hok hopen hf]
    rfl
  refine ⟨fun htyp hopen => ?_, fun htyp hrel hopen => ?_, fun st o b htyp hrel hopen hwait hop => ⟨fun hid => ?_, fun hid => ?_⟩,
    fun htyp hrel hopen hwait => ?_, fun v htyp hctl hedge hlit hrelease => ?_, fun k a n m ha htyp hctl => ?_⟩
  · exact hnext (f := fun _ p => receiveCredit p.src p.slot) rfl (by simp [htyp]) rfl hopen (receiveCredit_eq _ _ c)
  · intro held others heard full
    have harrival : ∀ {c' : Core}, tallyArrival p.src p.ident.1 p.ident.2 c = c' →
        exec (.barrierArrival i) s = .next (atCore site (fun _ => c') s1) := fun hc' =>
      hnext (f := fun _ p => tallyArrival p.src p.ident.1 p.ident.2) rfl (by simp [htyp]) (by simp [hrel]) hopen hc'
    exact ⟨fun hfull => harrival (tallyArrival_full hfull), fun hfull hlast => ⟨releasePkt c p.ident.1 p.ident.2,
      harrival ((tallyArrival_room hfull).trans (if_pos hlast)), rfl, rfl, rfl, rfl, rfl, rfl⟩,
      fun hfull hmore => harrival ((tallyArrival_room hfull).trans (if_neg hmore))⟩
  · refine ⟨_, hnext (f := fun _ p => barrierReleased p.ident.1 p.ident.2) rfl (by simp [htyp]) hrel hopen
      (barrierReleased_own hwait hop hid), ?_, ?_⟩
    · exact completeEntry_frame _ st
    · exact completed_completeEntry _ st
  · exact hnext (f := fun _ p => barrierReleased p.ident.1 p.ident.2) rfl (by simp [htyp]) hrel hopen
      (barrierReleased_other hwait hop hid)
  · exact hnext (f := fun _ p => barrierReleased p.ident.1 p.ident.2) rfl (by simp [htyp]) hrel hopen (barrierReleased_idle hwait _ _)
  · rw [controlPacket_next harrived htyp, takeControl_regWrite hctl (isRouter_of_siteOk hsite) hedge,
      controlWrite_stopCtl (s := withoutArrived i s) hlit hrelease]
    rfl
  · rw [controlPacket_next ha htyp, takeControl, hctl]
    rfl

end Sys2Proof.Machine
end

section
/-!
PROOFS. Requests and steps (O46): jobs and cores in the module, what changes them and what does not.
-/

namespace Sys2Proof.Machine

/-! ### Jobs -/

theorem getJob_congr {s t : State} (h : t.jobs = s.jobs) : getJob t = getJob s := by
  funext id
  rw [getJob, getJob, h]

theorem getJob_putJob_same (j : Job) (s : State) : getJob (putJob j s) j.id = some j := by
  have hlow : (s.jobs.filter fun x => decide (x.id < j.id)).find? (fun x => decide (x.id = j.id)) = none := by
    simp only [List.find?_eq_none, List.mem_filter, decide_eq_true_eq]
    omega
  simp [getJob, putJob, List.find?_append, hlow]

theorem getJob_putJob_other (j : Job) (s : State) {i : Nat} (h : i ≠ j.id) : getJob (putJob j s) i = getJob s i := by
  have hself : [j].find? (fun x => decide (x.id = i)) = none := by simp [Ne.symm h]
  simp only [getJob, putJob, List.find?_append, hself, List.find?_filter]
  rcases Nat.lt_or_gt_of_ne h with hlt | hgt
  · have hlow : (fun a : Job => decide (decide (a.id < j.id) = true ∧ decide (a.id = i) = true)) = fun a => decide (a.id = i) := by
      funext a
      simp only [decide_eq_true_eq, decide_eq_decide]
      omega
    have hhigh : s.jobs.find? (fun a => decide (decide (j.id < a.id) = true ∧ decide (a.id = i) = true)) = none := by
      simp only [List.find?_eq_none, decide_eq_true_eq]
      omega
    rw [hlow, hhigh]
    simp
  · have hhigh : (fun a : Job => decide (decide (j.id < a.id) = true ∧ decide (a.id = i) = true)) = fun a => decide (a.id = i) := by
      funext a
      simp only [decide_eq_true_eq, decide_eq_decide]
      omega
    have hlow : s.jobs.find? (fun a => decide (decide (a.id < j.id) = true ∧ decide (a.id = i) = true)) = none := by
      simp only [List.find?_eq_none, decide_eq_true_eq]
      omega
    rw [hlow, hhigh]
    simp

theorem modJob_some {s : State} {id : Nat} {j : Job} (h : getJob s id = some j) (f : Job → Job) : modJob id f s = putJob (f j) s := by
  rw [modJob, h]

/-- From s to t the job of an id has become j', and no other job has changed. -/
def OneJob (s t : State) (id : Nat) (j' : Job) : Prop := getJob t id = some j' ∧ ∀ i, i ≠ id → getJob t i = getJob s i

theorem oneJob_putJob (j : Job) (s : State) : OneJob s (putJob j s) j.id j :=
  ⟨getJob_putJob_same j s, fun _ h => getJob_putJob_other j s h⟩

theorem OneJob.trans {s t u : State} {id : Nat} {i j : Job} (h : OneJob s t id i) (h' : OneJob t u id j) : OneJob s u id j :=
  ⟨h'.1, fun k hk => (h'.2 k hk).trans (h.2 k hk)⟩

/-- What leaves the jobs leaves this. -/
theorem OneJob.congr {s s' t t' : State} {id : Nat} {j : Job} (h : OneJob s t id j) (hs : s'.jobs = s.jobs) (ht : t'.jobs = t.jobs) :
    OneJob s' t' id j := by
  rw [OneJob, getJob_congr hs, getJob_congr ht]
  exact h

theorem liveJob_eq {s : State} {id : Nat} {j : Job} (h : getJob s id = some j) (hadm : jobAdmitted j = true) : liveJob s id = some j := by
  simp only [liveJob, h, Option.filter_some, hadm, if_true]

/-! ### Commands on several cores -/

/-- The frame of a command on cores: `OnlyCores s t` says that t is coresFrame s t. -/
def coresFrame (s t : State) : State :=
  { s with cores := t.cores, history := t.history, errlog := t.errlog, hosts := t.hosts, out := t.out }

section
variable (f : Core → Core)

theorem onlyCores_atCores (sites : List Nat) (s : State) : OnlyCores s (atCores sites f s) :=
  foldl_frame coresFrame (fun _ => rfl) (fun _ _ _ => rfl) _ (fun s k => atCore_eq k f s) sites s

theorem getCore_atCores_other {k : Nat} {sites : List Nat} (h : k ∉ sites) (s : State) :
    getCore (atCores sites f s) k = getCore s k := by
  induction sites generalizing s with
  | nil => rfl
  | cons x l ih =>
    obtain ⟨hx, hl⟩ := not_or.mp (List.mem_cons.not.mp h)
    exact (ih hl _).trans (getCore_atCore_other x f s hx)

variable {f} {R : Core → Prop} (again : ∀ c, R c → R { f c with events := [] })
include again

theorem atCores_keeps (sites : List Nat) {s : State} {k : Nat} (h : R (getCore s k)) : R (getCore (atCores sites f s) k) := by
  induction sites generalizing s with
  | nil => exact h
  | cons x l ih =>
    refine ih (s := atCore x f s) ?_
    by_cases hx : k = x
    · subst hx
      rw [getCore_atCore_same]
      exact again _ h
    · rwa [getCore_atCore_other x f s hx]

/-- What f makes of the core of a listed site and keeps when it is done again holds of it afterwards: a site may be listed twice. -/
theorem atCores_makes {sites : List Nat} {s : State} {k : Nat} (hk : k ∈ sites) (first : R { f (getCore s k) with events := [] }) :
    R (getCore (atCores sites f s) k) := by
  induction sites generalizing s with
  | nil => cases hk
  | cons x l ih =>
    by_cases hx : k = x
    · subst hx
      refine atCores_keeps again l (s := atCore k f s) ?_
      rwa [getCore_atCore_same]
    · refine ih ((List.mem_cons.mp hk).resolve_left hx) (s := atCore x f s) ?_
      rwa [getCore_atCore_other x f s hx]

end

/-! ### Packets of the side-band units -/

/-- Writes of a side-band unit stay within their frame. -/
theorem unitWrite_frame (u : SideUnit) (j v : Nat) (l : List Byte) (crz : List Nat) (s : State) :
    unitWrite u j v l crz s = boxWriteFrame s (unitWrite u j v l crz s) := by
  unfold unitWrite
  refine foldl_frame boxWriteFrame (fun _ => rfl) (fun _ _ _ => rfl) _ (fun s pc => ?_) _ s
  simp only
  split
  · rfl
  · next a _ =>
    obtain ⟨hframe, -, -⟩ := unitAccess_spec u true j (addrPart a) (v + pc.1) pc.2 s
    split
    · rw [atHbm_eq, hframe]
      rfl
    · rw [hframe]
      rfl

end Sys2Proof.Machine
end

section
/-!
PROOFS. Requests and steps (O46): a read of a side-band unit neither sees nor changes the jobs and the meter.
-/

namespace Sys2Proof.Machine

/-- The state with other jobs and another meter. -/
def withAccounts (js : List Job) (m : Meter) (s : State) : State := { s with jobs := js, meter := m }

section
variable (js : List Job) (m : Meter)

/-- The signal of a log entry on one host port, where it is enabled and the port is there (R574). -/
def signalPort (s : State) (p : Nat) (en : Bool) (v : Nat) : State :=
  if en && portPresent (getHost s p) then emit (signalVector p (getHost s p) v).2 (putHost p (signalVector p (getHost s p) v).1 s) else s

theorem logSignals_signalPort (s : State) :
    logSignals s = signalPort (signalPort s 0 s.errlog.en0 s.errlog.vec0) 1 s.errlog.en1 s.errlog.vec1 := rfl

theorem signalPort_withAccounts (s : State) (p : Nat) (en : Bool) (v : Nat) :
    signalPort (withAccounts js m s) p en v = withAccounts js m (signalPort s p en v) := by
  rw [signalPort, signalPort, apply_ite (withAccounts js m)]
  rfl

theorem logSignals_withAccounts (s : State) : logSignals (withAccounts js m s) = withAccounts js m (logSignals s) := by
  rw [logSignals_signalPort, logSignals_signalPort, signalPort_withAccounts, signalPort_withAccounts]
  rfl

theorem logEvent_withAccounts (e : LogEvent) (s : State) : logEvent e (withAccounts js m s) = withAccounts js m (logEvent e s) :=
  logSignals_withAccounts js m { s with errlog := addLog s.errlog e (timeNow s) s.history.time }

theorem histEvent_withAccounts (u : Nat) (s : State) : histEvent u (withAccounts js m s) = withAccounts js m (histEvent u s) := by
  unfold histEvent
  simp only
  rw [apply_ite (withAccounts js m), ← logEvent_withAccounts]
  rfl

/-- A fold whose every step commutes with a change of the state commutes with it. -/
theorem foldl_commutes {σ β : Type} (g : σ → σ) (f : σ → β → σ) (h : ∀ s x, f (g s) x = g (f s x)) (l : List β) (s : σ) :
    l.foldl f (g s) = g (l.foldl f s) := by
  induction l generalizing s with
  | nil => rfl
  | cons x l ih => rw [List.foldl_cons, List.foldl_cons, h, ih]

theorem histEvents_withAccounts (us : List Nat) (s : State) :
    histEvents us (withAccounts js m s) = withAccounts js m (histEvents us s) :=
  foldl_commutes _ _ (fun s u => histEvent_withAccounts js m u s) us s

theorem flushHbm_withAccounts (s : State) : flushHbm (withAccounts js m s) = withAccounts js m (flushHbm s) :=
  histEvents_withAccounts js m _ { s with hbm := { s.hbm with events := [] } }

theorem unitAccess_withAccounts (u : SideUnit) (write : Bool) (job part v n : Nat) (s : State) :
    unitAccess u write job part v n (withAccounts js m s) =
      ((unitAccess u write job part v n s).1, withAccounts js m (unitAccess u write job part v n s).2) := by
  unfold unitAccess
  change (match unitPacket s.mesh u write job part v n with | none => _ | some p => _) = _
  cases unitPacket s.mesh u write job part v n with
  | none => rfl
  | some p =>
    simp only
    change (match routePacket p s.mesh with | (none, _, m) => _ | (some _, _, m) => _) = _
    obtain ⟨_ | q, st, m'⟩ := routePacket p s.mesh
    · rfl
    · simp only
      change (if partInService s part = true then _ else _) = _
      split <;> rfl

theorem unitRead_withAccounts (u : SideUnit) (j v n : Nat) (s : State) :
    unitRead u j v n (withAccounts js m s) = ((unitRead u j v n s).1, withAccounts js m (unitRead u j v n s).2) := by
  unfold unitRead
  refine foldl_commutes (fun acc : List (Byte × Bool) × State => (acc.1, withAccounts js m acc.2)) _ (fun acc pc => ?_) _ ([], s)
  obtain ⟨l, s0⟩ := acc
  simp only
  change (match hbmTranslate s0.hbm j (v + pc.1) with | none => _ | some a => _) = _
  cases hbmTranslate s0.hbm j (v + pc.1) with
  | none => rfl
  | some a =>
    simp only [unitAccess_withAccounts]
    obtain ⟨served, s1⟩ := unitAccess u false j (addrPart a) (v + pc.1) pc.2 s0
    cases served with
    | false => rfl
    | true =>
      exact congrArg (Prod.mk _)
        (flushHbm_withAccounts js m { s1 with hbm := (hbmReadBytes (timeNow s) j (v + pc.1) pc.2 s1.hbm).2 })
end

/-- A read of a side-band unit leaves the signal box's own state. -/
theorem unitRead_box (u : SideUnit) (j v n : Nat) (s : State) : (unitRead u j v n s).2.box = s.box := by
  unfold unitRead
  refine foldl_keeps (fun acc : List (Byte × Bool) × State => acc.2.box) _ (fun acc pc => ?_) _ ([], s)
  obtain ⟨l, s0⟩ := acc
  simp only
  split
  · rfl
  · next a _ =>
    obtain ⟨hframe, -, -⟩ := unitAccess_spec u false j (addrPart a) (v + pc.1) pc.2 s0
    split
    · rw [flushHbm_eq, hframe]
    · rw [hframe]

end Sys2Proof.Machine
end

section
/-!
PROOFS. Requests and steps (O46): SUBMIT and the yard of a job on one module.
-/

namespace Sys2Proof.Machine

/-! ### SUBMIT -/

/-- The state without a SUBMIT's entry (R460). -/
def withoutSub (e : SubEnt) (s : State) : State :=
  { s with box := { s.box with subs := s.box.subs.filter fun x => !decide (x = e) } }

section
variable {ticket : Nat} {s : State} {e : SubEnt}

theorem submit_none (h : s.box.subs.find? (fun e => decide (e.ticket = ticket)) = none) : exec (.submit ticket) s = .next s := by
  change answer true (match s.box.subs.find? (fun e => decide (e.ticket = ticket)) with | some e => _ | none => s) = _
  rw [h]
  rfl

theorem submit_some (h : s.box.subs.find? (fun e => decide (e.ticket = ticket)) = some e) :
    exec (.submit ticket) s = .next (submitEntry e (withoutSub e s)) := by
  change answer true (match s.box.subs.find? (fun e => decide (e.ticket = ticket)) with | some e => _ | none => s) = _
  rw [h]
  rfl

theorem countYard_eq (st : Nat) (s : State) : countYard st s = { s with box := { s.box with
    empties := if st = 1 then min 0xFFFFFFFF (s.box.empties + 1) else s.box.empties
    shapeOver := if st = 2 then min 0xFFFFFFFF (s.box.shapeOver + 1) else s.box.shapeOver } } := by
  unfold countYard
  by_cases h1 : st = 1
  · subst h1
    rfl
  · by_cases h2 : st = 2
    · subst h2
      rfl
    · simp [h1, h2]

/-- A SUBMIT that fails a check completes with its status, counted where it is EMPTY or SHAPE_OVER (R283, R284, R460). -/
theorem submitEntry_fails {st : Nat} (h : submitStatus s e = some st) :
    submitEntry e (withoutSub e s) = countYard st (finishReq e.job 0 (reqOf e 0) st 0 [] false (withoutSub e s)) := by
  have h' : submitStatus (withoutSub e s) e = some st := h
  rw [submitEntry, h']

/-- A SUBMIT that passes joins the ready requests of its job (R461). -/
theorem submitEntry_ready {j : Job} (h : submitStatus s e = none) (hj : liveJob s e.job = some j) (hrank : treeRank j = 0) :
    submitEntry e (withoutSub e s) = putJob { j with ready := insertReq (reqOf e 0) j.ready } (withoutSub e s) := by
  have h' : submitStatus (withoutSub e s) e = none := h
  have hj' : liveJob (withoutSub e s) e.job = some j := hj
  simp only [submitEntry, h', hj', hrank, ne_eq, not_true, and_false, if_false]

/-! ### The checks of a SUBMIT -/

theorem submitStatus_badDesc (h : subDescOk e.desc = false ∨ dfield e.desc 2 1 ≠ e.job) : submitStatus s e = some 5 := by
  rw [submitStatus, if_pos (by simpa using h)]

section
variable (hdesc : subDescOk e.desc = true) (hjob : dfield e.desc 2 1 = e.job)
include hdesc hjob

theorem submitStatus_noJob (h : liveJob s e.job = none) : submitStatus s e = some 3 := by
  simp [submitStatus, hdesc, hjob, h]

variable {j : Job} (hlive : liveJob s e.job = some j)
include hlive

theorem submitStatus_quarantined (h : j.st = 6) : submitStatus s e = some 3 := by
  simp [submitStatus, hdesc, hjob, hlive, h]

theorem submitStatus_reload (h : j.st = 4) : submitStatus s e = some 8 := by
  simp [submitStatus, hdesc, hjob, hlive, h]

/-- The checks of the request itself, in their order: its sizes, an empty dimension, a bucket that holds it (R460). -/
theorem submitStatus_request (h6 : j.st ≠ 6) (h4 : j.st ≠ 4) :
    let r := reqOf e 0
    submitStatus s e =
      if (∃ d ∈ r.dims.drop j.pkg.ndims, d ≠ 0) ∨ r.len ≠ r.dims.getD 0 0 * j.inRow ∨ r.outLen < r.dims.getD 0 0 * j.outRow then some 5
      else if ∃ d ∈ r.dims.take j.pkg.ndims, d = 0 then some 1
      else if chooseBucket j.pkg r.dims = none then some 2
      else none := by
  simp only [submitStatus, hdesc, hjob, hlive, h6, h4, if_false, List.any_eq_true, decide_eq_true_eq, Option.isNone_iff_eq_none,
    Bool.not_true, Bool.false_eq_true, ne_eq, not_true, or_self]

end

end

/-! ### The start of a step -/

theorem jobOk_of_lt {id : Nat} (h : id < 32) : jobOk id = true := decide_eq_true h

section
variable {s : State} {j : Job} (hjob : getJob s j.id = some j) (hid : j.id < 32)
include hjob hid

theorem yardGatherTimeout_next :
    exec (.yardGatherTimeout j.id) s = .next (putJob { j with gatherDue := !j.ready.isEmpty } s) := by
  change answer (jobOk j.id) (modJob j.id _ s) = _
  rw [jobOk_of_lt hid, modJob_some hjob]
  rfl

variable (hloading : j.loading = false) (hrank : treeRank j = 0) (bs : List HostBuf)
include hloading hrank

/-- The yard of a job's leader looks for a step to start (R462). -/
theorem yardInputRead_next : exec (.yardInputRead j.id bs) s = .next (if jobAdmitted j then startStep j bs s else s) := by
  change answer (jobOk j.id) (match liveJob s j.id with | none => s | some j => _) = _
  rw [jobOk_of_lt hid, liveJob, hjob, Option.filter_some]
  cases jobAdmitted j with
  | false => rfl
  | true =>
    simp only [if_true, hloading, Bool.false_eq_true, if_false, hrank]
    rfl

end

theorem startStep_idle {j : Job} {s : State} (bs : List HostBuf)
    (h : (yardSelect s j).1 = [] ∨ (j.gatherDue || (yardSelect s j).2) = false ∨ yardOpen s j = false ∨ mayDispatch s = false) :
    startStep j bs s = s := by
  have hguard : ((yardSelect s j).1.isEmpty || !(j.gatherDue || (yardSelect s j).2) || !yardOpen s j || !mayDispatch s) = true := by
    rcases h with h | h | h | h <;> simp [h]
  rw [startStep, if_pos hguard]

theorem jobAdmitted_of_yardOpen {s : State} {j : Job} (h : yardOpen s j = true) : jobAdmitted j = true ∧ arbsTaken s j = true := by
  simp only [yardOpen, Bool.and_eq_true] at h
  tauto

/-- What the yard has found of a step of one request of its own: the request, its bucket, and that a step may start. -/
structure StartsAlone (s : State) (j : Job) (r : Req) (bk : Nat) (e : BucketEnt) : Prop where
  single : treeSize j ≤ 1
  ports : treePorts j = []
  rank : treeRank j = 0
  own : r.rank = 0
  sel : (yardSelect s j).1 = [r]
  due : (j.gatherDue || (yardSelect s j).2) = true
  isOpen : yardOpen s j = true
  may : mayDispatch s = true
  choice : chooseBucket j.pkg (stepShape [r.dims]) = some bk
  bucket : j.pkg.buckets[bk]? = some e

/-- The ready requests without one. -/
def readyRest (j : Job) (r : Req) : List Req := j.ready.filter fun x => !decide (r.ticket = x.ticket)

section
variable {s : State} {j : Job} {r : Req} {bk : Nat} {e : BucketEnt} (h : StartsAlone s j r bk e) (b : HostBuf)
include h

/-- A step of one request: its input is read, and either it fails with its port or its rows go on. -/
theorem startStep_single : startStep j [b] s =
    let q := readInputs j [{ r with row0 := 0 }] [b] s
    if q.1.all fun x => x.1.inFailed then
      modJob j.id (fun i => { i with ready := readyRest j r, gatherDue := gatherOver (timeNow s) { i with ready := readyRest j r } }) q.2
    else loadRows { j with ready := readyRest j r, awaitRows := [0] } bk q.1 (padArena j bk (r.dims.getD 0 0) q.2) := by
  have hguard : ([r].isEmpty || !(j.gatherDue || (yardSelect s j).2) || !yardOpen s j || !mayDispatch s) = false := by
    simp [h.due, h.isOpen, h.may]
  have hrest : (j.ready.filter fun x => !([{ r with row0 := 0 }].any fun q : Req => decide (q.ticket = x.ticket))) = readyRest j r := by
    simp [readyRest]
  have hsend : ∀ (sel : List Req) (s' : State), sendDispatch j bk sel s' = s' := fun sel s' => by
    rw [sendDispatch, if_neg (by have := h.single; omega)]
  simp only [startStep, h.sel, hguard, Bool.false_eq_true, if_false, layRows, List.map_cons, List.map_nil, h.choice, hrest, hsend,
    selRows, List.sum_cons, List.sum_nil, Nat.add_zero]

end

end Sys2Proof.Machine
end

section
/-!
PROOFS. Requests and steps (O46): the dispatch of a step.
-/

namespace Sys2Proof.Machine

/-! ### The cores of a step -/

/-- The position at which a core of the job starts a step with bucket b (R280). -/
def stepEntry (j : Job) (b : Nat) (p : Place) : Nat := (regionOf j.pkg p.vx p.vy).elim 0 fun g => g.entries.getD b 0

/-- A core with CORE.STEP, arena limits and entry written. -/
def stepWritten (j : Job) (b n : Nat) (e : BucketEnt) (c : Core) : Core :=
  { c with
    place := { c.place with bucket := b, steps := n, inLim := e.inBytes, outLim := e.outBytes }
    stream := { c.stream with entry := stepEntry j b c.place, entryEn := true } }

/-- What a step makes of the core c, whatever else has been written to d since. -/
def RunsStep (j : Job) (b n : Nat) (e : BucketEnt) (c d : Core) : Prop :=
  d.stream.state = .running ∧ d.place.steps = n ∧ d.place.bucket = b ∧ d.place.inLim = e.inBytes ∧ d.place.outLim = e.outBytes ∧
  d.stream.loops = [] ∧ d.stream.pc = stepEntry j b d.place ∧ d.slab.words = c.slab.words ∧ d.aregs = c.aregs

section
variable (j : Job) (b n : Nat) (e : BucketEnt)

theorem dispatchCore_eq (c : Core) : dispatchCore j b n e c = releaseCore (stepWritten j b n e c) := by
  simp only [dispatchCore, stepWritten, stepEntry]
  cases regionOf j.pkg c.place.vx c.place.vy <;> rfl

theorem releaseCore_running {c : Core} (h : c.stream.state = .running) : releaseCore c = c := by
  simp [releaseCore, releasable, h]

theorem dispatchCore_runsStep {c : Core} (hstate : c.stream.state = .idle ∨ c.stream.state = .arrived)
    (harbs : coreArbsTaken c = true) : RunsStep j b n e c { dispatchCore j b n e c with events := [] } := by
  have hrel : releasable (stepWritten j b n e c) = true :=
    releasable_of (hstate.elim (fun h => .inr (.inr ⟨h, rfl⟩)) fun h => .inl h)
  rw [dispatchCore_eq, releaseCore_resumes hrel harbs]
  exact ⟨rfl, rfl, rfl, rfl, rfl, rfl, rfl, rfl, rfl⟩

/-- A second dispatch of a core that has started changes nothing of it. -/
theorem dispatchCore_again {c d : Core} (h : RunsStep j b n e c d) : RunsStep j b n e c { dispatchCore j b n e d with events := [] } := by
  obtain ⟨hstate, -, -, -, -, hloops, hpc, hwords, haregs⟩ := h
  rw [dispatchCore_eq, releaseCore_running (c := stepWritten j b n e d) hstate]
  exact ⟨hstate, rfl, rfl, rfl, rfl, hloops, hpc, hwords, haregs⟩

end

/-! ### The dispatch -/

/-- A job whose step has been dispatched with bucket b (R280, R479). -/
def dispatchedJob (j : Job) (b now : Nat) : Job :=
  { j with
    dispatched := true, bucket := some b, ordinal := 0, steps := min 0xFFFFFFF (j.steps + 1), loading := false, awaitRows := []
    atStop := none, arrived := [], gatherDue := gatherOver now j, stepWt := j.wtDigest, devSave := none
    pair := j.pair.map fun p => { p with digest := List.replicate 32 0#8 } }

/-- The state with the job dispatched, and its cores. -/
def coresDispatched (j : Job) (b : Nat) (e : BucketEnt) (s : State) : State :=
  atCores (jobSites j) (dispatchCore j b (min 0xFFFFFFF (j.steps + 1)) e) (putJob (dispatchedJob j b (timeNow s)) s)

theorem OnlyCores.jobs_eq {s t : State} (h : OnlyCores s t) : t.jobs = s.jobs := by
  rw [show t = coresFrame s t from h]
  rfl

theorem arbsTaken_iff (s : State) (j : Job) : arbsTaken s j = true ↔ ∀ k ∈ jobSites j, coreArbsTaken (getCore s k) = true :=
  List.all_eq_true

section
variable {s : State} {j : Job} {b : Nat} {e : BucketEnt}

theorem dispatchStep_eq (hj : getJob s j.id = some j) (harbs : arbsTaken s j = true) (hmay : mayDispatch s = true)
    (hb : j.pkg.buckets[b]? = some e) :
    dispatchStep j.id b s = { coresDispatched j b e s with
      meter := openStep (coresDispatched j b e s).meter j.id (min 0xFFFFFFF (j.steps + 1)) (e.dims.getD 0 0)
        (timeNow (coresDispatched j b e s)) (chargedRows j.sel) } := by
  simp only [dispatchStep, hj, harbs, hmay, Bool.and_self, if_true, hb]
  rfl

/-- The cores of a dispatched step run it. -/
theorem coresDispatched_runs (harbs : arbsTaken s j = true)
    (hstate : ∀ k ∈ jobSites j, (getCore s k).stream.state = .idle ∨ (getCore s k).stream.state = .arrived) :
    ∀ k ∈ jobSites j, RunsStep j b (min 0xFFFFFFF (j.steps + 1)) e (getCore s k) (getCore (coresDispatched j b e s) k) :=
  fun k hk => atCores_makes (R := RunsStep j b (min 0xFFFFFFF (j.steps + 1)) e (getCore s k))
    (fun _ => dispatchCore_again j b _ e) hk
    (dispatchCore_runsStep j b _ e (hstate k hk) ((arbsTaken_iff s j).mp harbs k hk))

theorem coresDispatched_frame : OnlyCores (putJob (dispatchedJob j b (timeNow s)) s) (coresDispatched j b e s) :=
  onlyCores_atCores _ _ _

theorem getJob_coresDispatched : OneJob s (coresDispatched j b e s) j.id (dispatchedJob j b (timeNow s)) :=
  (oneJob_putJob (dispatchedJob j b (timeNow s)) s).congr rfl coresDispatched_frame.jobs_eq

end

end Sys2Proof.Machine
end

section
/-!
PROOFS. Requests and steps (O46): a step of one request, from its input to its cores.
-/

namespace Sys2Proof.Machine

/-! ### The input of one request -/

section
variable {s : State} {j : Job} {r : Req} {b : HostBuf} (hrank : r.rank = treeRank j)
include hrank

theorem readInputs_absent (hport : portPresent (getHost s r.port) = false) :
    readInputs j [r] [b] s = ([({ r with inFailed := true }, [], [])], finishReq j.id j.steps r 4 0 [] false s) := by
  simp [readInputs, hrank, hport]

/-- A request whose input has been read without a failed byte. -/
def withDigest (r : Req) (b : HostBuf) : Req := { r with inDigest := inputDigest r.dims (fillRead r.len b).1 [] }

theorem readInputs_whole (hport : portPresent (getHost s r.port) = true) (hbuf : (fillRead r.len b).2 = []) :
    readInputs j [r] [b] s = ([(withDigest r b, (fillRead r.len b).1, [])], s) := by
  simp [readInputs, hrank, hport, hbuf, withDigest]

end

section
variable {s : State} {j : Job} {r : Req} {l : List Byte}

theorem placeRows_own (hports : treePorts j = []) (hin : r.inFailed = false) :
    placeRows j s (r, l, []) = unitWrite (.host r.port) j.id (j.pkg.arenaVa + r.row0 * j.inRow) l [] s := by
  simp [placeRows, hports, hin]

/-- The job of a step whose one request is in the arena. -/
def loadedJob (j : Job) (b : Nat) (r : Req) : Job :=
  { j with sel := [r], awaitRows := [], loading := true, bucket := some b }

theorem loadRows_single (b : Nat) (hports : treePorts j = []) (hrank : r.rank = treeRank j) (hin : r.inFailed = false)
    (hwait : j.awaitRows = [r.row0]) :
    loadRows j b [(r, l, [])] s = dispatchStep j.id b
      (putJob (loadedJob j b r) (unitWrite (.host r.port) j.id (j.pkg.arenaVa + r.row0 * j.inRow) l [] s)) := by
  simp [loadRows, hrank, hwait, placeRows_own hports hin, loadedJob]

theorem padArena_eq {e : BucketEnt} {b : Nat} (hb : j.pkg.buckets[b]? = some e) (d0 : Nat) :
    padArena j b d0 s =
      unitWrite (boxUnit s) j.id (j.pkg.arenaVa + d0 * j.inRow) (List.replicate ((e.dims.getD 0 0 - d0) * j.inRow) 0#8) [] s := by
  rw [padArena, hb]

end

/-! ### A step of one request -/

section
variable {s : State} {j : Job} {r : Req} {bk : Nat} {e : BucketEnt} (b : HostBuf)

/-- The arena with the input of the request and its padding rows. -/
def arenaWritten (s : State) (j : Job) (r : Req) (e : BucketEnt) (b : HostBuf) : State :=
  unitWrite (.host r.port) j.id j.pkg.arenaVa (fillRead r.len b).1 []
    (unitWrite (boxUnit s) j.id (j.pkg.arenaVa + r.dims.getD 0 0 * j.inRow)
      (List.replicate ((e.dims.getD 0 0 - r.dims.getD 0 0) * j.inRow) 0#8) [] s)

/-- The job when the input of its step is in the arena. -/
def arenaJob (j : Job) (bk : Nat) (r : Req) (b : HostBuf) : Job :=
  loadedJob { j with ready := readyRest j r } bk (withDigest { r with row0 := 0 } b)

/-- The module when the input of its step is in the arena. -/
def arenaReady (s : State) (j : Job) (r : Req) (bk : Nat) (e : BucketEnt) (b : HostBuf) : State :=
  putJob (arenaJob j bk r b) (arenaWritten s j r e b)

theorem arenaWritten_frame : arenaWritten s j r e b = boxWriteFrame s (arenaWritten s j r e b) := by
  unfold arenaWritten
  rw [unitWrite_frame, unitWrite_frame (boxUnit s)]
  rfl

theorem getCore_arenaReady : getCore (arenaReady s j r bk e b) = getCore s := by
  unfold arenaReady
  rw [arenaWritten_frame]
  rfl

theorem mayDispatch_arenaReady : mayDispatch (arenaReady s j r bk e b) = mayDispatch s := by
  unfold arenaReady
  rw [arenaWritten_frame]
  rfl

theorem arenaWritten_jobs : (arenaWritten s j r e b).jobs = s.jobs := by
  rw [arenaWritten_frame]
  rfl

end

section
variable {s : State} {j : Job} {r : Req} {bk : Nat} {e : BucketEnt} (h : StartsAlone s j r bk e) (b : HostBuf)
  (hjob : getJob s j.id = some j)
include h

include hjob in
theorem startStep_portAbsent (hport : portPresent (getHost s r.port) = false) :
    startStep j [b] s =
      putJob { j with ready := readyRest j r, gatherDue := gatherOver (timeNow s) { j with ready := readyRest j r } }
        (finishReq j.id j.steps { r with row0 := 0 } 4 0 [] false s) := by
  have hread := readInputs_absent (b := b) (r := { r with row0 := 0 }) (h.own.trans h.rank.symm) hport
  simp only [startStep_single h b, hread, List.all_cons, List.all_nil, Bool.and_self, if_true]
  exact modJob_some (s := finishReq j.id j.steps { r with row0 := 0 } 4 0 [] false s) hjob _

theorem startStep_portPresent (hport : portPresent (getHost s r.port) = true) (hbuf : (fillRead r.len b).2 = [])
    (hin : r.inFailed = false) :
    startStep j [b] s = dispatchStep j.id bk (arenaReady s j r bk e b) := by
  have hrank : r.rank = treeRank j := h.own.trans h.rank.symm
  have hread := readInputs_whole (b := b) (r := { r with row0 := 0 }) hrank hport hbuf
  have hgo : ¬ (withDigest { r with row0 := 0 } b).inFailed = true := by simp [withDigest, hin]
  simp only [startStep_single h b, hread, List.all_cons, List.all_nil, Bool.and_true, if_neg hgo, padArena_eq h.bucket]
  rw [loadRows_single (j := { j with ready := readyRest j r, awaitRows := [0] }) (r := withDigest { r with row0 := 0 } b) bk h.ports hrank
    hin rfl, show (withDigest { r with row0 := 0 } b).row0 = 0 from rfl, Nat.zero_mul, Nat.add_zero]
  rfl

theorem arbsTaken_arenaReady : arbsTaken (arenaReady s j r bk e b) (arenaJob j bk r b) = true := by
  rw [arbsTaken_iff, getCore_arenaReady]
  exact (arbsTaken_iff s j).mp (jobAdmitted_of_yardOpen h.isOpen).2

/-- The step is dispatched from the arena it has been given (R280, R464). -/
theorem startStep_dispatches (hport : portPresent (getHost s r.port) = true) (hbuf : (fillRead r.len b).2 = [])
    (hin : r.inFailed = false) :
    startStep j [b] s = { coresDispatched (arenaJob j bk r b) bk e (arenaReady s j r bk e b) with
      meter := (startStep j [b] s).meter } := by
  have hmay : mayDispatch (arenaReady s j r bk e b) = true := (mayDispatch_arenaReady b).trans h.may
  have hstart := (startStep_portPresent h b hport hbuf hin).trans
    (dispatchStep_eq (j := arenaJob j bk r b) (getJob_putJob_same _ _) (arbsTaken_arenaReady h b) hmay h.bucket)
  rw [hstart]

end

end Sys2Proof.Machine
end

section
/-!
PROOFS. Requests and steps (O46): a job of one module at a stop.
-/

namespace Sys2Proof.Machine

theorem noted_of_onlyCores {s s' t : State} (h : OnlyCores s' t) (hs : s' = { s with jobs := s'.jobs }) :
    Noted { s with jobs := t.jobs, cores := t.cores } t := by
  have ht : t = coresFrame s' t := h
  rw [Noted, ht, hs]
  rfl

/-! ### What a job at its stop goes on to -/

section
variable {s : State} {id : Nat} {j : Job} {a : AtStop} (hj : getJob s id = some j) (ha : j.atStop = some a)
include hj ha

theorem leaderRelease_released (hrel : a.released = true) : leaderRelease id s = s := by
  simp [leaderRelease, hj, ha, hrel]

theorem returnOutputs_done (hdone : a.outDone = true) : returnOutputs id s = s := by
  simp [returnOutputs, hj, ha, hdone]

theorem returnOutputs_returns (hfinal : a.final = true) (hdone : a.outDone = false) (hrel : a.released = true)
    (hexch : exchDone j a = true) (hpair : j.pair = none) :
    returnOutputs id s = modJob id (fun j => { j with atStop := some { a with outDone := true }, sel := [], bucket := none })
      (j.sel.foldl (returnOutput j) s) := by
  simp only [returnOutputs, hj, ha, hfinal, hdone, hrel, hexch, hpair, Bool.not_false, Bool.and_self, if_true]

section
variable (hdone : a.outDone = true) (hrel : a.released = true) (hexch : exchDone j a = true) (hsaves : j.saves = []) (hshed : j.shed = [])
  (hretire : j.retire = [])
include hdone hrel hexch hsaves hshed hretire

theorem settleStop_final (hfinal : a.final = true) : settleStop id s = s := by
  simp [settleStop, hj, ha, hdone, hrel, hexch, hsaves, hshed, hretire, hfinal]

theorem settleStop_releases (hfinal : a.final = false) (hhalted : j.halted = false) : settleStop id s = releaseJobCores id s := by
  simp [settleStop, hj, ha, hdone, hrel, hexch, hsaves, hshed, hretire, hfinal, hhalted]

end

end

theorem releaseJobCores_eq {s : State} {id : Nat} {j : Job} (hj : getJob s id = some j) (hsuspect : j.suspect = false) :
    releaseJobCores id s =
      if arbsTaken s j then putJob { j with atStop := none, devSave := none } (atCores (jobSites j) releaseCore s) else s := by
  simp only [releaseJobCores, hj, hsuspect, Bool.not_false, Bool.true_or, Bool.and_true]

theorem exchDone_of_none {j : Job} {a : AtStop} (hexch : j.exch = []) (hbusy : a.exBusy = false) : exchDone j a = true := by
  simp [exchDone, hbusy, stopEntries, hexch]

/-! ### The arrival -/

/-- A job of one module alone whose cores all stand at stop k with nothing else to be done there. -/
structure ArrivesAlone (s : State) (j : Job) (k : Nat) : Prop where
  job : getJob s j.id = some j
  idOk : j.id < 32
  admitted : jobAdmitted j = true
  runs : jobRuns j = true
  normal : j.st = 1
  unsuspected : j.suspect = false
  moving : j.atStop = none
  dispatched : j.dispatched = true
  single : treeSize j = 1
  unpaired : j.pair = none
  noExch : j.exch = []
  noSaves : j.saves = []
  noShed : j.shed = []
  noRetire : j.retire = []
  unhalted : j.halted = false
  stop : jobStop s j = some k
  arrived : ∀ x ∈ jobSites j, (getCore s x).stream.state = .arrived

/-- The stop of a job of one module without exchanges. -/
def soleStop (j : Job) (k : Nat) (final : Bool) : AtStop :=
  { k := k, ordinal := j.ordinal + 1, final := final, exNext := 0, exBusy := false, outDone := !final, released := true }

/-- A job that has arrived at its stop. -/
def stoppedJob (j : Job) (k : Nat) (final : Bool) : Job :=
  { j with atStop := some (soleStop j k final), stopCount := k, ordinal := j.ordinal + 1 }

/-- The module with the job at its stop; the step's last one closes its account (R479). -/
def stopEntered (s : State) (j : Job) (k : Nat) (final : Bool) : State :=
  { putJob (stoppedJob j k final) s with meter := if final then closeStep s.meter j.id (timeNow s) else s.meter }

theorem getJob_stopEntered (s : State) (j : Job) (k : Nat) (final : Bool) : OneJob s (stopEntered s j k final) j.id (stoppedJob j k final) :=
  (oneJob_putJob (stoppedJob j k final) s).congr rfl rfl

theorem jobAtStop_next {s : State} {j : Job} (hjob : getJob s j.id = some j) (hid : j.id < 32) (hadm : jobAdmitted j = true)
    (hruns : jobRuns j = true) (hmoving : j.atStop = none) (final : Bool) :
    exec (.jobAtStop j.id final) s = .next (if j.dispatched then
      match jobStop s j with
      | some k => advanceStop j.id (enterStop j.id k final s)
      | none => s
    else s) := by
  change answer (jobOk j.id) (match liveJob s j.id with | none => s | some j => _) = _
  rw [jobOk_of_lt hid, liveJob_eq hjob hadm]
  simp only [hruns, Bool.not_true, Bool.false_eq_true, if_false, hmoving]
  rfl

section
variable {s : State} {j : Job} {k : Nat} (h : ArrivesAlone s j k)
include h

theorem jobAtStop_arrives (final : Bool) :
    exec (.jobAtStop j.id final) s = .next (advanceStop j.id (enterStop j.id k final s)) := by
  rw [jobAtStop_next h.job h.idOk h.admitted h.runs h.moving, if_pos h.dispatched, h.stop]

theorem enterStop_alone (final : Bool) : enterStop j.id k final s = stopEntered s j k final := by
  have hhalted : ((jobSites j).any fun x => decide ((getCore s x).stream.state = .halted)) = false := by
    rw [List.any_eq_false]
    intro x hx
    simp [h.arrived x hx]
  have hreplay : ∀ s' : State, getJob s' j.id = some (stoppedJob j k final) → replayPass j.id k (stopDigest j.id k s') = s' := by
    intro s' hs'
    have hpair : (stoppedJob j k final).pair = none := h.unpaired
    have hst : (stoppedJob j k final).st = 1 := h.normal
    have hdigest : stopDigest j.id k s' = s' := by simp only [stopDigest, hs', hpair]
    simp [hdigest, replayPass, hs', hst]
  have hstopped : ({ j with
      atStop := some { k := k, ordinal := j.ordinal + 1, final := final, exNext := 0, exBusy := false, outDone := !final
                       released := decide (treeSize j = 1) }
      stopCount := k, ordinal := j.ordinal + 1
      halted := j.halted || (jobSites j).any fun x => decide ((getCore s x).stream.state = .halted) } : Job) =
      stoppedJob j k final := by
    rw [hhalted, h.single, Bool.or_false]
    rfl
  have hone : ¬ (treeSize j > 1 ∧ treeRank j ≠ 0) := by
    rw [h.single]
    omega
  simp only [enterStop, h.job, hstopped, if_neg hone]
  cases final with
  | false => exact hreplay (stopEntered s j k false) (getJob_stopEntered s j k false).1
  | true => exact hreplay (stopEntered s j k true) (getJob_stopEntered s j k true).1

theorem exchDone_stopped (final : Bool) : exchDone (stoppedJob j k final) (soleStop j k final) = true :=
  exchDone_of_none h.noExch rfl

/-! ### A stop within the step -/

theorem advanceStop_within :
    advanceStop j.id (stopEntered s j k false) =
      if arbsTaken s j then putJob { j with stopCount := k, ordinal := j.ordinal + 1, devSave := none }
        (atCores (jobSites j) releaseCore (stopEntered s j k false))
      else stopEntered s j k false := by
  have hj := (getJob_stopEntered s j k false).1
  have hgone : ({ stoppedJob j k false with atStop := none, devSave := none } : Job) =
      { j with stopCount := k, ordinal := j.ordinal + 1, devSave := none } := by
    simp only [stoppedJob, h.moving]
  rw [advanceStop, leaderRelease_released hj rfl rfl, returnOutputs_done hj rfl rfl,
    settleStop_releases hj rfl rfl rfl (exchDone_stopped h false) h.noSaves h.noShed h.noRetire rfl h.unhalted,
    releaseJobCores_eq hj h.unsuspected, hgone]
  rfl

theorem jobAtStop_within :
    exec (.jobAtStop j.id false) s = .next (
      if arbsTaken s j then putJob { j with stopCount := k, ordinal := j.ordinal + 1, devSave := none }
        (atCores (jobSites j) releaseCore (stopEntered s j k false))
      else stopEntered s j k false) := by
  rw [jobAtStop_arrives h, enterStop_alone h, advanceStop_within h]

end

/-- What a release from a stop makes of the core c (R191, R192). -/
def Resumes (c d : Core) : Prop :=
  d.stream.state = .running ∧
  d.stream.pc = (if c.stream.entryEn then c.stream.entry else if c.stream.switched then 0 else c.stream.pc) ∧
  d.stream.atStop = false ∧ d.stream.entryEn = false ∧ d.stream.icount = c.stream.icount ∧ d.slab.words = c.slab.words ∧
  d.aregs = c.aregs ∧ d.place = c.place

theorem releaseCore_resumesStop {c : Core} (hstate : c.stream.state = .arrived) (harbs : coreArbsTaken c = true) :
    Resumes c { releaseCore c with events := [] } := by
  rw [releaseCore_resumes (releasable_of (.inl hstate)) harbs]
  exact ⟨rfl, rfl, rfl, rfl, rfl, rfl, rfl, rfl⟩

theorem releaseCores_resume {s : State} {sites : List Nat}
    (h : ∀ x ∈ sites, (getCore s x).stream.state = .arrived ∧ coreArbsTaken (getCore s x) = true) :
    ∀ x ∈ sites, Resumes (getCore s x) (getCore (atCores sites releaseCore s) x) := by
  intro x hx
  obtain ⟨hstate, harbs⟩ := h x hx
  refine atCores_makes (R := Resumes (getCore s x)) (fun d hd => ?_) hx (releaseCore_resumesStop hstate harbs)
  rw [releaseCore_running hd.1]
  exact hd

/-! ### The step's last stop -/

/-- The completion of a request carries its ticket, its queue and what it is told (R467). -/
theorem exists_finishReq (job step : Nat) (r : Req) (status result : Nat) (stamp : List Byte) (joined : Bool) (s : State) :
    ∃ f, finishReq job step r status result stamp joined s = finish f s ∧ f.ticket = r.ticket ∧ f.status = status ∧ f.result = result ∧
      f.queue = some r.queue ∧ f.backstamp = stamp :=
  ⟨_, rfl, rfl, rfl, rfl, rfl, rfl⟩

/-- The output of one request of this module's own, with its port present (R465): read, and written to the host where no word of it is
crazed. -/
theorem returnOutput_own {s : State} {j : Job} {r : Req} (horphan : r.orphan = false) (hrank : r.rank = treeRank j)
    (hin : r.inFailed = false) (hport : portPresent (getHost s r.port) = true) {n : Nat} (hn : r.dims.getD 0 0 * j.outRow = n)
    {q : List (Byte × Bool) × State}
    (hq : unitRead (.host r.port) j.id (j.pkg.arenaVa + j.pkg.inMax + r.row0 * j.outRow) n s = q) :
    let z := q.1.any (·.2)
    let l := q.1.map (·.1)
    returnOutput j s r = finishReq j.id j.steps r (if z then 7 else 0) (if z then 0 else n)
      (if z then [] else backstamp j r.inDigest l) true
      { q.2 with out := if z then q.2.out else q.2.out ++ [.hostWrite r.port r.outAddr l] } := by
  simp only [returnOutput, horphan, hrank, hin, hport, hn, hq, Bool.false_eq_true, if_false, ne_eq, not_true, Bool.not_true]
  split <;> rfl

/-- A job whose step has ended at stop k with its output returned. -/
def endedJob (j : Job) (k : Nat) : Job :=
  { stoppedJob j k true with atStop := some { soleStop j k true with outDone := true }, sel := [], bucket := none }

section
variable {s : State} {j : Job} {k : Nat} (h : ArrivesAlone s j k)
include h

theorem advanceStop_final {r : Req} {s1 : State} (hsel : j.sel = [r])
    (hout : returnOutput (stoppedJob j k true) (stopEntered s j k true) r = s1) (hkeeps : getJob s1 j.id = some (stoppedJob j k true)) :
    advanceStop j.id (stopEntered s j k true) = putJob (endedJob j k) s1 := by
  have hj := (getJob_stopEntered s j k true).1
  have hreturn : returnOutputs j.id (stopEntered s j k true) = putJob (endedJob j k) s1 := by
    rw [returnOutputs_returns hj rfl rfl rfl rfl (exchDone_stopped h true) h.unpaired,
      show (stoppedJob j k true).sel = [r] from hsel, List.foldl_cons, List.foldl_nil, hout, modJob_some hkeeps]
    rfl
  rw [advanceStop, leaderRelease_released hj rfl rfl, hreturn]
  exact settleStop_final (j := endedJob j k) (getJob_putJob_same (endedJob j k) s1) rfl rfl rfl (exchDone_of_none h.noExch rfl)
    h.noSaves h.noShed h.noRetire rfl

/-- The last stop of a step of one request: its output is read and returned, and the job waits there for the next step (R465). -/
theorem jobAtStop_returns {r : Req} (hsel : j.sel = [r]) (horphan : r.orphan = false) (hrank : r.rank = treeRank j)
    (hin : r.inFailed = false) (hport : portPresent (getHost s r.port) = true) :
    let n := r.dims.getD 0 0 * j.outRow
    let q := unitRead (.host r.port) j.id (j.pkg.arenaVa + j.pkg.inMax + r.row0 * j.outRow) n s
    let z := q.1.any (·.2)
    let l := q.1.map (·.1)
    let s1 := stopEntered s j k true
    exec (.jobAtStop j.id true) s = .next (putJob (endedJob j k) (finishReq j.id j.steps r (if z then 7 else 0) (if z then 0 else n)
      (if z then [] else backstamp j r.inDigest l) true
      { withAccounts s1.jobs s1.meter q.2 with out := if z then q.2.out else q.2.out ++ [.hostWrite r.port r.outAddr l] })) := by
  intro n q z l s1
  have hread : unitRead (.host r.port) j.id (j.pkg.arenaVa + j.pkg.inMax + r.row0 * j.outRow) n s1 =
      (q.1, withAccounts s1.jobs s1.meter q.2) := unitRead_withAccounts s1.jobs s1.meter _ _ _ _ s
  have hout := returnOutput_own (s := s1) (j := stoppedJob j k true) horphan hrank hin hport (n := n) rfl hread
  rw [jobAtStop_arrives h, enterStop_alone h, advanceStop_final h hsel hout (getJob_stopEntered s j k true).1]
  rfl

end

end Sys2Proof.Machine
end

section
/-!
PROOFS. Requests and steps (O46): SUBMIT, the yard and the stops together.
-/

namespace Sys2Proof.Machine

/-! ### SUBMIT -/

section
variable {ticket : Nat} {s : State} {e : SubEnt} (hfind : s.box.subs.find? (fun e => decide (e.ticket = ticket)) = some e)
include hfind

/-- The completion of a SUBMIT that fails a check. -/
theorem submit_fails {st : Nat} (hst : submitStatus s e = some st) :
    exec (.submit ticket) s = .next (countYard st (finishReq e.job 0 (reqOf e 0) st 0 [] false (withoutSub e s))) := by
  rw [submit_some hfind, submitEntry_fails hst]

theorem submit_ready {j : Job} (hst : submitStatus s e = none) (hj : liveJob s e.job = some j) (hrank : treeRank j = 0) :
    exec (.submit ticket) s = .next (putJob { j with ready := insertReq (reqOf e 0) j.ready } (withoutSub e s)) := by
  rw [submit_some hfind, submitEntry_ready hst hj hrank]

end

/-! ### The yard -/

section
variable {s : State} {j : Job} {r : Req} {bk : Nat} {e : BucketEnt} (h : StartsAlone s j r bk e) (b : HostBuf)
  (hjob : getJob s j.id = some j) (hid : j.id < 32) (hloading : j.loading = false)
include h hjob hid hloading

theorem yardInputRead_starts : exec (.yardInputRead j.id [b]) s = .next (startStep j [b] s) := by
  rw [yardInputRead_next hjob hid hloading h.rank, if_pos (jobAdmitted_of_yardOpen h.isOpen).1]

end

section
variable {s : State} {j : Job} {r : Req} {bk : Nat} {e : BucketEnt} (h : StartsAlone s j r bk e) (b : HostBuf)
  (hport : portPresent (getHost s r.port) = true) (hbuf : (fillRead r.len b).2 = []) (hin : r.inFailed = false)
include h hport hbuf hin

/-- The job of a dispatched step. -/
theorem startStep_job :
    OneJob s (startStep j [b] s) j.id (dispatchedJob (arenaJob j bk r b) bk (timeNow (arenaReady s j r bk e b))) := by
  have hloaded : OneJob s (arenaReady s j r bk e b) j.id (arenaJob j bk r b) :=
    (oneJob_putJob (arenaJob j bk r b) (arenaWritten s j r e b)).congr (arenaWritten_jobs b).symm rfl
  rw [startStep_dispatches h b hport hbuf hin]
  exact hloaded.trans (getJob_coresDispatched (j := arenaJob j bk r b) (e := e).congr rfl rfl)

theorem startStep_noted :
    Noted { arenaWritten s j r e b with
      cores := (startStep j [b] s).cores, jobs := (startStep j [b] s).jobs, meter := (startStep j [b] s).meter }
      (startStep j [b] s) := by
  have hnoted := noted_of_onlyCores (s := arenaWritten s j r e b)
    (coresDispatched_frame (s := arenaReady s j r bk e b) (j := arenaJob j bk r b) (b := bk) (e := e)) rfl
  rw [startStep_dispatches h b hport hbuf hin]
  exact congrArg (fun t : State => { t with meter := (startStep j [b] s).meter }) hnoted

theorem startStep_runs (hstate : ∀ k ∈ jobSites j, (getCore s k).stream.state = .idle ∨ (getCore s k).stream.state = .arrived) :
    ∀ k ∈ jobSites j, RunsStep j bk (min 0xFFFFFFF (j.steps + 1)) e (getCore s k) (getCore (startStep j [b] s) k) := by
  have hruns := coresDispatched_runs (e := e) (b := bk) (arbsTaken_arenaReady h b) (by rwa [getCore_arenaReady])
  rw [getCore_arenaReady] at hruns
  rw [startStep_dispatches h b hport hbuf hin]
  exact hruns

theorem startStep_otherCores {k : Nat} (hk : k ∉ jobSites j) : getCore (startStep j [b] s) k = getCore s k := by
  rw [startStep_dispatches h b hport hbuf hin, ← getCore_arenaReady (s := s) (j := j) (r := r) (bk := bk) (e := e) b]
  exact getCore_atCores_other _ hk _

end

/-- Settles O46: SUBMIT by its checks; the yard by the start of a step, whose dispatch keeps to its job's cores; a stop by what the job
goes on to there. -/
theorem requestsRunAsSteps : Obligations.RequestsRunAsSteps := by
  unfold Obligations.RequestsRunAsSteps
  refine ⟨fun ticket s => ⟨submit_none, fun e hfind => ?_⟩, fun s j hjob hid => ?_⟩
  · intro r subs
    refine ⟨fun st hst => ?_, submitStatus_badDesc, fun hdesc hname => ⟨submitStatus_noJob hdesc hname, fun j hlive => ?_⟩⟩
    · refine ⟨_, _, submit_fails hfind hst, countYard_eq _ _, rfl, rfl, rfl, rfl, rfl, rfl⟩
    · refine ⟨submitStatus_quarantined hdesc hname hlive, submitStatus_reload hdesc hname hlive, fun h6 h4 => ?_⟩
      intro wrong empty
      have hst := submitStatus_request hdesc hname hlive h6 h4
      refine ⟨fun hw => hst.trans (if_pos hw), fun hw he => hst.trans ((if_neg hw).trans (if_pos he)),
        fun hw he hk => hst.trans ((if_neg hw).trans ((if_neg he).trans (if_pos hk))), fun k hw he hk hrank => ?_⟩
      have hready : submitStatus s e = none := hst.trans ((if_neg hw).trans ((if_neg he).trans (if_neg (by simp [r, hk]))))
      obtain ⟨hsame, hother⟩ := oneJob_putJob { j with ready := insertReq r j.ready } (withoutSub e s)
      exact ⟨_, submit_ready hfind hready hlive hrank, rfl, hsame, hother⟩
  · intro job
    refine ⟨⟨_, yardGatherTimeout_next hjob hid, oneJob_putJob _ s, rfl⟩, fun b hloading _ hrank hidle => ?_,
      fun r b bk e hloading hsingle hports hrank hsel hown hdue hopen hmay hchoice hbucket => ?_,
      fun hadm hruns hmoving hnone f => ?_,
      fun k hadm hruns hst hsuspect hmoving hdispatched hsingle hpair hexch hsaves hshed hretire hhalted hstop harrived => ?_⟩
    · rw [yardInputRead_next hjob hid hloading hrank, startStep_idle b hidle, ite_self]
    · have h : StartsAlone s j r bk e := ⟨hsingle, hports, hrank, hown, hsel, hdue, hopen, hmay, hchoice, hbucket⟩
      intro rest d0
      have hstarts := yardInputRead_starts h b hjob hid hloading
      refine ⟨fun hport => ?_, fun hport hbuf hin hstate => ?_⟩
      · rw [hstarts, startStep_portAbsent h b hjob hport]
        exact ⟨_, _, rfl, rfl, oneJob_putJob _ _, rfl, rfl, rfl⟩
      · intro l a q
        refine ⟨_, _, hstarts, startStep_job h b hport hbuf hin, rfl, rfl, rfl, rfl, rfl, rfl, rfl, rfl,
          startStep_noted h b hport hbuf hin, startStep_runs h b hport hbuf hin hstate,
          fun k hk => startStep_otherCores h b hport hbuf hin hk⟩
    · rw [jobAtStop_next hjob hid hadm hruns hmoving]
      rcases hnone with hnone | hnone <;> simp [hnone]
    · have h : ArrivesAlone s j k := ⟨hjob, hid, hadm, hruns, hst, hsuspect, hmoving, hdispatched, hsingle, hpair, hexch, hsaves,
        hshed, hretire, hhalted, hstop, harrived⟩
      refine ⟨fun harbs => ?_, fun harbs => ?_, fun r hr horphan hrank hin hport => ?_⟩
      · have hcores := onlyCores_atCores releaseCore (jobSites j) (stopEntered s j k false)
        have hsame := oneJob_putJob { j with stopCount := k, ordinal := j.ordinal + 1, devSave := none }
          (atCores (jobSites j) releaseCore (stopEntered s j k false))
        rw [jobAtStop_within h, if_pos harbs]
        refine ⟨_, rfl, (getJob_stopEntered s j k false).trans (hsame.congr hcores.jobs_eq.symm rfl),
          ?_, fun x hx => ?_, fun x hx => ?_⟩
        · have hnoted := noted_of_onlyCores (s := s) hcores rfl
          exact congrArg (putJob { j with stopCount := k, ordinal := j.ordinal + 1, devSave := none }) hnoted
        · exact releaseCores_resume (s := stopEntered s j k false) (fun y hy => ⟨harrived y hy, (arbsTaken_iff s j).mp harbs y hy⟩) x hx
        · exact getCore_atCores_other _ hx _
      · rw [jobAtStop_within h, if_neg (by simp [harbs])]
        exact ⟨_, rfl, rfl, getJob_stopEntered s j k false⟩
      · intro n q z l
        have hbox : q.2.box = s.box := unitRead_box _ _ _ _ s
        have hsame := oneJob_putJob (endedJob j k) (stopEntered s j k true)
        have hreturns := jobAtStop_returns h hr horphan hrank hin hport
        obtain ⟨f, hf, hticket, hstatus, hresult, hqueue, hstamp⟩ := exists_finishReq j.id j.steps r (if z then 7 else 0)
          (if z then 0 else n) (if z then [] else backstamp j r.inDigest l) true
          { withAccounts (stopEntered s j k true).jobs (stopEntered s j k true).meter q.2 with
            out := if z then q.2.out else q.2.out ++ [.hostWrite r.port r.outAddr l] }
        dsimp only at hreturns
        rw [hf] at hreturns
        refine ⟨_, _, f, hreturns, (getJob_stopEntered s j k true).trans (hsame.congr rfl rfl), rfl, rfl, rfl, rfl, ?_, hticket,
          hstatus, hresult, hqueue, hstamp⟩
        rw [← hbox]
        rfl

end Sys2Proof.Machine
end

section
/-!
PROOFS. Instruction words (O4): the operand fields of a word read back as the encoder wrote them.
-/

namespace Sys2Proof.Machine

/-! ### One group of operations -/

section
variable (w p : BitVec 8)

theorem parseVec_encodeInsn (f : VecFn) (vd va vb vc : BitVec 6) (rep : BitVec 8) (sa sb sc : BitVec 1) (sub : BitVec 5) :
    parseVec f (encodeInsn { wait := w, post := p, op := .vec f vd va vb vc rep sa sb sc sub }) =
      .vec f vd va vb vc rep sa sb sc sub := by
  simp (disch := decide) only [parseVec, encodeInsn_operand, operandBits, BitVec.extractLsb'_append_eq_of_add_le,
    BitVec.extractLsb'_append_eq_left, BitVec.extractLsb'_eq_self]

theorem parseVmem_encodeInsn (f : VmemFn) (v : BitVec 6) (an : BitVec 5) (pi : BitVec 2) (s d : BitVec 1) (seg : BitVec 5)
    (rep : BitVec 8) (cstep : BitVec 1) :
    parseVmem f (encodeInsn { wait := w, post := p, op := .vmem f v an pi s d seg rep cstep }) =
      .vmem f v an pi s d seg rep cstep := by
  simp (disch := decide) only [parseVmem, encodeInsn_operand, operandBits, BitVec.extractLsb'_append_eq_of_add_le,
    BitVec.extractLsb'_append_eq_left]

theorem parseXfer_encodeInsn (f : XferFn) (an : BitVec 5) (ps : BitVec 2) (ad : BitVec 5) (pd kind : BitVec 2) (s po : BitVec 1)
    (count : BitVec 8) (cw ch : BitVec 6) :
    parseXfer f (encodeInsn { wait := w, post := p, op := .xfer f an ps ad pd kind s po count cw ch }) =
      .xfer f an ps ad pd kind s po count cw ch := by
  simp (disch := decide) only [parseXfer, encodeInsn_operand, operandBits, BitVec.extractLsb'_append_eq_of_add_le,
    BitVec.extractLsb'_append_eq_left]

/-- Bit 29 tells the immediate form from the register form (R211). -/
theorem parseAddr_encodeInsn (f : AddrFn) (ad a : BitVec 5) (src : AddrSrc) :
    parseAddr f (encodeInsn { wait := w, post := p, op := .addr f ad a src }) = .addr f ad a src := by
  cases src <;>
  · simp (disch := decide) only [parseAddr, BitVec.getLsbD_eq_extractLsb', encodeInsn_operand, operandBits,
      BitVec.extractLsb'_append_eq_of_add_le, BitVec.extractLsb'_append_eq_left, BitVec.extractLsb'_eq_self]
    rfl

end

/-! ### Every operation -/

/-- The opcode byte and the operand fields of a word name the operation that it encodes (R202). -/
theorem parseOp_encodeInsn (i : CoreInsn) : parseOp (encodeInsn i) = some i.op := by
  obtain ⟨w, p, op⟩ := i
  rw [parseOp, encodeInsn_opcode]
  cases op
  case vec f _ _ _ _ _ _ _ _ _ => cases f <;> exact congrArg some (parseVec_encodeInsn ..)
  case vmem f _ _ _ _ _ _ _ _ => cases f <;> exact congrArg some (parseVmem_encodeInsn ..)
  case xfer f _ _ _ _ _ _ _ _ _ _ => cases f <;> exact congrArg some (parseXfer_encodeInsn ..)
  case addr f _ _ _ => cases f <;> exact congrArg some (parseAddr_encodeInsn ..)
  all_goals
    refine congrArg some ?_
    simp (disch := decide) only [encodeInsn_operand, operandBits, BitVec.extractLsb'_append_eq_of_add_le,
      BitVec.extractLsb'_append_eq_left, BitVec.extractLsb'_eq_self]

/-- A word that decodes is the word of the instruction it decodes to, which keeps its tables' limits (R203). -/
theorem encodeInsn_of_decodeInsn {w : W64} {i : CoreInsn} (h : decodeInsn w = some i) : encodeInsn i = w ∧ insnOk i = true := by
  unfold decodeInsn at h
  split at h
  · cases h
  · obtain ⟨hok, hi⟩ := Option.ite_none_right_eq_some.mp h
    cases hi
    exact hok

/-- Settles O4: the decoder checks what it has read against the encoder, and the encoder's fields read back. -/
theorem coreWordsRoundTrip : Obligations.CoreWordsRoundTrip := by
  unfold Obligations.CoreWordsRoundTrip
  exact ⟨fun i hok => decodeInsn_of_parseOp (parseOp_encodeInsn i) hok, fun _ _ => encodeInsn_of_decodeInsn⟩

end Sys2Proof.Machine
end

section
/-!
PROOFS. Control and address instructions (O5, O6): the one address register that an instruction writes, and a NOTICE at its regulator.
-/

namespace Sys2Proof.Machine

/-! ### An instruction that executes at issue -/

theorem getA_admitWait (c : Core) (w : BitVec 8) : getA (admitWait c w) = getA c := by
  rw [admitWait_frame]
  rfl

/-- An operation that is no loop instruction and leaves the stream moves the position and the count (R153, R169). -/
theorem issueInsn_stream_past (now : Nat) (c : Core) {w p : BitVec 8} {op : CoreOp} (heng : opEngine op = .issue)
    (hloop : loopCount c op = none) (hstream : (execAtIssue now (admitWait c w) op).stream = c.stream) :
    (issueInsn now c { wait := w, post := p, op := op }).stream = pastInsn c := by
  rw [issueInsn_stream now c (i := { wait := w, post := p, op := op }) heng, issueNext_of_no_loop c hloop, hstream, pastInsn]

/-- An instruction that writes one address register issues: that register has its value, and all else is as after a NOP (R153,
R204). -/
theorem exists_aregIssued {site : Nat} {s : State} {ins : Instr} {sel : Core → NextInsn → Bool} {w p : BitVec 8} {op : CoreOp}
    {ad : BitVec 5} {v : AReg} (hsite : siteOk site = true) (hexec : exec ins s = issueOn sel site s)
    (h : Issues (getCore s site) { wait := w, post := p, op := op })
    (hsel : sel (getCore s site) (.insn { wait := w, post := p, op := op }) = true) (heng : opEngine op = .issue)
    (hloop : loopCount (getCore s site) op = none)
    (hwrite : execAtIssue (timeNow s) (admitWait (getCore s site) w) op = setA (admitWait (getCore s site) w) ad.toNat v) :
    let c := getCore s site
    ∃ c', exec ins s = .next (atCore site (fun _ => c') s) ∧ AtIssue c c' w p ∧ c'.stream = pastInsn c ∧
      getA c' ad.toNat = v ∧ ∀ r, r ≠ ad.toNat → getA c' r = getA c r := by
  have hread : getA (issueInsn (timeNow s) (getCore s site) { wait := w, post := p, op := op }) =
      getA (setA (admitWait (getCore s site) w) ad.toNat v) := by
    funext r
    rw [getA, issueInsn_aregs _ _ heng, hwrite, getA]
  refine exists_issued hsite hexec h hsel ⟨atIssue_issueInsn _ _ heng, issueInsn_stream_past _ _ heng hloop ?_, ?_, fun r hr => ?_⟩
  · rw [hwrite, setA_stream, admitWait_stream]
  · rw [hread, getA_setA_same]
  · rw [hread, getA_setA_other _ _ hr, getA_admitWait]

/-! ### What each instruction writes -/

section
variable (now : Nat) (c : Core) (ad : BitVec 5)

theorem execAtIssue_set (imm : BitVec 32) : execAtIssue now c (.set ad imm) = setAVal c ad.toNat (imm.setWidth 48) := rfl

theorem execAtIssue_sethi (imm : BitVec 16) :
    execAtIssue now c (.sethi ad imm) = setAVal c ad.toNat (imm ++ (getA c ad.toNat).value.extractLsb' 0 32) := rfl

theorem execAtIssue_sets0 (imm : BitVec 32) :
    execAtIssue now c (.sets ad 0#1 imm) = setA c ad.toNat { getA c ad.toNat with stride0 := imm } := rfl

theorem execAtIssue_sets1 (imm : BitVec 32) :
    execAtIssue now c (.sets ad 1#1 imm) = setA c ad.toNat { getA c ad.toNat with stride1 := imm } := rfl

theorem execAtIssue_time : execAtIssue now c (.time ad) = setAVal c ad.toNat (BitVec.ofNat 48 now) := rfl

theorem execAtIssue_addr (f : AddrFn) (a : BitVec 5) (src : AddrSrc) :
    execAtIssue now c (.addr f ad a src) = setAVal c ad.toNat (addrResult f (getA c a.toNat).value (addrOperand c src)) := rfl

end

theorem execAtIssue_mark (now : Nat) (c : Core) (tag : BitVec 16) :
    execAtIssue now c (.mark tag) = { c with stream := { c.stream with markTag := tag, markIcount := c.stream.icount } } := rfl

/-- A 16-bit high half over 32 low bits, as a number (R212). -/
theorem append_low_eq_ofNat (imm : BitVec 16) (v : W48) :
    imm ++ v.extractLsb' 0 32 = BitVec.ofNat 48 (imm.toNat * 2 ^ 32 + v.toNat % 2 ^ 32) := by
  refine BitVec.eq_of_toNat_eq ?_
  have himm := imm.isLt
  rw [BitVec.toNat_append, BitVec.extractLsb'_toNat, Nat.shiftRight_zero, BitVec.toNat_ofNat,
    ← Nat.shiftLeft_add_eq_or_of_lt (Nat.mod_lt _ (by decide)), Nat.shiftLeft_eq]
  omega

/-! ### The address functions -/

section
variable (x y : W48)

theorem toNat_addrResult_sub : (addrResult .sub x y).toNat = (x.toNat + (2 ^ 48 - y.toNat)) % 2 ^ 48 := by
  rw [addrResult, BitVec.toNat_sub, Nat.add_comm]

/-- A shift by 48 or more leaves nothing (R211). -/
theorem toNat_addrResult_shl : (addrResult .shl x y).toNat = x.toNat * 2 ^ (y.toNat % 64) % 2 ^ 48 := by
  unfold addrResult
  by_cases hn : y.toNat % 64 < 48
  · simp only [hn, if_true, BitVec.toNat_shiftLeft, Nat.shiftLeft_eq]
  · have hpow : 2 ^ 48 ∣ x.toNat * 2 ^ (y.toNat % 64) := Dvd.dvd.mul_left (Nat.pow_dvd_pow 2 (Nat.le_of_not_lt hn)) _
    simp only [hn, if_false, Nat.mod_eq_zero_of_dvd hpow, BitVec.toNat_zero]

theorem toNat_addrResult_shr : (addrResult .shr x y).toNat = x.toNat / 2 ^ (y.toNat % 64) := by
  unfold addrResult
  by_cases hn : y.toNat % 64 < 48
  · simp only [hn, if_true, BitVec.toNat_ushiftRight, Nat.shiftRight_eq_div_pow]
  · have hpow : x.toNat < 2 ^ (y.toNat % 64) := Nat.lt_of_lt_of_le x.isLt (Nat.pow_le_pow_right (by decide) (Nat.le_of_not_lt hn))
    simp only [hn, if_false, Nat.div_eq_of_lt hpow, BitVec.toNat_zero]

end

theorem addrOperand_admitWait (c : Core) (w : BitVec 8) (src : AddrSrc) : addrOperand (admitWait c w) src = addrOperand c src := by
  cases src with
  | reg t => rw [addrOperand, getA_admitWait, addrOperand]
  | imm v => rfl

theorem exec_addrCmd (f : AddrFn) (site : Nat) (s : State) : exec (addrCmd f site) s = issueOp (addrFnByte f) site s := by
  cases f <;> rfl

/-- Settles O5: AD takes the function's result, whose number is that of R211 function by function. -/
theorem addressFunctions : Obligations.AddressFunctions := by
  unfold Obligations.AddressFunctions
  intro site s f ad a src w p hsite h c x y
  have hy : (addrOperand c src).toNat = y := by cases src <;> rfl
  obtain ⟨c', hnext, hissue, hstream, hsame, hother⟩ := exists_aregIssued
    (v := { getA c ad.toNat with value := addrResult f (getA c a.toNat).value (addrOperand c src) }) hsite (exec_addrCmd f site s) h
    (decide_eq_true rfl) rfl rfl (by rw [execAtIssue_addr, setAVal, getA_admitWait, addrOperand_admitWait])
  refine ⟨c', hnext, hissue, hstream, ?_, by rw [hsame], by rw [hsame], hother⟩
  rw [hsame, ← hy]
  cases f
  case add => exact BitVec.toNat_add _ _
  case sub => exact toNat_addrResult_sub _ _
  case and => exact BitVec.toNat_and _ _
  case or => exact BitVec.toNat_or _ _
  case shl => exact toNat_addrResult_shl _ _
  case shr => exact toNat_addrResult_shr _ _

/-! ### NOTICE -/

theorem getCluster_modCluster_same (k : Nat) (f : ClusterPwr → ClusterPwr) (s : State) :
    getCluster (modCluster k f s) k = f (getCluster s k) := smGet_smMod_same ..

theorem getCluster_modCluster_other {k j : Nat} (f : ClusterPwr → ClusterPwr) (s : State) (h : j ≠ k) :
    getCluster (modCluster k f s) j = getCluster s j := smGet_smMod_other _ _ _ h

section
variable (x : ClusterPwr) (t rc : Nat) {level d : Nat}

theorem takeNotice_low (h : level ≤ x.level) : takeNotice x t rc level d = x := if_neg (Nat.not_lt.mpr h)

/-- A level above the cluster's adds its boost at the end of the notices (R411). -/
theorem takeNotice_high (h : x.level < level) :
    let n : BoostNote := { boost := (24 * (level - x.level) + 62) / 63, start := t + (d - 48), stop := t + d + 2048 }
    takeNotice x t rc level d = { x with notes := (takeNotice x t rc level d).notes } ∧
      (takeNotice x t rc level d).notes.getLast? = some n := by
  simp only [takeNotice, gt_iff_lt, h, if_true, List.getLast?_concat, and_self]

end

/-- The NOTICE that issues reaches the regulator of its core's cluster with a delay of at least 64 (R208). -/
theorem takeNoticeOf_notice {sel : NextInsn → Bool} {site : Nat} {s : State} {w p : BitVec 8} {level : BitVec 6} {delay : BitVec 16}
    (h : Issues (getCore s site) { wait := w, post := p, op := .notice level delay })
    (hsel : sel (.insn { wait := w, post := p, op := .notice level delay }) = true) :
    takeNoticeOf sel site s = modCluster (siteCluster site)
      (fun x => takeNotice x (fieldCc s.mesh (siteField site)) (fieldRc s (siteField site)) level.toNat (max 64 delay.toNat)) s := by
  obtain ⟨hnext, hready⟩ := h
  simp only [takeNoticeOf, noticeOf, hnext, hsel, hready, Bool.and_self, if_true]

/-- An operation that issues is one update of its core. -/
theorem issueOp_next {site : Nat} {s : State} {i : CoreInsn} (hsite : siteOk site = true) (h : Issues (getCore s site) i) :
    issueOp (opByte i.op) site s = .next (atCore site (fun _ => issueInsn (timeNow s) (getCore s site) i) s) := by
  have hsel : selOp (opByte i.op) (.insn i) = true := decide_eq_true rfl
  rw [issueOp, issueOn, onCore_next _ _ _ hsite]
  simp only [atCore, issueIf, h.1, hsel, h.2, if_true]

/-! ### The statement -/

/-- Settles O6: each instruction writes at most one address register or the mark; a NOTICE also changes its cluster's notices. -/
theorem setTimeMarkNopNotice : Obligations.SetTimeMarkNopNotice := by
  unfold Obligations.SetTimeMarkNopNotice
  refine ⟨fun site s w p hsite => ?_, fun site s w p hsite => ?_⟩
  · intro c writes
    have hwrites {ins : Instr} {b : BitVec 8} {op : CoreOp} {ad : BitVec 5} {v : AReg} (hexec : exec ins s = issueOp b site s)
        (h : Issues c { wait := w, post := p, op := op }) (hbyte : opByte op = b) (heng : opEngine op = .issue)
        (hloop : loopCount c op = none) (hwrite : execAtIssue (timeNow s) (admitWait c w) op = setA (admitWait c w) ad.toNat v) :
        writes ins ad v :=
      exists_aregIssued hsite hexec h (decide_eq_true hbyte) heng hloop hwrite
    refine ⟨fun ad imm h => hwrites rfl h rfl rfl rfl ?_, fun ad imm h => hwrites rfl h rfl rfl rfl ?_,
      fun ad imm h => hwrites rfl h rfl rfl rfl ?_, fun ad imm h => hwrites rfl h rfl rfl rfl ?_,
      fun ad h => hwrites rfl h rfl rfl rfl ?_, fun tag h => ?_⟩
    · rw [execAtIssue_set, setAVal, getA_admitWait, BitVec.ofNat_toNat]
    · rw [execAtIssue_sethi, setAVal, getA_admitWait, append_low_eq_ofNat]
    · rw [execAtIssue_sets0, getA_admitWait]
    · rw [execAtIssue_sets1, getA_admitWait]
    · rw [execAtIssue_time, setAVal, getA_admitWait]
    · refine exists_controlIssued (ins := .mark site) (sel := fun _ => selOp 0x0C#8) hsite rfl h rfl rfl (fun _ => rfl) ?_
      rw [issueInsn_stream _ _ (i := { wait := w, post := p, op := .mark tag }) rfl, issueNext_of_no_loop _ rfl, execAtIssue_mark,
        admitWait_stream]
      rfl
  · intro c k
    refine ⟨fun h => ?_, fun level delay h => ?_⟩
    · exact exists_controlIssued (ins := .nop site) (sel := fun _ => selOp 0x00#8) hsite rfl h rfl rfl (fun _ => rfl)
        (issueInsn_stream_past _ _ rfl rfl (admitWait_stream _ _))
    · intro l d now
      let s' := modCluster k (fun x => takeNotice x now (fieldRc s (siteField site)) level.toNat d) s
      have hexec : exec (.notice site) s = issueOp 0x0A#8 site s' := congrArg (issueOp 0x0A#8 site) (takeNoticeOf_notice h rfl)
      have hsame : getCluster s' k = takeNotice (getCluster s k) now (fieldRc s (siteField site)) level.toNat d :=
        getCluster_modCluster_same ..
      have hnext := issueOp_next (s := s') (i := { wait := w, post := p, op := .notice level delay }) hsite h
      refine ⟨issueInsn (timeNow s) c _, s', hexec.trans hnext, atIssue_issueInsn (timeNow s) c rfl, ?_,
        issueInsn_stream_past (timeNow s) c rfl rfl (admitWait_stream c w), rfl,
        fun j hj => getCluster_modCluster_other _ s hj, fun hlow => ?_, fun hhigh => ?_⟩
      · exact (issueInsn_aregs (timeNow s) c rfl).trans (admitWait_aregs c w)
      · rw [hsame, takeNotice_low _ _ _ hlow]
      · rw [hsame]
        exact takeNotice_high _ _ _ hhigh

end Sys2Proof.Machine
end

section
/-!
PROOFS. The vector engine (O12 to O14): writes that meet no MDRAIN write, and what the units do when an instruction enters one.
-/

namespace Sys2Proof.Machine

/-! ### Results that land -/

theorem getV_congr (c : Core) {n r : Nat} (h : n % 64 = r % 64) : getV c n = getV c r := by
  rw [getV, h, getV]

theorem getV_setV_congr (c : Core) (v : Row) {n r : Nat} (h : n % 64 = r % 64) : getV (setV c r v) n = v := by
  rw [getV_congr _ h, getV_setV_same]

/-- The row of a register that had `row`, after the results for it have landed in their order. -/
def landedRow (res : List VecResult) (r : Nat) (row : Row) : Row :=
  (res.filter fun x => decide (x.reg = r % 64)).foldl (fun row x => x.val.onto row) row

theorem VectorIdle.drainsLanded {c : Core} (h : VectorIdle c) : DrainsLanded c := by
  obtain ⟨-, -, -, -, hdrains⟩ := h
  exact hdrains

section
variable {c : Core} (h : DrainsLanded c)
include h

theorem DrainsLanded.any_eq_false {q : RegWrite → Bool} (hq : ∀ w, q w = true → c.cc ≤ w.cyc) : c.vec.drains.any q = false :=
  List.any_eq_false.mpr fun w hw hqw => Nat.not_lt.mpr (hq w hqw) (h w hw)

/-- No MDRAIN write stands between a read and the register (R221). -/
theorem DrainsLanded.readReg_eq {t : Nat} (ht : c.cc ≤ t) (r : Nat) : readReg c t r = getV c r := by
  have hnone : (c.vec.drains.find? fun w => decide (w.reg = r % 64) && decide (t ≤ w.cyc)) = none := by
    refine List.find?_eq_none.mpr fun w hw hq => ?_
    have hlanded := h w hw
    simp only [Bool.and_eq_true, decide_eq_true_eq] at hq
    omega
  rw [readReg, hnone]

/-- A write that no MDRAIN write meets changes its register (R221). -/
theorem DrainsLanded.vecLands_eq {t : Nat} (ht : c.cc ≤ t) (r : Nat) (f : Row → Row) :
    vecLands c t r f =
      setV { c with vec := { c.vec with lands := freshWrites c.cc c.vec.lands ++ [{ cyc := t, reg := r % 64, old := getV c r }] } } r
        (f (getV c r)) := by
  have hmeets : (c.vec.drains.any fun w => decide (w.reg = r % 64) && decide (w.cyc = t)) = false :=
    h.any_eq_false fun w hw => by simp at hw; omega
  have hlater : (c.vec.drains.any fun w => decide (w.reg = r % 64) && decide (t < w.cyc)) = false :=
    h.any_eq_false fun w hw => by simp at hw; omega
  simp [vecLands, hmeets, hlater]

theorem DrainsLanded.landResults_cons (x : VecResult) (res : List VecResult) :
    let c' := vecLands c (c.cc + x.cyc) x.reg x.val.onto
    landResults c (x :: res) = landResults c' res ∧ DrainsLanded c' ∧
      c' = { c with vec := { c.vec with regs := c'.vec.regs, lands := c'.vec.lands } } := by
  have heq := h.vecLands_eq (Nat.le_add_right c.cc x.cyc) x.reg x.val.onto
  refine ⟨rfl, ?_, ?_⟩ <;> rw [heq]
  · exact h
  · rfl

/-- Results land in registers, and change nothing else. -/
theorem DrainsLanded.landResults_frame (res : List VecResult) :
    landResults c res =
      { c with vec := { c.vec with regs := (landResults c res).vec.regs, lands := (landResults c res).vec.lands } } := by
  induction res generalizing c with
  | nil => rfl
  | cons x res ih =>
    obtain ⟨hcons, hlanded, hframe⟩ := h.landResults_cons x res
    rw [hcons, ih hlanded, hframe]

theorem DrainsLanded.getV_landResults {res : List VecResult} (hreg : ∀ x ∈ res, x.reg < 64) (n : Nat) :
    getV (landResults c res) n = landedRow res n (getV c n) := by
  induction res generalizing c with
  | nil => rfl
  | cons x res ih =>
    obtain ⟨hx, hres⟩ := List.forall_mem_cons.mp hreg
    obtain ⟨hcons, hlanded, -⟩ := h.landResults_cons x res
    rw [hcons, ih hlanded hres, h.vecLands_eq (Nat.le_add_right c.cc x.cyc)]
    by_cases hn : x.reg = n % 64
    · have hsame : n % 64 = x.reg % 64 := by omega
      have hfilter : (x :: res).filter (fun y => decide (y.reg = n % 64)) = x :: res.filter fun y => decide (y.reg = n % 64) :=
        List.filter_cons_of_pos (decide_eq_true hn)
      rw [getV_setV_congr _ _ hsame, landedRow, landedRow, hfilter, List.foldl_cons, getV_congr c hsame]
    · rw [getV_setV_other _ _ (by omega), landedRow, landedRow, List.filter_cons_of_neg (by simpa using hn)]
      rfl

/-- What an instruction with those results sees of a register: the ones that landed in earlier cycles, over the register (R223). -/
theorem DrainsLanded.seenReg_eq (res : List VecResult) (t r : Nat) :
    seenReg c res t r = landedRow (res.filter fun x => decide (x.cyc < t)) r (getV c r) := by
  rw [seenReg, h.readReg_eq (Nat.le_add_right c.cc t), landedRow, List.filter_filter]

end

/-! ### The units -/

theorem landLoads_nothing {c : Core} (h : c.vec.landing = []) : landLoads c.vec.landing c = c := by
  have hnil : landLoads [] c = { c with vec := { c.vec with landing := [] } } := rfl
  rw [h, hnil, ← h]

theorem checkLoad_none {c : Core} (h : c.vec.load = none) : checkLoad c = c := by
  unfold checkLoad
  rw [h]

theorem checkStore_none {c : Core} (h : c.vec.store = none) : checkStore c = c := by
  unfold checkStore
  rw [h]

theorem tryAlu_none {c : Core} (h : c.vec.alu = none) : tryAlu c = c := by
  unfold tryAlu
  rw [h]

/-- A load whose next access lies in the slab, its banks on, waits for its grant (R232, R234). -/
theorem checkLoad_waits {c : Core} {j : VecJob} (h : c.vec.load = some j)
    (hok : accFault c (memAccess j.st.entry.insn.op j.st.entry.ra j.k) = none) : checkLoad c = c := by
  unfold checkLoad
  simp only [h, hok]

theorem checkStore_waits {c : Core} {j : VecJob} (h : c.vec.store = some j)
    (hok : accFault c (memAccess j.st.entry.insn.op j.st.entry.ra j.k) = none) : checkStore c = c := by
  unfold checkStore
  simp only [h, hok, ite_self]

/-- Whether an access faults depends on the core's banks alone. -/
theorem accFault_congr {c d : Core} (h : c.slab.off = d.slab.off) (a : MemAcc) : accFault c a = accFault d a := by
  unfold accFault banksOff
  rw [h]

/-- No instruction holds a register against itself (R218). -/
theorem vecBlocked_alone {c : Core} {st : Started} (halu : c.vec.alu = some st) (hload : c.vec.load = none)
    (hstore : c.vec.store = none) (hlanding : c.vec.landing = []) (reads writes : List Nat) :
    vecBlocked c st.entry.icount reads writes = false := by
  simp [vecBlocked, halu, hload, hstore, hlanding]

/-- A register that an earlier load has still to bring holds an instruction back (R218). -/
theorem vecBlocked_of_load {c : Core} {j : VecJob} {i : Nat} {reads writes : List Nat} (hload : c.vec.load = some j)
    (hearlier : j.st.entry.icount < i) (hmeet : meet (jobRegs j) (reads ++ writes) = true) : vecBlocked c i reads writes = true := by
  simp [vecBlocked, hload, hearlier, hmeet]

/-- With no register held an instruction runs out of its unit (R217, R218). -/
theorem tryAlu_runs {c : Core} {st : Started} (halu : c.vec.alu = none) (hload : c.vec.load = none) (hstore : c.vec.store = none)
    (hlanding : c.vec.landing = []) : tryAlu { c with vec := { c.vec with alu := some st } } = runAlu st c := by
  have hblocked := vecBlocked_alone (c := { c with vec := { c.vec with alu := some st } }) rfl hload hstore hlanding
    (aluReads st.entry.insn.op) (aluWrites st.entry.insn.op)
  have hleaves : { c with vec := { c.vec with alu := none } } = c := by rw [← halu]
  simp only [tryAlu, hblocked]
  exact congrArg (runAlu st) hleaves

theorem tryAlu_waits {c : Core} {st : Started} (halu : c.vec.alu = some st)
    (hblocked : vecBlocked c st.entry.icount (aluReads st.entry.insn.op) (aluWrites st.entry.insn.op) = true) : tryAlu c = c := by
  unfold tryAlu
  simp only [halu, hblocked, if_true]

/-- With no load to land the engine's waiting instruction is all that can go on, before the checks of the requests. -/
theorem pumpVector_eq {c d : Core} (htry : tryAlu c = d) (hc : c.vec.landing = []) (hd : d.vec.landing = []) :
    pumpVector c = checkStore (checkLoad d) := by
  unfold pumpVector
  simp only [landLoads_nothing hc, htry, landLoads_nothing hd]

theorem pumpVector_waits {c : Core} (htry : tryAlu c = c) (hlanding : c.vec.landing = []) (hload : checkLoad c = c)
    (hstore : checkStore c = c) : pumpVector c = c := by
  rw [pumpVector_eq htry hlanding hlanding, hload, hstore]

/-! ### An instruction that enters its unit -/

section
variable {c c1 : Core} {st : Started} (h : HeadStarts c .vector st c1)
include h

theorem HeadStarts.slab_eq : c1.slab = c.slab := h.keeps Core.slab (by simp)

theorem HeadStarts.mon_eq : c1.mon = c.mon := h.keeps Core.mon (by simp)

theorem HeadStarts.out_eq : c1.out = c.out := h.keeps Core.out (by simp)

theorem HeadStarts.activity_eq : c1.activity = c.activity := h.keeps Core.activity (by simp)

theorem HeadStarts.drainsLanded (hdrains : DrainsLanded c) : DrainsLanded c1 := by
  unfold DrainsLanded
  rw [h.vec_eq, h.cc_eq]
  exact hdrains

theorem startVector_eq : startVector (opByte st.entry.insn.op) c = pumpVector (enterUnit st c1) := by
  simp [startVector, h.takeHead_eq (ok := fun op => decide (opByte op = opByte st.entry.insn.op)) (decide_eq_true rfl)]

end

theorem enterUnit_alu {st : Started} (c : Core) (hload : isLoad st.entry.insn.op = false) (hstore : isStore st.entry.insn.op = false) :
    enterUnit st c = { c with vec := { c.vec with alu := some st } } := by
  simp [enterUnit, hload, hstore]

theorem enterUnit_load {st : Started} (c : Core) (hload : isLoad st.entry.insn.op = true) :
    enterUnit st c = { c with vec := { c.vec with load := some { st := st, k := 0 } } } := by
  simp [enterUnit, hload]

theorem isLoad_eq_false_of_isStore {op : CoreOp} (h : isStore op = true) : isLoad op = false := by
  cases op
  case vmem f _ _ _ _ _ _ _ _ => cases f <;> simp [isLoad, isStore] at h ⊢
  all_goals rfl

theorem enterUnit_store {st : Started} (c : Core) (hstore : isStore st.entry.insn.op = true) :
    enterUnit st c = { c with vec := { c.vec with store := some { st := st, k := 0 } } } := by
  simp [enterUnit, isLoad_eq_false_of_isStore hstore, hstore]

/-! ### Class 010 instructions -/

/-- The results, the monitors and the fault of an instruction that runs on a core. -/
def aluRun (st : Started) (c : Core) : List VecResult × FmtMon × Option FaultCode :=
  runRepeats c st.entry.insn.op st.entry.icount (vecCount st.entry.insn.op) 0 [] c.mon

/-- The core after an instruction's results have landed and its repeats are counted. -/
def aluDone (st : Started) (c : Core) : Core :=
  countVec (landResults { c with mon := (aluRun st c).2.1 } (aluRun st c).1) (vecCount st.entry.insn.op)

section
variable {st : Started} {c : Core}

theorem runAlu_completes (h : (aluRun st c).2.2 = none) :
    runAlu st c = { aluDone st c with started := (aluDone st c).started ++ [st] } := by
  unfold aluRun at h
  simp only [runAlu, h]
  rfl

theorem runAlu_faults {f : FaultCode} (h : (aluRun st c).2.2 = some f) : runAlu st c = entryFault (aluDone st c) f st.entry := by
  unfold aluRun at h
  simp only [runAlu, h]
  rfl

theorem aluDone_frame (h : DrainsLanded c) :
    aluDone st c = { c with
      vec := { c.vec with regs := (aluDone st c).vec.regs, lands := (aluDone st c).vec.lands }, mon := (aluRun st c).2.1
      activity := { c.activity with vec := c.activity.vec + vecCount st.entry.insn.op } } := by
  have hlanded : DrainsLanded { c with mon := (aluRun st c).2.1 } := h
  unfold aluDone
  rw [hlanded.landResults_frame]
  rfl

theorem entryFault_frame (c : Core) (code : FaultCode) (q : QEntry) :
    entryFault c code q = { c with stream := (entryFault c code q).stream, out := (entryFault c code q).out } := by
  unfold entryFault coreFault
  split
  · split <;> rfl
  · rfl

/-- A run reaches registers, the monitors and the count of repeats; it ends as a start or as a fault (R199, R223, R232). -/
theorem runAlu_frame (h : DrainsLanded c) :
    runAlu st c = { c with
      vec := { c.vec with regs := (runAlu st c).vec.regs, lands := (runAlu st c).vec.lands }, mon := (runAlu st c).mon
      started := (runAlu st c).started, activity := { c.activity with vec := c.activity.vec + vecCount st.entry.insn.op }
      stream := (runAlu st c).stream, out := (runAlu st c).out } ∧
    (((runAlu st c).started = c.started ++ [st] ∧ (runAlu st c).stream = c.stream ∧ (runAlu st c).out = c.out) ∨
      ((runAlu st c).started = c.started ∧ (runAlu st c).stream.state = .faulted)) := by
  cases hrun : (aluRun st c).2.2 with
  | none =>
    rw [runAlu_completes hrun, aluDone_frame h]
    exact ⟨rfl, .inl ⟨rfl, rfl, rfl⟩⟩
  | some f =>
    rw [runAlu_faults hrun]
    refine ⟨?_, .inr ⟨?_, ?_⟩⟩
    · rw [entryFault_frame, aluDone_frame h]
    · rw [entryFault_started, aluDone_frame h]
    · exact coreFault_state ..

end

section
variable {c c1 : Core} {st : Started} (h : HeadStarts c .vector st c1)
  (hload : isLoad st.entry.insn.op = false) (hstore : isStore st.entry.insn.op = false)
include h hload hstore

/-- With nothing else under way an instruction runs as it starts (R217, R218). -/
theorem startVector_alu (hidle : VectorIdle c) : startVector (opByte st.entry.insn.op) c = runAlu st c1 := by
  obtain ⟨halu, hloads, hstores, hlanding, hdrains⟩ := hidle
  rw [← h.vec_eq] at halu hloads hstores hlanding
  have hvec : (runAlu st c1).vec = { c1.vec with regs := (runAlu st c1).vec.regs, lands := (runAlu st c1).vec.lands } :=
    congrArg Core.vec (runAlu_frame (h.drainsLanded hdrains)).1
  rw [startVector_eq h, enterUnit_alu _ hload hstore]
  rw [pumpVector_eq (tryAlu_runs halu hloads hstores hlanding) hlanding (by rw [hvec]; exact hlanding),
    checkLoad_none (by rw [hvec]; exact hloads), checkStore_none (by rw [hvec]; exact hstores)]

/-- An instruction that an earlier load's register holds back waits in its unit (R218, R219). -/
theorem startVector_aluWaits {j : VecJob} (hjob : c.vec.load = some j) (hnone : c.vec.store = none) (hlanding : c.vec.landing = [])
    (hearlier : j.st.entry.icount < st.entry.icount)
    (hmeet : meet (jobRegs j) (aluReads st.entry.insn.op ++ aluWrites st.entry.insn.op) = true)
    (hok : accFault c (memAccess j.st.entry.insn.op j.st.entry.ra j.k) = none) :
    startVector (opByte st.entry.insn.op) c = { c1 with vec := { c.vec with alu := some st } } := by
  rw [← h.vec_eq] at hjob hnone hlanding
  rw [accFault_congr (congrArg Slab.off h.slab_eq).symm] at hok
  rw [startVector_eq h, enterUnit_alu _ hload hstore, ← h.vec_eq]
  have hwaits := tryAlu_waits (c := { c1 with vec := { c1.vec with alu := some st } }) rfl (vecBlocked_of_load hjob hearlier hmeet)
  exact pumpVector_waits hwaits hlanding (checkLoad_waits hjob hok) (checkStore_none hnone)

end

/-! ### Loads and stores -/

section
variable {c c1 : Core} {st : Started} (h : HeadStarts c .vector st c1) (hidle : VectorIdle c)
  (hok : accFault c (memAccess st.entry.insn.op st.entry.ra 0) = none)
include h hidle hok

/-- A load waits for its first grant (R233, R234). -/
theorem startVector_load (hload : isLoad st.entry.insn.op = true) :
    startVector (opByte st.entry.insn.op) c = { c1 with vec := { c.vec with load := some { st := st, k := 0 } } } := by
  obtain ⟨halu, -, hstores, hlanding, -⟩ := hidle
  rw [← h.vec_eq] at halu hstores hlanding
  rw [accFault_congr (congrArg Slab.off h.slab_eq).symm] at hok
  rw [startVector_eq h, enterUnit_load _ hload, ← h.vec_eq]
  exact pumpVector_waits (tryAlu_none halu) hlanding (checkLoad_waits rfl hok) (checkStore_none hstores)

/-- A store waits for its first grant (R219, R233, R234). -/
theorem startVector_store (hstore : isStore st.entry.insn.op = true) :
    startVector (opByte st.entry.insn.op) c = { c1 with vec := { c.vec with store := some { st := st, k := 0 } } } := by
  obtain ⟨halu, hloads, -, hlanding, -⟩ := hidle
  rw [← h.vec_eq] at halu hloads hlanding
  rw [accFault_congr (congrArg Slab.off h.slab_eq).symm] at hok
  rw [startVector_eq h, enterUnit_store _ hstore, ← h.vec_eq]
  exact pumpVector_waits (tryAlu_none halu) hlanding (checkLoad_none hloads) (checkStore_waits rfl hok)

end

/-! ### The statement -/

/-- Each vector command starts the instruction of its opcode byte. -/
theorem exec_vectorCmds : ∀ x ∈ vectorCmds, ∀ (site : Nat) (s : State), exec (x.2 site) s = onCore site (startVector x.1) s := by
  simp only [vectorCmds, List.forall_mem_cons, List.not_mem_nil, false_imp_iff, implies_true, and_true]
  and_intros <;> exact fun _ _ => rfl

/-- Settles O12: a class 010 instruction runs or is held back in its unit, and a load or store waits in its own. -/
theorem vectorInstructionsStart : Obligations.VectorInstructionsStart := by
  unfold Obligations.VectorInstructionsStart
  intro b cmd site s st c1 hcmd hsite h hbyte c op next
  subst hbyte
  have hexec := exec_vectorCmds _ hcmd site s
  have hnext {P : Core → Prop} (hP : P (startVector (opByte op) c)) : next P := coreNext_of_onCore hsite hexec hP
  refine ⟨fun hidle hload hstore => hnext ?_, fun j hload hstore hjob _ hnone hlanding hearlier hmeet hok => hnext ?_,
    fun hidle hok => ⟨fun hload => hnext ?_, fun hstore => hnext ?_⟩⟩
  · rw [startVector_alu h hload hstore hidle, ← h.vec_eq, ← h.started_eq, ← h.stream_eq, ← h.out_eq, ← h.activity_eq]
    exact runAlu_frame (h.drainsLanded hidle.drainsLanded)
  · exact startVector_aluWaits h hload hstore hjob hnone hlanding hearlier hmeet hok
  · exact startVector_load h hidle hok hload
  · exact startVector_store h hidle hok hstore

end Sys2Proof.Machine
end

section
/-!
PROOFS. Class 010 instructions (O13, O14): what results leave in a register, a run repeat by repeat, and its end in the core.
-/

namespace Sys2Proof.Machine

/-! ### Values that land -/

theorem VecVal.onto_data (v : VecVal) (old : Row) : (v.onto old).data = v.row.data := by
  unfold VecVal.onto
  split <;> rfl

theorem rowWord_onto (v : VecVal) (old : Row) (lane : Nat) : rowWord (v.onto old) lane = rowWord v.row lane := by
  rw [rowWord, v.onto_data, rowWord]

/-- Clean data words over a row that has none crazed leave its side part and crazed bits (R230). -/
theorem cleanData_onto_eq (ws : List W32) {old : Row} (h : dataCrazed old = false) :
    ((cleanData ws).onto old).side = old.side ∧ ((cleanData ws).onto old).z = old.z := by
  refine ⟨rfl, ?_⟩
  have hz : old.z.extractLsb' 0 32 = 0#32 := by simpa [dataCrazed] using h
  have honto : ((cleanData ws).onto old).z = setField old.z 0 32 0 := rfl
  rw [honto]
  refine BitVec.eq_of_getLsbD_eq fun i _ => ?_
  by_cases hi : i < 32
  · have hbit := congrArg (fun x : BitVec 32 => x.getLsbD i) hz
    simp only [BitVec.getLsbD_extractLsb', BitVec.getLsbD_zero, hi, decide_true, Bool.true_and, Nat.zero_add] at hbit
    rw [getLsbD_setField_zero _ (Nat.zero_le i) (by omega), hbit]
  · exact getLsbD_setField_other _ (.inr (by omega))

/-- The last result for a register gives it its words. -/
theorem rowWord_landedRow (l : List VecResult) (r : Nat) (row : Row) (lane : Nat) :
    rowWord (landedRow l r row) lane =
      ((l.filter fun x => decide (x.reg = r % 64)).getLast?).elim (rowWord row lane) fun x => rowWord x.val.row lane := by
  unfold landedRow
  generalize (l.filter fun x => decide (x.reg = r % 64)) = l'
  rcases List.eq_nil_or_concat l' with rfl | ⟨l', x, rfl⟩
  · rfl
  · simp only [List.concat_eq_append, List.foldl_append, List.foldl_cons, List.foldl_nil, List.getLast?_concat, rowWord_onto, Option.elim]

/-- The same of results that numbers name. -/
theorem rowWord_landedRow_map (g : Nat → VecResult) (js : List Nat) (r : Nat) (row : Row) (lane : Nat) :
    rowWord (landedRow (js.map g) r row) lane =
      ((js.filter fun j => decide ((g j).reg = r % 64)).getLast?).elim (rowWord row lane) fun j => rowWord (g j).val.row lane := by
  rw [rowWord_landedRow, List.filter_map, List.getLast?_map]
  exact Option.elim_map _

/-- A property that every result keeps holds of a register after they have landed. -/
theorem landedRow_of_onto {P : Row → Prop} {l : List VecResult} (hl : ∀ x ∈ l, ∀ old, P old → P (x.val.onto old)) (r : Nat) {row : Row}
    (h : P row) : P (landedRow l r row) := by
  unfold landedRow
  induction l generalizing row with
  | nil => exact h
  | cons x l ih =>
    obtain ⟨hx, hl⟩ := List.forall_mem_cons.mp hl
    by_cases hr : x.reg = r % 64
    · rw [List.filter_cons_of_pos (by simpa using hr)]
      exact ih hl (hx row h)
    · rw [List.filter_cons_of_neg (by simpa using hr)]
      exact ih hl h

/-! ### Runs -/

/-- The result of repeat k of an operation (R223). -/
def repeatResult (op : CoreOp) (k : Nat) (v : VecVal) : VecResult := { cyc := landCycle op k, reg := (vecDest op + k) % 64, val := v }

section
variable {c : Core} {op : CoreOp} {icount : Nat}

theorem runRepeats_reg_lt (n k : Nat) {res : List VecResult} (mon : FmtMon) (hres : ∀ x ∈ res, x.reg < 64) :
    ∀ x ∈ (runRepeats c op icount n k res mon).1, x.reg < 64 := by
  induction n generalizing k res mon with
  | zero => exact hres
  | succ n ih =>
    unfold runRepeats
    split
    · refine ih _ _ fun x hx => ?_
      rcases List.mem_append.mp hx with hx | hx
      · exact hres x hx
      · rw [List.mem_singleton.mp hx]
        exact Nat.mod_lt _ (by decide)
    · exact hres

/-- Where each repeat succeeds and keeps a property of its number, the results and the monitors, the whole run does (R223). -/
theorem runRepeats_keeps {P : Nat → List VecResult → FmtMon → Prop}
    (hstep : ∀ k res mon, P k res mon →
      ∃ v, vecRepeat op c.seed (coreVcid c.place) icount k (seenReg c res) mon = .ok v ∧ P (k + 1) (res ++ [repeatResult op k v.1]) v.2)
    (n : Nat) {k : Nat} {res : List VecResult} {mon : FmtMon} (h : P k res mon) :
    let r := runRepeats c op icount n k res mon
    r.2.2 = none ∧ P (k + n) r.1 r.2.1 := by
  induction n generalizing k res mon with
  | zero => exact ⟨rfl, h⟩
  | succ n ih =>
    obtain ⟨v, hv, hnext⟩ := hstep k res mon h
    have hrun : runRepeats c op icount (n + 1) k res mon =
        runRepeats c op icount n (k + 1) (res ++ [repeatResult op k v.1]) v.2 := by
      rw [runRepeats, hv]
      rfl
    have hrest := ih hnext
    rwa [Nat.add_right_comm, ← hrun] at hrest

end

/-! ### An R-form instruction -/

/-- The operand fields of an R-form vector instruction (Table 6.6). -/
structure VecFields where
  f : VecFn
  vd : BitVec 6
  va : BitVec 6
  vb : BitVec 6
  vc : BitVec 6
  rep : BitVec 8
  sa : BitVec 1
  sb : BitVec 1
  sc : BitVec 1
  sub : BitVec 5

/-- The operation with those fields. -/
def VecFields.op (i : VecFields) : CoreOp := .vec i.f i.vd i.va i.vb i.vc i.rep i.sa i.sb i.sc i.sub

/-- The sources of repeat k (R223). -/
def VecFields.srcA (i : VecFields) (k : Nat) : Nat := i.va.toNat + k * i.sa.toNat

def VecFields.srcB (i : VecFields) (k : Nat) : Nat := i.vb.toNat + k * i.sb.toNat

def VecFields.srcC (i : VecFields) (k : Nat) : Nat := i.vc.toNat + k * i.sc.toNat

theorem VecFields.srcA_zero (i : VecFields) : i.srcA 0 = i.va.toNat := by rw [VecFields.srcA, Nat.zero_mul, Nat.add_zero]

theorem VecFields.srcB_zero (i : VecFields) : i.srcB 0 = i.vb.toNat := by rw [VecFields.srcB, Nat.zero_mul, Nat.add_zero]

theorem VecFields.srcC_zero (i : VecFields) : i.srcC 0 = i.vc.toNat := by rw [VecFields.srcC, Nat.zero_mul, Nat.add_zero]

theorem exec_vecCmd (f : VecFn) (site : Nat) (s : State) : exec (vecCmd f site) s = onCore site (startVector (vecFnByte f)) s := by
  cases f <;> rfl

/-! ### One repeat, function by function -/

section
variable {i : VecFields} (seed : W64) (id icount k : Nat) {rd : Nat → Nat → Row} (mon : FmtMon)

theorem vecRepeat_vred (hf : i.f = .vred) :
    vecRepeat i.op seed id icount k rd mon = (redRepeat i.sub.toNat (rd k (i.srcA k))).map (·, mon) := by
  obtain ⟨f, vd, va, vb, vc, rep, sa, sb, sc, sub⟩ := i
  obtain rfl : f = .vred := hf
  rfl

theorem vecRepeat_vmov (hf : i.f = .vmov) :
    vecRepeat i.op seed id icount k rd mon = .ok ({ row := rd k (i.srcA k), full := true }, mon) := by
  obtain ⟨f, vd, va, vb, vc, rep, sa, sb, sc, sub⟩ := i
  obtain rfl : f = .vmov := hf
  rfl

theorem vecRepeat_vbcast (hf : i.f = .vbcast) :
    vecRepeat i.op seed id icount k rd mon = .ok (bcastRepeat i.sub.toNat (rd k (i.srcA k)), mon) := by
  obtain ⟨f, vd, va, vb, vc, rep, sa, sb, sc, sub⟩ := i
  obtain rfl : f = .vbcast := hf
  rfl

theorem vecRepeat_vperm (hf : i.f = .vperm) :
    vecRepeat i.op seed id icount k rd mon =
      (permRepeat (decide (i.sub = 1#5)) (rd k (i.srcA k)) (rd k (i.srcB k)) (rd k (i.srcC k)) (rd k (i.vc.toNat + 1))).map (·, mon) := by
  obtain ⟨f, vd, va, vb, vc, rep, sa, sb, sc, sub⟩ := i
  obtain rfl : f = .vperm := hf
  rfl

theorem vecRepeat_vquant (hf : i.f = .vquant) {t : EType} (ht : etypeOfCode (i.sub.toNat % 16) = some t) :
    vecRepeat i.op seed id icount k rd mon = quantRepeat t (decide (i.sub.toNat ≥ 16)) seed id icount k
      ((List.range (blocksPerRow t)).map fun j =>
        rd (blocksPerRow t * k + j) (i.va.toNat + k * blocksPerRow t * i.sa.toNat + j)) mon := by
  obtain ⟨f, vd, va, vb, vc, rep, sa, sb, sc, sub⟩ := i
  obtain rfl : f = .vquant := hf
  simp only at ht
  simp only [vecRepeat, VecFields.op, ht]

theorem vecRepeat_vdeq (hf : i.f = .vdeq) {t : EType} (ht : etypeOfCode i.sub.toNat = some t) :
    vecRepeat i.op seed id icount k rd mon =
      (deqRepeat t ((i.vb.toNat + k) % blocksPerRow t) (rd k (i.va.toNat + (i.vb.toNat + k) / blocksPerRow t))).map (·, mon) := by
  obtain ⟨f, vd, va, vb, vc, rep, sa, sb, sc, sub⟩ := i
  obtain rfl : f = .vdeq := hf
  simp only at ht
  simp only [vecRepeat, VecFields.op, ht]

/-- A conversion whose SUB names no type gives zeros (it does not decode, R203). -/
theorem vecRepeat_noType (h : (i.f = .vquant ∧ etypeOfCode (i.sub.toNat % 16) = none) ∨
      (i.f = .vdeq ∧ etypeOfCode i.sub.toNat = none)) :
    vecRepeat i.op seed id icount k rd mon = .ok (cleanData [], mon) := by
  obtain ⟨f, vd, va, vb, vc, rep, sa, sb, sc, sub⟩ := i
  rcases h with ⟨hf, ht⟩ | ⟨hf, ht⟩
  · obtain rfl : f = .vquant := hf
    simp only at ht
    simp only [vecRepeat, VecFields.op, ht]
  · obtain rfl : f = .vdeq := hf
    simp only at ht
    simp only [vecRepeat, VecFields.op, ht]

end

/-! ### A class 010 instruction of the queue's head -/

theorem DrainsLanded.seenReg_nil {c : Core} (h : DrainsLanded c) : seenReg c [] = fun _ => getV c := by
  funext t r
  rw [h.seenReg_eq]
  rfl

section
variable {st : Started} {c : Core} (h : DrainsLanded c)
include h

/-- A fault of the first repeat ends the run with nothing to land (R223, R232). -/
theorem aluRun_faults {f : FaultCode} {n : Nat} (hcount : vecCount st.entry.insn.op = n + 1)
    (hfaults : vecRepeat st.entry.insn.op c.seed (coreVcid c.place) st.entry.icount 0 (fun _ => getV c) c.mon = .error f) :
    aluRun st c = ([], c.mon, some f) := by
  rw [← h.seenReg_nil] at hfaults
  rw [aluRun, hcount, runRepeats, hfaults]

/-- An instruction of one repeat has the result of that repeat (R223). -/
theorem aluRun_single {v : VecVal × FmtMon} (hcount : vecCount st.entry.insn.op = 1)
    (hv : vecRepeat st.entry.insn.op c.seed (coreVcid c.place) st.entry.icount 0 (fun _ => getV c) c.mon = .ok v) :
    aluRun st c = ([repeatResult st.entry.insn.op 0 v.1], v.2, none) := by
  rw [← h.seenReg_nil] at hv
  rw [aluRun, hcount, runRepeats, hv]
  rfl

end

section
variable {site : Nat} {s : State} {ins : Instr} {st : Started} {c1 : Core} (hsite : siteOk site = true)
  (h : HeadStarts (getCore s site) .vector st c1) (hexec : exec ins s = onCore site (startVector (opByte st.entry.insn.op)) s)
  (hload : isLoad st.entry.insn.op = false) (hstore : isStore st.entry.insn.op = false) (hidle : VectorIdle (getCore s site))
include hsite h hexec hload hstore hidle

/-- An instruction whose repeats all succeed is started, its results in the registers (R223). -/
theorem exists_aluStarted (hrun : (aluRun st c1).2.2 = none) :
    let c := getCore s site
    ∃ c', exec ins s = .next (atCore site (fun _ => c') s) ∧
      c' = { c1 with
        vec := { c.vec with regs := c'.vec.regs, lands := c'.vec.lands }, mon := (aluRun st c1).2.1, started := c.started ++ [st]
        activity := { c.activity with vec := c.activity.vec + vecCount st.entry.insn.op } } ∧
      ∀ n, getV c' n = landedRow (aluRun st c1).1 n (getV c n) := by
  refine coreNext_of_onCore hsite hexec ?_
  have hdrains := h.drainsLanded hidle.drainsLanded
  rw [startVector_alu h hload hstore hidle, runAlu_completes hrun]
  refine ⟨?_, fun n => ?_⟩
  · rw [aluDone_frame hdrains, ← h.vec_eq, ← h.started_eq, ← h.activity_eq]
  · have hreg := runRepeats_reg_lt (c := c1) (op := st.entry.insn.op) (icount := st.entry.icount) (vecCount st.entry.insn.op) 0 c1.mon
      (res := []) (by simp)
    rw [← h.getV_eq]
    exact DrainsLanded.getV_landResults (c := { c1 with mon := (aluRun st c1).2.1 }) hdrains hreg n

/-- An instruction whose first repeat faults lands nothing (R223, R232). -/
theorem exists_aluFaults {f : FaultCode} {n : Nat} (hcount : vecCount st.entry.insn.op = n + 1)
    (heng : opEngine st.entry.insn.op = .vector) (hnone : (getCore s site).stream.fault = none)
    (hfaults : vecRepeat st.entry.insn.op c1.seed (coreVcid c1.place) st.entry.icount 0 (fun _ => getV (getCore s site)) c1.mon =
      .error f) :
    let c := getCore s site
    ∃ c', exec ins s = .next (atCore site (fun _ => c') s) ∧
      Faults { c1 with activity := { c.activity with vec := c.activity.vec + vecCount st.entry.insn.op } } c' f .vector
        st.entry.pc st.entry.icount := by
  have hsame : getV (getCore s site) = getV c1 := funext fun n => (h.getV_eq n).symm
  rw [hsame] at hfaults
  have hrun := aluRun_faults (h.drainsLanded hidle.drainsLanded) hcount hfaults
  refine coreFaults_of_onCore hsite h hexec ?_ rfl heng hnone
  rw [startVector_alu h hload hstore hidle, runAlu_faults (by rw [hrun]), aluDone, hrun, ← h.activity_eq]
  rfl

end

section
variable {site : Nat} {s : State} {st : Started} {c1 : Core} {i : VecFields} (hsite : siteOk site = true)
  (h : HeadStarts (getCore s site) .vector st c1) (hop : st.entry.insn.op = i.op) (hidle : VectorIdle (getCore s site))
include hsite h hop hidle

/-- An R-form instruction whose repeats all succeed is started, its results in the registers (R223). -/
theorem exists_vecStarted (hrun : (aluRun st c1).2.2 = none) :
    let c := getCore s site
    ∃ c', exec (vecCmd i.f site) s = .next (atCore site (fun _ => c') s) ∧
      c' = { c1 with
        vec := { c.vec with regs := c'.vec.regs, lands := c'.vec.lands }, mon := (aluRun st c1).2.1, started := c.started ++ [st]
        activity := { c.activity with vec := c.activity.vec + vecCount st.entry.insn.op } } ∧
      ∀ n, getV c' n = landedRow (aluRun st c1).1 n (getV c n) :=
  exists_aluStarted hsite h (by rw [hop]; exact exec_vecCmd i.f site s) (by rw [hop]; rfl) (by rw [hop]; rfl) hidle hrun

/-- An R-form instruction whose first repeat faults lands nothing (R223, R232). -/
theorem exists_vecFaults {f : FaultCode} (hnone : (getCore s site).stream.fault = none)
    (hfaults : vecRepeat i.op c1.seed (coreVcid c1.place) st.entry.icount 0 (fun _ => getV (getCore s site)) c1.mon = .error f) :
    let c := getCore s site
    ∃ c', exec (vecCmd i.f site) s = .next (atCore site (fun _ => c') s) ∧
      Faults { c1 with activity := { c.activity with vec := c.activity.vec + vecCount st.entry.insn.op } } c' f .vector
        st.entry.pc st.entry.icount :=
  exists_aluFaults hsite h (by rw [hop]; exact exec_vecCmd i.f site s) (by rw [hop]; rfl) (by rw [hop]; rfl) hidle
    (n := i.rep.toNat) (by rw [hop]; rfl) (by rw [hop]; rfl) hnone (by rw [hop]; exact hfaults)

end

end Sys2Proof.Machine
end

section
/-!
PROOFS. Lane-wise vector instructions (O14): each repeat beside the results of the ones before it, lane by lane.
-/

namespace Sys2Proof.Machine

/-! ### A lane-wise repeat -/

/-- The lane-wise functions (R224, R225). -/
def laneFns : List VecFn := [.vadd, .vsub, .vmul, .vfma, .vmax, .vmin, .vcmp, .vsel, .vand, .vor, .vxor, .vtrans]

section
variable {i : VecFields} (hf : i.f ∈ laneFns)
include hf

theorem vecRepeat_lane (seed : W64) (id icount k : Nat) (rd : Nat → Nat → Row) (mon : FmtMon) :
    vecRepeat i.op seed id icount k rd mon =
      (laneRepeat i.f i.sub.toNat (rd k (i.srcA k)) (rd k (i.srcB k)) (rd k (i.srcC k))).map (·, mon) := by
  obtain ⟨f, vd, va, vb, vc, rep, sa, sb, sc, sub⟩ := i
  cases f
  case vred | vmov | vbcast | vperm | vquant | vdeq => simp [laneFns] at hf
  all_goals rfl

theorem landCycle_lane (k : Nat) : landCycle i.op k = k + vecLatency i.f := by
  obtain ⟨f, vd, va, vb, vc, rep, sa, sb, sc, sub⟩ := i
  cases f
  case vquant => simp [laneFns] at hf
  all_goals rfl

end

/-- Lane operations on clean rows give clean words (R223). -/
def laneVal (f : VecFn) (sub : Nat) (a b c : Row) : VecVal :=
  cleanData ((List.range 32).map fun i => laneOp f sub (rowWord a i) (rowWord b i) (rowWord c i))

theorem laneRepeat_clean (f : VecFn) (sub : Nat) {a b c : Row} (ha : dataCrazed a = false) (hb : dataCrazed b = false)
    (hc : dataCrazed c = false) : laneRepeat f sub a b c = .ok (laneVal f sub a b c) := by
  simp [laneRepeat, ha, hb, hc, laneVal]

theorem vecRepeat_laneClean {i : VecFields} (hf : i.f ∈ laneFns) {k : Nat} {rd : Nat → Nat → Row}
    (hclean : ∀ r, dataCrazed (rd k r) = false) (seed : W64) (id icount : Nat) (mon : FmtMon) :
    vecRepeat i.op seed id icount k rd mon =
      .ok (laneVal i.f i.sub.toNat (rd k (i.srcA k)) (rd k (i.srcB k)) (rd k (i.srcC k)), mon) := by
  rw [vecRepeat_lane hf, laneRepeat_clean _ _ (hclean _) (hclean _) (hclean _)]
  rfl

theorem rowWord_laneVal (f : VecFn) (sub : Nat) (a b c : Row) {lane : Nat} (hlane : lane < 32) :
    rowWord (laneVal f sub a b c).row lane = laneOp f sub (rowWord a lane) (rowWord b lane) (rowWord c lane) := by
  have hword := rowWord_rowOfWords ((List.range 32).map fun i => laneOp f sub (rowWord a i) (rowWord b i) (rowWord c i)) 0#128 0#36 hlane
  simp only [List.getD_eq_getElem?_getD, List.getElem?_map, List.getElem?_range hlane, Option.map_some, Option.getD_some] at hword
  exact hword

/-! ### A lane-wise run -/

/-- The result of repeat k beside the results of the ones before it (R223). -/
def laneResult (c : Core) (i : VecFields) (res : List VecResult) (k : Nat) : VecResult :=
  let rd := seenReg c (res.take k) k
  repeatResult i.op k (laneVal i.f i.sub.toNat (rd (i.srcA k)) (rd (i.srcB k)) (rd (i.srcC k)))

/-- The results are those of the first n repeats, each from the ones before it. -/
def IsLaneRun (c : Core) (i : VecFields) (n : Nat) (res : List VecResult) : Prop :=
  res.length = n ∧ ∀ k, k < n → res[k]? = some (laneResult c i res k)

section
variable {c : Core} {i : VecFields}

theorem isLaneRun_nil : IsLaneRun c i 0 [] := ⟨rfl, fun _ h => absurd h (Nat.not_lt_zero _)⟩

theorem laneResult_append {res : List VecResult} {k : Nat} (h : k ≤ res.length) (l : List VecResult) :
    laneResult c i (res ++ l) k = laneResult c i res k := by
  rw [laneResult, laneResult, List.take_append_of_le_length h]

theorem IsLaneRun.concat {n : Nat} {res : List VecResult} (h : IsLaneRun c i n res) :
    IsLaneRun c i (n + 1) (res ++ [laneResult c i res n]) := by
  obtain ⟨rfl, hres⟩ := h
  refine ⟨List.length_append, fun k hk => ?_⟩
  rw [laneResult_append (Nat.le_of_lt_succ hk)]
  rcases Nat.lt_succ_iff_lt_or_eq.mp hk with hk | rfl
  · rw [List.getElem?_append_left hk, hres k hk]
  · rw [List.getElem?_concat_length]

/-- Clean registers stay clean under the results of a lane-wise run. -/
theorem IsLaneRun.onto_clean {n : Nat} {res : List VecResult} (h : IsLaneRun c i n res) :
    ∀ x ∈ res, ∀ old : Row, dataCrazed old = false →
      (x.val.onto old).side = old.side ∧ (x.val.onto old).z = old.z := by
  intro x hx old hold
  obtain ⟨k, hk, rfl⟩ := List.mem_iff_getElem.mp hx
  obtain ⟨hlen, hres⟩ := h
  have hk' := hres k (hlen ▸ hk)
  rw [List.getElem?_eq_getElem hk, Option.some.injEq] at hk'
  rw [hk']
  exact cleanData_onto_eq _ hold

theorem IsLaneRun.landedRow_keeps {n : Nat} {res : List VecResult} (h : IsLaneRun c i n res) {q : VecResult → Bool} (r : Nat)
    {row : Row} (hrow : dataCrazed row = false) :
    (landedRow (res.filter q) r row).side = row.side ∧ (landedRow (res.filter q) r row).z = row.z := by
  refine landedRow_of_onto (P := fun x => x.side = row.side ∧ x.z = row.z) (fun x hx old hold => ?_) r ⟨rfl, rfl⟩
  obtain ⟨hside, hz⟩ := h.onto_clean x (List.mem_of_mem_filter hx) old (by rw [dataCrazed, hold.2]; exact hrow)
  exact ⟨hside.trans hold.1, hz.trans hold.2⟩

variable (hclean : CleanRegs c) (hdrains : DrainsLanded c)
include hclean hdrains

theorem IsLaneRun.seenReg_clean {n : Nat} {res : List VecResult} (h : IsLaneRun c i n res) (t r : Nat) :
    dataCrazed (seenReg c res t r) = false := by
  rw [hdrains.seenReg_eq, dataCrazed, (h.landedRow_keeps r (hclean r)).2]
  exact hclean r

theorem IsLaneRun.vecRepeat_eq (hf : i.f ∈ laneFns) {k : Nat} {res : List VecResult} (h : IsLaneRun c i k res)
    (seed : W64) (id icount : Nat) (mon : FmtMon) :
    vecRepeat i.op seed id icount k (seenReg c res) mon = .ok ((laneResult c i res k).val, mon) := by
  have hres : res.take k = res := by rw [← h.1, List.take_length]
  rw [vecRepeat_laneClean hf (h.seenReg_clean hclean hdrains k), laneResult, hres]
  rfl

/-- A lane-wise instruction on clean registers runs all its repeats (R223). -/
theorem runRepeats_lane (hf : i.f ∈ laneFns) (icount : Nat) :
    let r := runRepeats c i.op icount (i.rep.toNat + 1) 0 [] c.mon
    r.2.2 = none ∧ r.2.1 = c.mon ∧ IsLaneRun c i (i.rep.toNat + 1) r.1 := by
  have hruns := runRepeats_keeps (c := c) (op := i.op) (icount := icount) (P := fun k res mon => mon = c.mon ∧ IsLaneRun c i k res)
    (fun k res mon ⟨hmon, hrun⟩ => ⟨_, hrun.vecRepeat_eq hclean hdrains hf _ _ _ _, hmon, hrun.concat⟩)
    (i.rep.toNat + 1) (k := 0) (res := []) ⟨rfl, isLaneRun_nil⟩
  rwa [Nat.zero_add] at hruns

end

/-! ### Lanes of a run -/

/-- Lane `lane` of the result of repeat j. -/
def laneOut (c : Core) (i : VecFields) (res : List VecResult) (j lane : Nat) : W32 := rowWord (laneResult c i res j).val.row lane

/-- The last of the first n repeats that writes register m, of those that a cycle has seen. -/
def lastWrite (i : VecFields) (n m : Nat) (seen : Nat → Bool) : Option Nat :=
  ((List.range n).filter fun j => decide ((i.vd.toNat + j) % 64 = m % 64) && seen j).getLast?

section
variable {c : Core} {i : VecFields} {n : Nat} {res : List VecResult} (h : IsLaneRun c i n res)
include h

theorem IsLaneRun.take_eq {k : Nat} (hk : k ≤ n) : res.take k = (List.range k).map (laneResult c i res) := by
  obtain ⟨hlen, hres⟩ := h
  refine List.ext_getElem? fun j => ?_
  by_cases hj : j < k
  · rw [List.getElem?_take_of_lt hj, List.getElem?_map, List.getElem?_range hj, hres j (by omega)]
    rfl
  · rw [List.getElem?_eq_none (by simp; omega), List.getElem?_eq_none (by simp; omega)]

/-- A register that the first k repeats write holds the lanes of the last of them. -/
theorem IsLaneRun.rowWord_landedRow {k : Nat} (hk : k ≤ n) {q : VecResult → Bool} {seen : Nat → Bool}
    (hseen : ∀ j, q (laneResult c i res j) = seen j) (m : Nat) (row : Row) (lane : Nat) :
    rowWord (landedRow ((res.take k).filter q) m row) lane =
      (lastWrite i k m seen).elim (rowWord row lane) (laneOut c i res · lane) := by
  have hreg : ∀ j, (laneResult c i res j).reg = (i.vd.toNat + j) % 64 := fun _ => rfl
  rw [h.take_eq hk, List.filter_map, rowWord_landedRow_map, List.filter_filter]
  simp only [hreg, Function.comp_apply, hseen]
  rfl

/-- Repeat k reads in cycle k, which sees what has landed before (R223). -/
theorem IsLaneRun.rowWord_seenReg (hdrains : DrainsLanded c) (hf : i.f ∈ laneFns) {k : Nat} (hk : k ≤ n) (m lane : Nat) :
    rowWord (seenReg c (res.take k) k m) lane =
      (lastWrite i k m fun j => decide (j + vecLatency i.f < k)).elim (rowWord (getV c m) lane) (laneOut c i res · lane) := by
  have hcyc : ∀ j, (laneResult c i res j).cyc = j + vecLatency i.f := landCycle_lane hf
  rw [hdrains.seenReg_eq]
  exact h.rowWord_landedRow hk (fun j => by rw [hcyc]) m (getV c m) lane

theorem IsLaneRun.rowWord_all (m : Nat) (row : Row) (lane : Nat) :
    rowWord (landedRow res m row) lane =
      (lastWrite i n m fun _ => true).elim (rowWord row lane) (laneOut c i res · lane) := by
  have hall : (res.take n).filter (fun _ => true) = res := by rw [List.filter_true, ← h.1, List.take_length]
  rw [← h.rowWord_landedRow (Nat.le_refl n) (q := fun _ => true) (fun _ => rfl), hall]

theorem IsLaneRun.keeps (m : Nat) {row : Row} (hrow : dataCrazed row = false) :
    (landedRow res m row).side = row.side ∧ (landedRow res m row).z = row.z := by
  have hkeeps := h.landedRow_keeps (q := fun _ => true) m hrow
  rwa [List.filter_true] at hkeeps

end

/-! ### Crazed operands -/

theorem laneRepeat_crazed {f : VecFn} {sub : Nat} {a b c : Row}
    (h : dataCrazed a = true ∨ ((vecUses f).1 = true ∧ dataCrazed b = true) ∨ ((vecUses f).2.1 = true ∧ dataCrazed c = true)) :
    laneRepeat f sub a b c = .error .crazedOperand := by
  have hcrazed : (dataCrazed a || ((vecUses f).1 && dataCrazed b) || ((vecUses f).2.1 && dataCrazed c)) = true := by
    simpa [or_assoc] using h
  simp only [laneRepeat, hcrazed, if_true]

/-- The functions whose operands enter arithmetic: VA, VB and VC in turn (R231). -/
theorem vecRepeat_crazed {i : VecFields} (seed : W64) (id icount : Nat) {rd : Nat → Nat → Row} (mon : FmtMon)
    (h : (i.f ∈ laneFns ++ [VecFn.vred] ∧ dataCrazed (rd 0 i.va.toNat) = true) ∨
      (i.f ∈ [VecFn.vadd, .vsub, .vmul, .vfma, .vmax, .vmin, .vcmp, .vsel, .vand, .vor, .vxor] ∧ dataCrazed (rd 0 i.vb.toNat) = true) ∨
      (i.f ∈ [VecFn.vfma, .vsel, .vperm] ∧ dataCrazed (rd 0 i.vc.toNat) = true)) :
    vecRepeat i.op seed id icount 0 rd mon = .error .crazedOperand := by
  have hlane (hf : i.f ∈ laneFns) (hbad : dataCrazed (rd 0 i.va.toNat) = true ∨
      ((vecUses i.f).1 = true ∧ dataCrazed (rd 0 i.vb.toNat) = true) ∨
      ((vecUses i.f).2.1 = true ∧ dataCrazed (rd 0 i.vc.toNat) = true)) :
      vecRepeat i.op seed id icount 0 rd mon = .error .crazedOperand := by
    rw [vecRepeat_lane hf, i.srcA_zero, i.srcB_zero, i.srcC_zero, laneRepeat_crazed hbad]
    rfl
  have husesB : ∀ f ∈ [VecFn.vadd, .vsub, .vmul, .vfma, .vmax, .vmin, .vcmp, .vsel, .vand, .vor, .vxor],
      f ∈ laneFns ∧ (vecUses f).1 = true := by decide
  have husesC : ∀ f ∈ [VecFn.vfma, .vsel, .vperm], f = .vperm ∨ (f ∈ laneFns ∧ (vecUses f).2.1 = true) := by decide
  rcases h with ⟨hf, hbad⟩ | ⟨hf, hbad⟩ | ⟨hf, hbad⟩
  · rcases List.mem_append.mp hf with hf | hf
    · exact hlane hf (.inl hbad)
    · rw [vecRepeat_vred _ _ _ _ _ (List.mem_singleton.mp hf), i.srcA_zero, redRepeat, if_pos hbad]
      rfl
  · obtain ⟨hf, huses⟩ := husesB _ hf
    exact hlane hf (.inr (.inl ⟨huses, hbad⟩))
  · rcases husesC _ hf with hf | ⟨hf, huses⟩
    · rw [vecRepeat_vperm _ _ _ _ _ hf, i.srcC_zero, permRepeat, hbad]
      rfl
    · exact hlane hf (.inr (.inr ⟨huses, hbad⟩))

/-! ### The statement -/

theorem laneOp_vsel (sub : Nat) (a b c : W32) : laneOp .vsel sub a b c = if c.toNat ≥ 2 ^ 31 then a else b := by
  have hbit : c.getLsbD 31 = decide (2 ^ 31 ≤ c.toNat) := BitVec.msb_eq_decide c
  rw [laneOp, hbit]
  simp only [decide_eq_true_eq, ge_iff_le]

/-- Settles O14: the results of a lane-wise run, each from the ones that its cycle has seen; a crazed operand ends the run at once. -/
theorem vectorLanesAndCrazing : Obligations.VectorLanesAndCrazing := by
  unfold Obligations.VectorLanesAndCrazing
  refine ⟨fun site s st c1 f vd va vb vc rep sa sb sc sub hsite h hop hf hidle hclean => ?_,
    fun site s st c1 f vd va vb vc rep sa sb sc sub hsite h hop hidle hnone => ?_⟩
  · intro c lat last
    let i : VecFields := ⟨f, vd, va, vb, vc, rep, sa, sb, sc, sub⟩
    have hsame : getV c = getV c1 := funext fun n => (h.getV_eq n).symm
    have hdrains := h.drainsLanded hidle.drainsLanded
    have hclean1 : CleanRegs c1 := by unfold CleanRegs; rw [← hsame]; exact hclean
    have hrun : aluRun st c1 = runRepeats c1 i.op st.entry.icount (i.rep.toNat + 1) 0 [] c1.mon := by rw [aluRun, hop]; rfl
    obtain ⟨hnone, hmon, hlanes⟩ := runRepeats_lane hclean1 hdrains (i := i) hf st.entry.icount
    rw [← hrun] at hnone hmon hlanes
    obtain ⟨c', hnext, hframe, hget⟩ := exists_vecStarted (i := i) hsite h hop hidle hnone
    have hlat : lat = vecLatency f := by
      cases f
      case vred | vperm | vquant | vdeq => simp at hf
      all_goals rfl
    refine ⟨c', laneOut c1 i (aluRun st c1).1, hnext, ?_, fun n lane hlane => ?_, fun n => ?_, fun k lane hk hlane => ?_⟩
    · rw [hframe, hmon, hop]
      rfl
    · rw [hget, hlanes.rowWord_all]
      change (last (rep.toNat + 1) n fun _ => true).elim _ _ = _
      cases last (rep.toNat + 1) n fun _ => true <;> rfl
    · rw [hget]
      exact hlanes.keeps n (hclean n)
    · intro read x y z
      have hread : ∀ m, rowWord (seenReg c1 ((aluRun st c1).1.take k) k m) lane = read m := by
        intro m
        rw [hlanes.rowWord_seenReg hdrains hf (Nat.le_succ_of_le hk), ← hsame]
        simp only [read, hlat]
        change (last k m fun j => decide (j + vecLatency f < k)).elim _ _ = _
        cases last k m fun j => decide (j + vecLatency f < k) <;> rfl
      have hout : laneOut c1 i (aluRun st c1).1 k lane = laneOp f sub.toNat x y z :=
        (rowWord_laneVal f sub.toNat _ _ _ hlane).trans (by rw [hread, hread, hread]; rfl)
      rw [hout]
      cases f
      case vred | vmov | vbcast | vperm | vquant | vdeq => simp at hf
      case vsel => exact laneOp_vsel _ x y z
      all_goals rfl
  · intro c bad hbad
    let i : VecFields := ⟨f, vd, va, vb, vc, rep, sa, sb, sc, sub⟩
    exact exists_vecFaults (i := i) hsite h hop hidle hnone (vecRepeat_crazed (i := i) _ _ _ _ hbad)

end Sys2Proof.Machine
end

section
/-!
PROOFS. Rows made of parts (O13): fields of equal width, the bytes of a VPERM, and the blocks of a VQUANT.
-/

namespace Sys2Proof.Machine

/-! ### Fields of equal width -/

/-- The numbers of a list as fields of w bits, the first lowest. -/
def packFields (n w : Nat) (l : List Nat) : BitVec n := l.foldr (fun x (acc : BitVec n) => (acc <<< w) ||| BitVec.ofNat n x) 0#n

theorem getLsbD_packFields {n w : Nat} {l : List Nat} (hl : ∀ x ∈ l, x < 2 ^ w) {k b : Nat} (hb : b < w) (hin : w * k + b < n) :
    (packFields n w l).getLsbD (w * k + b) = (l.getD k 0).testBit b := by
  induction l generalizing k with
  | nil => simp [packFields]
  | cons x l ih =>
    obtain ⟨hx, hl⟩ := List.forall_mem_cons.mp hl
    have hcons : packFields n w (x :: l) = (packFields n w l) <<< w ||| BitVec.ofNat n x := rfl
    rw [hcons, BitVec.getLsbD_or, BitVec.getLsbD_shiftLeft, BitVec.getLsbD_ofNat]
    cases k with
    | zero =>
      rw [Nat.mul_zero, Nat.zero_add] at hin ⊢
      simp [hb, hin]
    | succ k =>
      have hle : w ≤ w * (k + 1) + b := by rw [Nat.mul_succ]; omega
      have hsub : w * (k + 1) + b - w = w * k + b := by rw [Nat.mul_succ]; omega
      have hhigh : x.testBit (w * (k + 1) + b) = false :=
        Nat.testBit_eq_false_of_lt (Nat.lt_of_lt_of_le hx (Nat.pow_le_pow_right (by decide) hle))
      rw [hsub, ih hl (by omega), hhigh, List.getD_cons_succ]
      simp [hin, Nat.not_lt.mpr hle]

/-- Field k of packed numbers is number k. -/
theorem toNat_extract_packFields {n w : Nat} {l : List Nat} (hl : ∀ x ∈ l, x < 2 ^ w) {k : Nat} (hin : w * (k + 1) ≤ n) :
    ((packFields n w l).extractLsb' (w * k) w).toNat = l.getD k 0 := by
  have hx : l.getD k 0 < 2 ^ w := by
    rw [List.getD_eq_getElem?_getD]
    cases hk : l[k]? with
    | none => exact Nat.two_pow_pos w
    | some x => exact hl x (List.mem_of_getElem? hk)
  rw [Nat.mul_succ] at hin
  refine Nat.eq_of_testBit_eq fun b => ?_
  rw [BitVec.testBit_toNat, BitVec.getLsbD_extractLsb']
  by_cases hb : b < w
  · rw [getLsbD_packFields hl hb (by omega), decide_eq_true hb, Bool.true_and]
  · rw [decide_eq_false hb, Bool.false_and,
      Nat.testBit_eq_false_of_lt (Nat.lt_of_lt_of_le hx (Nat.pow_le_pow_right (by decide) (Nat.le_of_not_lt hb)))]

/-- Blocks of equal length one after another: element e of block j. -/
theorem getD_flatMap_range {α : Type} (g : Nat → List α) {m : Nat} (hlen : ∀ j, (g j).length = m) (d : α) {n j e : Nat} (hj : j < n)
    (he : e < m) : ((List.range n).flatMap g).getD (m * j + e) d = (g j).getD e d := by
  induction n with
  | zero => exact absurd hj (Nat.not_lt_zero j)
  | succ n ih =>
    have hlength : ((List.range n).flatMap g).length = m * n := by
      simp [List.length_flatMap, hlen, Nat.mul_comm]
    rw [List.range_succ, List.flatMap_append, List.flatMap_singleton]
    rcases Nat.lt_succ_iff_lt_or_eq.mp hj with hj | rfl
    · have hin : m * j + e < m * n := by
        calc m * j + e < m * (j + 1) := by rw [Nat.mul_succ]; omega
          _ ≤ m * n := Nat.mul_le_mul_left m hj
      rw [List.getD_append _ _ _ _ (by rwa [hlength]), ih hj]
    · rw [List.getD_append_right _ _ _ _ (by rw [hlength]; omega), hlength, Nat.add_sub_cancel_left]

/-! ### Bytes of a word -/

/-- Digit k of bytes put together, the first lowest. -/
theorem foldr_bytes_digit {β : Type} (g : β → Byte) (l : List β) (k : Nat) :
    l.foldr (fun p acc => (g p).toNat + 256 * acc) 0 / 256 ^ k % 256 = ((l.map g).getD k 0#8).toNat := by
  induction l generalizing k with
  | nil => simp
  | cons p l ih =>
    have hp := (g p).isLt
    rw [List.foldr_cons, List.map_cons]
    cases k with
    | zero =>
      rw [List.getD_cons_zero, Nat.pow_zero, Nat.div_one]
      omega
    | succ k =>
      rw [List.getD_cons_succ, ← ih, Nat.pow_succ', ← Nat.div_div_eq_div_mul]
      congr 2
      omega

/-- Byte k of a 32-bit number. -/
theorem extractLsb'_ofNat_byte (n : Nat) {k : Nat} (hk : k < 4) :
    (BitVec.ofNat 32 n).extractLsb' (8 * k) 8 = BitVec.ofNat 8 (n / 256 ^ k % 256) := by
  refine BitVec.eq_of_getLsbD_eq fun b hb => ?_
  have hpow : 256 ^ k = 2 ^ (8 * k) := by rw [Nat.pow_mul]
  have hmod : (256 : Nat) = 2 ^ 8 := rfl
  rw [BitVec.getLsbD_extractLsb', BitVec.getLsbD_ofNat, BitVec.getLsbD_ofNat, hpow, hmod, Nat.testBit_mod_two_pow, Nat.testBit_div_two_pow]
  simp only [hb, show 8 * k + b < 32 by omega, decide_true, Bool.true_and, Nat.add_comm b]

theorem rowByte_eq (r : Row) (i : Nat) : rowByte r i = (rowWord r (i / 4)).extractLsb' (8 * (i % 4)) 8 := by
  refine BitVec.eq_of_getLsbD_eq fun b hb => ?_
  rw [rowByte, rowWord, BitVec.getLsbD_extractLsb', BitVec.getLsbD_extractLsb', BitVec.getLsbD_extractLsb',
    show 32 * (i / 4) + (8 * (i % 4) + b) = 8 * i + b by omega]
  simp [show 8 * (i % 4) + b < 32 by omega]

/-! ### Clean rows -/

theorem dataCrazed_of_clean {r : Row} (h : r.z = 0#36) : dataCrazed r = false := by simp [dataCrazed, h]

theorem rowZ_of_clean {r : Row} (h : r.z = 0#36) (i : Nat) : rowZ r i = false := by simp [rowZ, h]

theorem setField_clean : setField 0#36 0 32 0 = 0#36 := by decide

theorem onto_clean {v : VecVal} (hv : v.row.z = 0#36) {old : Row} (hold : old.z = 0#36) : (v.onto old).z = 0#36 := by
  unfold VecVal.onto
  split
  · exact hv
  · simp only [hv, hold]
    exact setField_clean

/-! ### VPERM -/

/-- The bytes that a word takes, the first lowest, and whether one of them is crazed (R231). -/
def wordOfBytes (bs : List (Byte × Bool)) : W32 × Bool :=
  (BitVec.ofNat 32 (bs.foldr (fun p acc => p.1.toNat + 256 * acc) 0), bs.any (·.2))

/-- The nibble of a that control byte j names, with its crazed bit (R227). -/
def permNibble (a c c2 : Row) (j : Nat) : Nat × Bool :=
  let idx := (permByte c c2 j).1.toNat
  let s := permByte a a (idx / 2)
  (if idx % 2 = 0 then s.1.toNat % 16 else s.1.toNat / 16, s.2)

/-- The byte i of a permutation, with its crazed bit (R227). -/
def permPick (nibble : Bool) (a b c c2 : Row) (i : Nat) : Byte × Bool :=
  if nibble then
    (BitVec.ofNat 8 ((permNibble a c c2 (2 * i)).1 + 16 * (permNibble a c c2 (2 * i + 1)).1),
      (permNibble a c c2 (2 * i)).2 || (permNibble a c c2 (2 * i + 1)).2)
  else permByte a b (permByte c c i).1.toNat

/-- The words of a permutation with those bytes. -/
def permWords (bytes : List (Byte × Bool)) : List (W32 × Bool) :=
  (List.range 32).map fun w => wordOfBytes ((bytes.drop (4 * w)).take 4)

/-- The row of a permutation: its bytes, beside the side part of VA (R227, R230). -/
def permRow (bytes : List (Byte × Bool)) (a : Row) : Row :=
  { data := (rowOfWords ((permWords bytes).map (·.1)) 0#128 0#36).data, side := a.side
    z := setField a.z 0 32 ((permWords bytes).foldr (fun p (acc : Nat) => p.2.toNat + 2 * acc) 0) }

theorem permRepeat_eq (nibble : Bool) (a b c c2 : Row) :
    permRepeat nibble a b c c2 =
      if dataCrazed c || (nibble && dataCrazed c2) then .error .crazedOperand
      else .ok { row := permRow ((List.range 128).map (permPick nibble a b c c2)) a, full := true } := rfl

theorem permByte_clean {a b : Row} (ha : a.z = 0#36) (hb : b.z = 0#36) (i : Nat) : (permByte a b i).2 = false := by
  have hz : (if i < 128 then a else b).z = 0#36 := by split <;> assumption
  exact rowZ_of_clean hz _

theorem permPick_clean (nibble : Bool) {a b : Row} (c c2 : Row) (ha : a.z = 0#36) (hb : b.z = 0#36) (i : Nat) :
    (permPick nibble a b c c2 i).2 = false := by
  unfold permPick
  split
  · simp only [permNibble, permByte_clean ha ha, Bool.or_self]
  · exact permByte_clean ha hb _

theorem permRow_clean {bytes : List (Byte × Bool)} (hbytes : ∀ p ∈ bytes, p.2 = false) {a : Row} (ha : a.z = 0#36) :
    (permRow bytes a).z = 0#36 := by
  have hwords : ∀ p ∈ permWords bytes, p.2 = false := by
    intro p hp
    obtain ⟨w, -, rfl⟩ := List.mem_map.mp hp
    refine List.any_eq_false.mpr fun q hq => ?_
    simp [hbytes q (List.mem_of_mem_drop (List.mem_of_mem_take hq))]
  have hzero : ∀ l : List (W32 × Bool), (∀ p ∈ l, p.2 = false) → l.foldr (fun p (acc : Nat) => p.2.toNat + 2 * acc) 0 = 0 := by
    intro l hl
    induction l with
    | nil => rfl
    | cons p l ih =>
      obtain ⟨hp, hl⟩ := List.forall_mem_cons.mp hl
      rw [List.foldr_cons, ih hl, hp]
      rfl
  rw [permRow, hzero _ hwords, ha]
  exact setField_clean

/-- The bytes of a permutation stand in their order. -/
theorem rowByte_permRow (bytes : List (Byte × Bool)) (a : Row) {i : Nat} (hi : i < 128) :
    rowByte (permRow bytes a) i = (bytes.map (·.1)).getD i 0#8 := by
  have hword : rowWord (permRow bytes a) (i / 4) = (wordOfBytes ((bytes.drop (4 * (i / 4))).take 4)).1 := by
    have hrow := rowWord_rowOfWords ((permWords bytes).map (·.1)) 0#128 0#36 (c := i / 4) (by omega)
    simp only [permWords, List.map_map, List.getD_eq_getElem?_getD, List.getElem?_map, List.getElem?_range (show i / 4 < 32 by omega),
      Option.map_some, Option.getD_some] at hrow
    exact hrow
  have hbyte : (((bytes.drop (4 * (i / 4))).take 4).map (·.1)).getD (i % 4) 0#8 = (bytes.map (·.1)).getD i 0#8 := by
    rw [List.getD_eq_getElem?_getD, List.getD_eq_getElem?_getD, List.map_take, List.map_drop, List.getElem?_take_of_lt (by omega),
      List.getElem?_drop, Nat.div_add_mod]
  rw [rowByte_eq, hword, wordOfBytes, extractLsb'_ofNat_byte _ (by omega), foldr_bytes_digit, hbyte, BitVec.ofNat_toNat, BitVec.setWidth_eq]

/-! ### VQUANT -/

/-- A count of units below 2^(e + 1) has an exponent of at most e (R40, R60). -/
theorem unitsCode_lt {mb e u : Nat} (hmb : mb ≤ e) (hu : u < 2 ^ (e + 1)) : unitsCode mb u < (e - mb + 2) * 2 ^ mb := by
  have hpow := Nat.two_pow_pos mb
  unfold unitsCode
  by_cases hlow : u < 2 ^ mb
  · rw [if_pos hlow]
    exact Nat.lt_of_lt_of_le hlow (Nat.le_mul_of_pos_left _ (Nat.succ_pos _))
  · have hu0 : u ≠ 0 := by omega
    have hlog : Nat.log2 u ≤ e := Nat.lt_succ_iff.mp ((Nat.log2_lt hu0).mpr hu)
    have hmblog : mb ≤ Nat.log2 u := (Nat.le_log2 hu0).mpr (Nat.le_of_not_lt hlow)
    have hfrac : u / 2 ^ (Nat.log2 u - mb) < 2 * 2 ^ mb := by
      rw [Nat.div_lt_iff_lt_mul (Nat.two_pow_pos _), Nat.mul_assoc, ← Nat.pow_add, Nat.add_sub_cancel' hmblog, ← Nat.pow_succ']
      exact Nat.lt_log2_self
    have hexp : (Nat.log2 u - mb + 1) * 2 ^ mb ≤ (e - mb + 1) * 2 ^ mb := Nat.mul_le_mul_right _ (by omega)
    rw [if_neg hlow]
    dsimp only
    have hsucc : (e - mb + 2) * 2 ^ mb = (e - mb + 1) * 2 ^ mb + 2 ^ mb := Nat.succ_mul _ _
    omega

/-- With a sign above it, a floating-point code has its type's width (R40). -/
theorem signedCode_lt (neg : Bool) {mb e w u : Nat} (hmb : mb ≤ e) (hw : (e - mb + 2) * 2 ^ mb ≤ 2 ^ w) (hu : u < 2 ^ (e + 1)) :
    unitsCode mb u + (if neg then 2 ^ w else 0) < 2 ^ (w + 1) := by
  have hcode := Nat.lt_of_lt_of_le (unitsCode_lt hmb hu) hw
  rw [Nat.pow_succ]
  split <;> omega

/-- The code of a magnitude within the type's limit has the type's width (R60, R62). -/
theorem encodeUnits_lt (t : EType) (neg : Bool) {u : Nat} (hu : u ≤ etypeMaxUnits t) : encodeUnits t neg u < 2 ^ etypeBits t := by
  unfold encodeUnits
  by_cases hzero : u = 0
  · rw [if_pos hzero]
    exact Nat.two_pow_pos _
  rw [if_neg hzero]
  cases t <;> simp only [etypeMaxUnits] at hu
  case t2 => cases neg <;> simp [etypeBits]
  case int8 => cases neg <;> simp [etypeBits] <;> omega
  case e2m1 => exact signedCode_lt neg (mb := 1) (e := 3) (w := 3) (by decide) (by decide) (by omega)
  case e4m3 => exact signedCode_lt neg (mb := 3) (e := 17) (w := 7) (by decide) (by decide) (by omega)
  case e5m2 => exact signedCode_lt neg (mb := 2) (e := 31) (w := 7) (by decide) (by decide) (by omega)
  case bf16 => exact signedCode_lt neg (mb := 7) (e := 260) (w := 15) (by decide) (by decide) (by omega)

theorem quantElem_code_lt (t : EType) (sc : Int) (x : W32) (sr : Option Nat) : (quantElem t sc x sr).code < 2 ^ etypeBits t := by
  unfold quantElem
  split
  · exact Nat.two_pow_pos _
  · exact encodeUnits_lt t _ (Nat.le_refl _)
  · dsimp only
    split
    · exact encodeUnits_lt t _ (Nat.le_refl _)
    · exact encodeUnits_lt t _ (by omega)

theorem quantBf16_code_lt (x : W32) (sr : Option Nat) : (quantBf16 x sr).code < 2 ^ etypeBits .bf16 := by
  unfold quantBf16
  split
  · decide
  · split <;> decide
  · dsimp only
    split
    · split <;> decide
    · exact encodeUnits_lt .bf16 _ (by omega)

theorem quantBlock_codes_lt (t : EType) (xs : List W32) (sr : Nat → Option Nat) :
    ∀ x ∈ (quantBlock t xs sr).codes, x < 2 ^ etypeBits t := by
  intro x hx
  simp only [quantBlock, List.map_map, List.mem_map] at hx
  obtain ⟨⟨y, i⟩, -, rfl⟩ := hx
  simp only [Function.comp_apply]
  split
  · next ht => rw [ht]; exact quantBf16_code_lt y _
  · split
    · exact Nat.two_pow_pos _
    · exact quantElem_code_lt t _ y _

theorem length_quantBlock_codes (t : EType) (xs : List W32) (sr : Nat → Option Nat) :
    (quantBlock t xs sr).codes.length = xs.length := by
  simp [quantBlock]

theorem quantBlock_scale_lt (t : EType) (xs : List W32) (sr : Nat → Option Nat) : (quantBlock t xs sr).scale < 2 ^ 8 := by
  have hscale : blockScale t xs < 2 ^ 8 := by
    unfold blockScale
    dsimp only
    split
    · decide
    · omega
  unfold quantBlock
  dsimp only
  split
  · decide
  · exact hscale

/-- A row of quantised blocks: their codes, and their scales but for BF16 (R45, R46, R228). -/
def quantRow (t : EType) (qs : List QBlock) : Row :=
  { data := packFields 1024 (etypeBits t) (qs.flatMap (·.codes))
    side := if t = .bf16 then 0#128 else packFields 128 8 (qs.map (·.scale)), z := 0#36 }

/-- Blocks per row, each of 32 elements, fill the data part. -/
theorem etypeBits_mul_le (t : EType) {j e : Nat} (hj : j < etypeLanes t / 32) (he : e < 32) :
    etypeBits t * (32 * j + e + 1) ≤ 1024 := by
  cases t <;> simp only [etypeLanes, etypeBits] at hj ⊢ <;> omega

section
variable {t : EType} {src : Nat → List W32} (sr : Nat → Nat → Option Nat)

theorem elemCode_quantRow (hsrc : ∀ j, (src j).length = 32) {j e : Nat} (hj : j < etypeLanes t / 32) (he : e < 32) :
    elemCode t (quantRow t ((List.range (etypeLanes t / 32)).map fun j => quantBlock t (src j) (sr j))).data (32 * j + e) =
      (quantBlock t (src j) (sr j)).codes.getD e 0 := by
  have hcodes : ∀ x ∈ (List.range (etypeLanes t / 32)).flatMap (fun j => (quantBlock t (src j) (sr j)).codes), x < 2 ^ etypeBits t := by
    intro x hx
    obtain ⟨j, -, hx⟩ := List.mem_flatMap.mp hx
    exact quantBlock_codes_lt t _ _ x hx
  rw [elemCode, quantRow, List.flatMap_map, toNat_extract_packFields hcodes (etypeBits_mul_le t hj he)]
  exact getD_flatMap_range _ (fun j => (length_quantBlock_codes t _ _).trans (hsrc j)) 0 hj he

theorem scaleByte_quantRow {j : Nat} (hj : j < 16) :
    scaleByte (quantRow t ((List.range (etypeLanes t / 32)).map fun j => quantBlock t (src j) (sr j))).side j =
      if t ≠ .bf16 ∧ j < etypeLanes t / 32 then (quantBlock t (src j) (sr j)).scale else 0 := by
  by_cases ht : t = .bf16
  · simp [quantRow, ht, scaleByte]
  · have hscales : ∀ x ∈ (List.range (etypeLanes t / 32)).map (fun j => (quantBlock t (src j) (sr j)).scale), x < 2 ^ 8 := by
      intro x hx
      obtain ⟨j, -, rfl⟩ := List.mem_map.mp hx
      exact quantBlock_scale_lt t _ _
    rw [scaleByte, quantRow]
    simp only [ht, if_false, List.map_map, ne_eq, not_false_eq_true, true_and]
    refine (toNat_extract_packFields hscales (by omega)).trans ?_
    rw [List.getD_eq_getElem?_getD, List.getElem?_map]
    by_cases hin : j < etypeLanes t / 32
    · rw [List.getElem?_range hin, if_pos hin]
      rfl
    · rw [List.getElem?_eq_none (by simpa using hin), if_neg hin]
      rfl

end

/-- VQUANT of clean rows gives a clean row (R228, R231). -/
theorem quantRepeat_clean (t : EType) (sr : Bool) (seed : W64) (id icount k : Nat) {srcs : List Row} (mon : FmtMon)
    (h : ∀ r ∈ srcs, r.z = 0#36) :
    ∃ v, quantRepeat t sr seed id icount k srcs mon = .ok v ∧ v.1.row.z = 0#36 := by
  have hclean : srcs.any dataCrazed = false := List.any_eq_false.mpr fun r hr => by simp [dataCrazed_of_clean (h r hr)]
  unfold quantRepeat
  rw [hclean]
  exact ⟨_, rfl, rfl⟩

/-- VQUANT without stochastic rounding packs its blocks (R228). -/
theorem quantRepeat_nearest (t : EType) (seed : W64) (id icount k : Nat) {srcs : List Row} (mon : FmtMon)
    (h : ∀ r ∈ srcs, r.z = 0#36) :
    ∃ m, quantRepeat t false seed id icount k srcs mon =
      .ok ({ row := quantRow t (srcs.map fun r => quantBlock t (rowWords r) fun _ => none), full := true }, m) := by
  have hclean : srcs.any dataCrazed = false := List.any_eq_false.mpr fun r hr => by simp [dataCrazed_of_clean (h r hr)]
  have hblocks : (srcs.zipIdx.map fun p => quantBlock t (rowWords p.1) fun i =>
      if false = true then some (srBits seed id icount k (32 * p.2 + i)) else none) =
      srcs.map fun r => quantBlock t (rowWords r) fun _ => none := by
    calc _ = (srcs.zipIdx.map Prod.fst).map fun r => quantBlock t (rowWords r) fun _ => none := by rw [List.map_map]; rfl
      _ = _ := by rw [List.zipIdx_map_fst]
  have hscales (qs : List QBlock) : qs.foldr (fun q (acc : BitVec 128) => (acc <<< 8) ||| BitVec.ofNat 128 q.scale) 0#128 =
      packFields 128 8 (qs.map (·.scale)) := by rw [packFields, List.foldr_map]
  unfold quantRepeat
  rw [hclean, hblocks, if_neg Bool.false_ne_true]
  dsimp only
  rw [hscales]
  exact ⟨_, rfl⟩

end Sys2Proof.Machine
end

section
/-!
PROOFS. The vector instructions on whole registers (O13): repeats on clean rows, and what the one repeat of an instruction gives.
-/

namespace Sys2Proof.Machine

/-! ### Clean repeats -/

/-- The words of a reduction (R226). -/
def redWords (sub : Nat) (a : Row) : List W32 :=
  pairTree (if sub = 0 then fpAdd else fpMax) 5 (rowWords a) :: List.replicate 31 0#32

/-- The words of a dequantised block (R229). -/
def deqWords (t : EType) (b : Nat) (a : Row) : List W32 :=
  (List.range 32).map fun i => dequant t (elemCode t a.data (32 * b + i)) (scaleByte a.side b)

theorem redRepeat_clean (sub : Nat) {a : Row} (h : a.z = 0#36) : redRepeat sub a = .ok (cleanData (redWords sub a)) := by
  rw [redRepeat, dataCrazed_of_clean h]
  rfl

theorem bcastRepeat_clean (sub : Nat) {a : Row} (h : a.z = 0#36) :
    bcastRepeat sub a = cleanData (List.replicate 32 (rowWord a sub)) := by
  rw [bcastRepeat, rowZ_of_clean h]
  rfl

theorem deqRepeat_clean (t : EType) (b : Nat) {a : Row} (h : a.z = 0#36) : deqRepeat t b a = .ok (cleanData (deqWords t b a)) := by
  simp [deqRepeat, rowZ_of_clean h, deqWords]

theorem permRepeat_clean (nibble : Bool) (a b : Row) {c c2 : Row} (hc : c.z = 0#36) (hc2 : c2.z = 0#36) :
    permRepeat nibble a b c c2 = .ok { row := permRow ((List.range 128).map (permPick nibble a b c c2)) a, full := true } := by
  rw [permRepeat_eq, dataCrazed_of_clean hc, dataCrazed_of_clean hc2, Bool.and_false]
  rfl

section
variable {i : VecFields} (seed : W64) (id icount k : Nat) {rd : Nat → Nat → Row} (hrd : ∀ t r, (rd t r).z = 0#36) (mon : FmtMon)
include hrd

theorem vecRepeat_vredClean (hf : i.f = .vred) :
    vecRepeat i.op seed id icount k rd mon = .ok (cleanData (redWords i.sub.toNat (rd k (i.srcA k))), mon) := by
  rw [vecRepeat_vred _ _ _ _ _ hf, redRepeat_clean _ (hrd _ _)]
  rfl

theorem vecRepeat_vbcastClean (hf : i.f = .vbcast) :
    vecRepeat i.op seed id icount k rd mon = .ok (cleanData (List.replicate 32 (rowWord (rd k (i.srcA k)) i.sub.toNat)), mon) := by
  rw [vecRepeat_vbcast _ _ _ _ _ hf, bcastRepeat_clean _ (hrd _ _)]

theorem vecRepeat_vpermClean (hf : i.f = .vperm) :
    vecRepeat i.op seed id icount k rd mon =
      .ok ({ row := permRow ((List.range 128).map (permPick (decide (i.sub = 1#5)) (rd k (i.srcA k)) (rd k (i.srcB k)) (rd k (i.srcC k))
        (rd k (i.vc.toNat + 1)))) (rd k (i.srcA k)), full := true }, mon) := by
  rw [vecRepeat_vperm _ _ _ _ _ hf, permRepeat_clean _ _ _ (hrd _ _) (hrd _ _)]
  rfl

theorem vecRepeat_vdeqClean (hf : i.f = .vdeq) {t : EType} (ht : etypeOfCode i.sub.toNat = some t) :
    vecRepeat i.op seed id icount k rd mon =
      .ok (cleanData (deqWords t ((i.vb.toNat + k) % blocksPerRow t) (rd k (i.va.toNat + (i.vb.toNat + k) / blocksPerRow t))), mon) := by
  rw [vecRepeat_vdeq _ _ _ _ _ hf ht, deqRepeat_clean _ _ (hrd _ _)]
  rfl

theorem vecRepeat_vquantClean (hf : i.f = .vquant) {t : EType} (ht : etypeOfCode (i.sub.toNat % 16) = some t) :
    ∃ v, vecRepeat i.op seed id icount k rd mon = .ok v ∧ v.1.row.z = 0#36 := by
  rw [vecRepeat_vquant _ _ _ _ _ hf ht]
  refine quantRepeat_clean t _ seed id icount k mon fun r hr => ?_
  obtain ⟨j, -, rfl⟩ := List.mem_map.mp hr
  exact hrd _ _

/-- The first repeat of a VQUANT without stochastic rounding packs the blocks of VA and the registers after it (R228). -/
theorem vecRepeat_vquantNearest (hf : i.f = .vquant) {t : EType} (hsub : i.sub.toNat < 16) (ht : etypeOfCode i.sub.toNat = some t) :
    ∃ m, vecRepeat i.op seed id icount 0 rd mon =
      .ok ({ row := quantRow t ((List.range (etypeLanes t / 32)).map fun j =>
        quantBlock t (rowWords (rd j (i.va.toNat + j))) fun _ => none), full := true }, m) := by
  have hmod : etypeOfCode (i.sub.toNat % 16) = some t := by rwa [Nat.mod_eq_of_lt hsub]
  have hnearest : decide (i.sub.toNat ≥ 16) = false := decide_eq_false (by omega)
  rw [vecRepeat_vquant _ _ _ _ _ hf hmod, hnearest]
  simp only [Nat.mul_zero, Nat.zero_mul, Nat.zero_add, Nat.add_zero]
  obtain ⟨m, hm⟩ := quantRepeat_nearest t seed id icount 0 mon
    (srcs := (List.range (blocksPerRow t)).map fun j => rd j (i.va.toNat + j))
    fun r hr => by obtain ⟨j, -, rfl⟩ := List.mem_map.mp hr; exact hrd _ _
  rw [List.map_map] at hm
  exact ⟨m, hm⟩

variable (i) in
/-- A repeat on clean rows succeeds with a clean value, and only VQUANT reaches the monitors (R223, R231). -/
theorem vecRepeat_clean :
    ∃ v, vecRepeat i.op seed id icount k rd mon = .ok v ∧ v.1.row.z = 0#36 ∧ (i.f ≠ .vquant → v.2 = mon) := by
  cases hf : i.f
  case vred => exact ⟨_, vecRepeat_vredClean _ _ _ _ hrd _ hf, rfl, fun _ => rfl⟩
  case vmov => exact ⟨_, vecRepeat_vmov _ _ _ _ _ hf, hrd _ _, fun _ => rfl⟩
  case vbcast => exact ⟨_, vecRepeat_vbcastClean _ _ _ _ hrd _ hf, rfl, fun _ => rfl⟩
  case vperm =>
    refine ⟨_, vecRepeat_vpermClean _ _ _ _ hrd _ hf, permRow_clean (fun p hp => ?_) (hrd _ _), fun _ => rfl⟩
    obtain ⟨e, -, rfl⟩ := List.mem_map.mp hp
    exact permPick_clean _ _ _ (hrd _ _) (hrd _ _) e
  case vquant =>
    cases ht : etypeOfCode (i.sub.toNat % 16) with
    | none => exact ⟨_, vecRepeat_noType _ _ _ _ _ (.inl ⟨hf, ht⟩), rfl, fun _ => rfl⟩
    | some t =>
      obtain ⟨v, hv, hz⟩ := vecRepeat_vquantClean seed id icount k hrd mon hf ht
      exact ⟨v, hv, hz, fun h => absurd rfl h⟩
  case vdeq =>
    cases ht : etypeOfCode i.sub.toNat with
    | none => exact ⟨_, vecRepeat_noType _ _ _ _ _ (.inr ⟨hf, ht⟩), rfl, fun _ => rfl⟩
    | some t => exact ⟨_, vecRepeat_vdeqClean _ _ _ _ hrd _ hf ht, rfl, fun _ => rfl⟩
  all_goals exact ⟨_, vecRepeat_laneClean (by rw [hf]; decide) (fun r => dataCrazed_of_clean (hrd k r)) _ _ _ _, rfl, fun _ => rfl⟩

end

/-! ### A run on clean registers -/

section
variable {c : Core} {st : Started} (hclean : ∀ n, (getV c n).z = 0#36) (hdrains : DrainsLanded c)
include hclean hdrains

theorem seenReg_clean {res : List VecResult} (hres : ∀ x ∈ res, x.val.row.z = 0#36) (t r : Nat) : (seenReg c res t r).z = 0#36 := by
  rw [hdrains.seenReg_eq]
  exact landedRow_of_onto (P := fun row => row.z = 0#36) (fun x hx _ hold => onto_clean (hres x (List.mem_of_mem_filter hx)) hold) r
    (hclean r)

/-- An R-form instruction on clean registers runs all its repeats (R223, R231). -/
theorem aluRun_clean {i : VecFields} (hop : st.entry.insn.op = i.op) :
    (aluRun st c).2.2 = none ∧ (i.f ≠ .vquant → (aluRun st c).2.1 = c.mon) := by
  have hruns := runRepeats_keeps (c := c) (op := i.op) (icount := st.entry.icount)
    (P := fun _ res mon => (∀ x ∈ res, x.val.row.z = 0#36) ∧ (i.f ≠ .vquant → mon = c.mon))
    (fun k res mon ⟨hres, hmon⟩ => by
      obtain ⟨v, hv, hz, hkeeps⟩ := vecRepeat_clean i c.seed (coreVcid c.place) st.entry.icount k
        (seenReg_clean hclean hdrains hres) mon
      refine ⟨v, hv, fun x hx => ?_, fun hf => (hkeeps hf).trans (hmon hf)⟩
      rcases List.mem_append.mp hx with hx | hx
      · exact hres x hx
      · rw [List.mem_singleton.mp hx]
        exact hz)
    (vecCount i.op) (k := 0) (res := []) (mon := c.mon) ⟨by simp, fun _ => rfl⟩
  rw [← hop] at hruns
  obtain ⟨hnone, -, hmon⟩ := hruns
  exact ⟨hnone, hmon⟩

end

/-- One result gives its register its value, and no other register changes. -/
theorem landedRow_single (op : CoreOp) (v : VecVal) (n : Nat) (row : Row) :
    landedRow [repeatResult op 0 v] n row = if vecDest op % 64 = n % 64 then v.onto row else row := by
  have hreg : (repeatResult op 0 v).reg = vecDest op % 64 := rfl
  by_cases h : vecDest op % 64 = n % 64
  · rw [landedRow, List.filter_cons_of_pos (by rw [hreg]; exact decide_eq_true h), if_pos h]
    rfl
  · rw [landedRow, List.filter_cons_of_neg (by rw [hreg]; simpa using h), if_neg h]
    rfl

theorem getV_of_single {c c' : Core} {op : CoreOp} {v : VecVal} {d : Nat}
    (hget : ∀ n, getV c' n = landedRow [repeatResult op 0 v] n (getV c n)) (hd : vecDest op = d) (hlt : d < 64) :
    (∀ n, n % 64 ≠ d → getV c' n = getV c n) ∧ getV c' d = v.onto (getV c d) := by
  subst hd
  refine ⟨fun n hn => ?_, ?_⟩
  · rw [hget, landedRow_single, if_neg (by omega)]
  · rw [hget, landedRow_single, if_pos rfl]

/-! ### What one repeat gives -/

theorem rowByte_onto (v : VecVal) (old : Row) (i : Nat) : rowByte (v.onto old) i = rowByte v.row i := by
  rw [rowByte, v.onto_data, rowByte]

theorem rowWord_cleanData (ws : List W32) (old : Row) {lane : Nat} (hlane : lane < 32) :
    rowWord ((cleanData ws).onto old) lane = ws.getD lane 0#32 :=
  (rowWord_onto _ old lane).trans (rowWord_rowOfWords ws 0#128 0#36 hlane)

theorem getD_replicate_word (w : W32) {n lane : Nat} (hlane : lane < n) : (List.replicate n w).getD lane 0#32 = w := by
  rw [List.getD_eq_getElem?_getD, List.getElem?_replicate_of_lt hlane, Option.getD_some]

theorem getD_redWords (sub : BitVec 5) (a : Row) {lane : Nat} (hlane : lane < 32) :
    (redWords sub.toNat a).getD lane 0#32 =
      if lane = 0 then pairTree (if sub = 0#5 then fpAdd else fpMax) 5 (rowWords a) else 0#32 := by
  have hsub : sub.toNat = 0 ↔ sub = 0#5 := by rw [BitVec.toNat_eq, BitVec.toNat_zero]
  cases lane with
  | zero => simp only [redWords, List.getD_cons_zero, if_true, hsub]
  | succ lane => rw [redWords, List.getD_cons_succ, getD_replicate_word _ (by omega), if_neg (Nat.succ_ne_zero lane)]

theorem getD_deqWords (t : EType) (b : Nat) (a : Row) {lane : Nat} (hlane : lane < 32) :
    (deqWords t b a).getD lane 0#32 = dequant t (elemCode t a.data (32 * b + lane)) (scaleByte a.side b) := by
  rw [deqWords, List.getD_eq_getElem?_getD, List.getElem?_map, List.getElem?_range hlane, Option.map_some, Option.getD_some]

section
variable (a b c c2 : Row)

theorem rowByte_perm (nibble : Bool) {i : Nat} (hi : i < 128) :
    rowByte (permRow ((List.range 128).map (permPick nibble a b c c2)) a) i = (permPick nibble a b c c2 i).1 := by
  rw [rowByte_permRow _ _ hi, List.map_map, List.getD_eq_getElem?_getD, List.getElem?_map, List.getElem?_range hi, Option.map_some,
    Option.getD_some, Function.comp_apply]

/-- Each byte is the one that VC's byte names (R227). -/
theorem permPick_byte {i : Nat} (hi : i < 128) :
    let idx := (rowByte c i).toNat
    (permPick false a b c c2 i).1 = rowByte (if idx < 128 then a else b) (idx % 128) := by
  have hctl : (permByte c c i).1 = rowByte c i := by rw [permByte, ite_self, Nat.mod_eq_of_lt hi]
  simp only [permPick, Bool.false_eq_true, if_false, hctl]
  rfl

/-- Nibble j is the one that control byte j names (R227). -/
theorem permNibble_eq {j : Nat} (hj : j < 256) :
    let idx := (rowByte (if j / 128 = 0 then c else c2) (j % 128)).toNat
    (permNibble a c c2 j).1 = (rowByte a (idx / 2)).toNat / 16 ^ (idx % 2) % 16 := by
  intro idx
  have hidx : (permByte c c2 j).1.toNat = idx := by
    have hhalf : (j < 128) = (j / 128 = 0) := by rw [eq_iff_iff]; omega
    simp only [permByte, hhalf, idx]
  have hlt : idx < 256 := (rowByte (if j / 128 = 0 then c else c2) (j % 128)).isLt
  have hsrc : (permByte a a (idx / 2)).1 = rowByte a (idx / 2) := by rw [permByte, ite_self, Nat.mod_eq_of_lt (by omega)]
  have hbyte := (rowByte a (idx / 2)).isLt
  simp only [permNibble, hidx, hsrc]
  rcases Nat.mod_two_eq_zero_or_one idx with h | h
  · simp [h]
  · rw [if_neg (by omega), h, Nat.pow_one]
    omega

theorem permPick_nibble {j : Nat} : (permPick true a b c c2 (j / 2)).1.toNat / 16 ^ (j % 2) % 16 = (permNibble a c c2 j).1 := by
  have hlt : ∀ j, (permNibble a c c2 j).1 < 16 := by
    intro j
    have hbyte := (permByte a a ((permByte c c2 j).1.toNat / 2)).1.isLt
    unfold permNibble
    dsimp only
    split <;> omega
  obtain ⟨m, rfl | rfl⟩ := Nat.even_or_odd' j
  all_goals
    have hlo := hlt (2 * m)
    have hhi := hlt (2 * m + 1)
  · rw [show 2 * m / 2 = m by omega, show 2 * m % 2 = 0 by omega]
    simp only [permPick, if_true, BitVec.toNat_ofNat]
    omega
  · rw [show (2 * m + 1) / 2 = m by omega, show (2 * m + 1) % 2 = 1 by omega]
    simp only [permPick, if_true, BitVec.toNat_ofNat]
    omega

end

/-- One repeat lands its value in VD alone. -/
theorem getV_of_oneRepeat {c c1 c' : Core} {st : Started} {i : VecFields} (hop : st.entry.insn.op = i.op) (hrep : i.rep = 0#8)
    (hdrains : DrainsLanded c1) (hsame : getV c1 = getV c) (hget : ∀ n, getV c' n = landedRow (aluRun st c1).1 n (getV c n))
    {v : VecVal × FmtMon}
    (hv : vecRepeat i.op c1.seed (coreVcid c1.place) st.entry.icount 0 (fun _ => getV c) c1.mon = .ok v) :
    (∀ n, n % 64 ≠ i.vd.toNat → getV c' n = getV c n) ∧ getV c' i.vd.toNat = v.1.onto (getV c i.vd.toNat) := by
  have hrun := aluRun_single hdrains (st := st) (v := v) (by rw [hop, VecFields.op, hrep]; rfl) (by rw [hop, hsame]; exact hv)
  rw [hrun] at hget
  exact getV_of_single hget (by rw [hop]; rfl) i.vd.isLt

/-- VSPLAT starts, and its word lands in every lane of VD (R223). -/
theorem exists_vsplatStarted {site : Nat} {s : State} {st : Started} {c1 : Core} {vd : BitVec 6} {imm : W32}
    (hsite : siteOk site = true) (h : HeadStarts (getCore s site) .vector st c1) (hop : st.entry.insn.op = .vsplat vd imm)
    (hidle : VectorIdle (getCore s site)) :
    let c := getCore s site
    ∃ c', exec (.vsplat site) s = .next (atCore site (fun _ => c') s) ∧
      c' = { c1 with
        vec := { c.vec with regs := c'.vec.regs, lands := c'.vec.lands }, mon := c1.mon, started := c.started ++ [st]
        activity := { c.activity with vec := c.activity.vec + vecCount st.entry.insn.op } } ∧
      (∀ n, n % 64 ≠ vd.toNat → getV c' n = getV c n) ∧
      getV c' vd.toNat = (cleanData (List.replicate 32 imm)).onto (getV c vd.toNat) := by
  have hrun : aluRun st c1 = ([repeatResult st.entry.insn.op 0 (cleanData (List.replicate 32 imm))], c1.mon, none) :=
    aluRun_single (h.drainsLanded hidle.drainsLanded) (v := (cleanData (List.replicate 32 imm), c1.mon)) (by rw [hop]; rfl)
      (by rw [hop]; rfl)
  have hexec : exec (.vsplat site) s = onCore site (startVector (opByte st.entry.insn.op)) s := by rw [hop]; rfl
  obtain ⟨c', hnext, hframe, hget⟩ := exists_aluStarted hsite h hexec (by rw [hop]; rfl) (by rw [hop]; rfl) hidle (by rw [hrun])
  rw [hrun] at hget hframe
  exact ⟨c', hnext, hframe, getV_of_single hget (by rw [hop]; rfl) vd.isLt⟩

/-! ### The statement -/

/-- Settles O13: every repeat on clean registers succeeds, and one repeat lands its value in VD alone. -/
theorem vectorMovesAndConversions : Obligations.VectorMovesAndConversions := by
  unfold Obligations.VectorMovesAndConversions
  intro site s st c1 hsite h hidle hclean c starts
  have hsame : getV c1 = getV c := funext fun n => h.getV_eq n
  have hdrains := h.drainsLanded hidle.drainsLanded
  have hclean1 : ∀ n, (getV c1 n).z = 0#36 := by rwa [hsame]
  refine ⟨fun vd imm hop => ?_, fun f vd va vb vc rep sa sb sc sub hop => ?_⟩
  · obtain ⟨c', hnext, hframe, hother, hvd⟩ := exists_vsplatStarted hsite h hop hidle
    refine ⟨c', hnext, ?_, by rw [hframe, h.mon_eq], hother, by rw [hvd]; rfl, fun lane hlane => ?_⟩
    · rw [hframe]
    · rw [hvd, rowWord_cleanData _ _ hlane, getD_replicate_word _ hlane]
  · let i : VecFields := ⟨f, vd, va, vb, vc, rep, sa, sb, sc, sub⟩
    obtain ⟨hnone, hmon⟩ := aluRun_clean hclean1 hdrains (i := i) hop
    obtain ⟨c', hnext, hframe, hget⟩ := exists_vecStarted (i := i) hsite h hop hidle hnone
    refine ⟨c', hnext, ?_, fun hf => by rw [hframe, hmon hf, h.mon_eq], fun hrep => ?_⟩
    · rw [hframe]
    intro a r
    have hval {v : VecVal × FmtMon}
        (hv : vecRepeat i.op c1.seed (coreVcid c1.place) st.entry.icount 0 (fun _ => getV c) c1.mon = .ok v) :
        (∀ n, n % 64 ≠ vd.toNat → getV c' n = getV c n) ∧ r = v.1.onto (getV c vd.toNat) :=
      getV_of_oneRepeat (i := i) hop hrep hdrains hsame hget hv
    have hrd : ∀ t r : Nat, ((fun _ => getV c : Nat → Nat → Row) t r).z = 0#36 := fun _ => hclean
    have hvdeq (hf : f = .vdeq) : ∃ ws, r = (cleanData ws).onto (getV c vd.toNat) := by
      cases ht : etypeOfCode sub.toNat with
      | none => exact ⟨_, (hval (vecRepeat_noType (i := i) _ _ _ _ _ (.inr ⟨hf, ht⟩))).2⟩
      | some t => exact ⟨_, (hval (vecRepeat_vdeqClean (i := i) _ _ _ _ hrd _ hf ht)).2⟩
    have hperm (hf : f = .vperm) : r = permRow ((List.range 128).map (permPick (decide (sub = 1#5)) a (getV c vb.toNat)
        (getV c vc.toNat) (getV c (vc.toNat + 1)))) a := by
      have hrow := (hval (vecRepeat_vpermClean (i := i) _ _ _ _ hrd _ hf)).2
      rwa [i.srcA_zero, i.srcB_zero, i.srcC_zero] at hrow
    obtain ⟨v, hv, -, -⟩ := vecRepeat_clean i c1.seed (coreVcid c1.place) st.entry.icount 0 hrd c1.mon
    refine ⟨(hval hv).1, fun hf => (hval (vecRepeat_vmov (i := i) _ _ _ _ _ hf)).2.trans ?_, fun hf => ?_, fun hf => ?_,
      fun lane hlane => ⟨fun hf => ?_, fun hf => ?_, fun hf t ht => ?_⟩, fun hf hsub e he => ?_,
      fun hf hsub e he => ?_, fun hf hsub t ht => ?_⟩
    · rw [i.srcA_zero]
      rfl
    · rcases List.mem_cons.mp hf with hf | hf
      · rw [(hval (vecRepeat_vbcastClean (i := i) _ _ _ _ hrd _ hf)).2]
        rfl
      rcases List.mem_cons.mp hf with hf | hf
      · rw [(hval (vecRepeat_vredClean (i := i) _ _ _ _ hrd _ hf)).2]
        rfl
      · obtain ⟨ws, hws⟩ := hvdeq (List.mem_singleton.mp hf)
        rw [hws]
        rfl
    · rw [hperm hf]
      rfl
    · rw [(hval (vecRepeat_vbcastClean (i := i) _ _ _ _ hrd _ hf)).2, rowWord_cleanData _ _ hlane, getD_replicate_word _ hlane,
        i.srcA_zero]
    · rw [(hval (vecRepeat_vredClean (i := i) _ _ _ _ hrd _ hf)).2, rowWord_cleanData _ _ hlane, getD_redWords _ _ hlane, i.srcA_zero]
    · rw [(hval (vecRepeat_vdeqClean (i := i) _ _ _ _ hrd _ hf ht)).2, rowWord_cleanData _ _ hlane, getD_deqWords _ _ _ hlane]
      rfl
    · intro idx
      have hbytes : decide (sub = 1#5) = false := by rw [hsub]; rfl
      rw [hperm hf, rowByte_perm _ _ _ _ _ he, hbytes]
      exact permPick_byte a _ _ _ he
    · intro ctl idx
      have hctl : (if e / 128 = 0 then getV c vc.toNat else getV c (vc.toNat + 1)) = ctl := by
        rcases (by omega : e / 128 = 0 ∨ e / 128 = 1) with h | h <;> simp [ctl, h]
      rw [hperm hf, rowByte_perm _ _ _ _ _ (by omega), decide_eq_true hsub, permPick_nibble, permNibble_eq _ _ _ he, hctl]
    · obtain ⟨m, hm⟩ := vecRepeat_vquantNearest (i := i) c1.seed (coreVcid c1.place) st.entry.icount hrd c1.mon hf hsub ht
      rw [(hval hm).2]
      intro block
      exact ⟨fun j e hj he => elemCode_quantRow (src := fun j => rowWords (getV c (va.toNat + j))) (fun _ _ => none)
        (fun _ => by simp [rowWords]) hj he,
        fun j hj => scaleByte_quantRow (src := fun j => rowWords (getV c (va.toNat + j))) (fun _ _ => none) hj⟩

end Sys2Proof.Machine
end

section
/-!
PROOFS. Sync instructions and barriers (O18).
-/

namespace Sys2Proof.Machine

/-! ### Slots -/

/-- A post falls on its own slot alone (R174). -/
theorem getSlot_postSlot (c : Core) (m n : Nat) :
    getSlot (postSlot c m) n = { getSlot c n with posts := (getSlot c n).posts + if n = m then 1 else 0 } := by
  by_cases h : n = m
  · simp [postSlot, h]
  · simp [postSlot, h, getSlot_setSlot_other _ _ h]

/-- A release under its slot's own generation counts, and falls on that slot alone (R173). -/
theorem getSlot_releaseSlot_own (c : Core) (m n : Nat) :
    getSlot (releaseSlot c m (getSlot c m).gen) n =
      { getSlot c n with releases := (getSlot c n).releases + if n = m then 1 else 0 } := by
  rw [releaseSlot, if_pos rfl]
  by_cases h : n = m
  · simp [h]
  · simp [h, getSlot_setSlot_other _ _ h]

theorem releaseSlot_frame (c : Core) (n g : Nat) :
    releaseSlot c n g = { c with sync := { c.sync with slots := (releaseSlot c n g).sync.slots } } := by
  unfold releaseSlot
  split <;> rfl

/-- A slot as a completion leaves it (R156, R171, R173, R174). -/
def completedSlot (st : Started) (n : Nat) (q : Slot) : Slot :=
  { q with
    releases := q.releases + if q.gen = st.gen then oneOf st.entry.insn.wait n else 0
    posts := q.posts + oneOf st.entry.insn.post n }

theorem getSlot_completeEntry (c : Core) (st : Started) (n : Nat) :
    getSlot (completeEntry c st) n = completedSlot st n (getSlot c n) := completed_completeEntry c st n

/-- A slot set up since the admission, or not waited on, takes no release (R171). -/
theorem completedSlot_of_no_release {st : Started} {n : Nat} {q : Slot} (h : q.gen ≠ st.gen ∨ oneOf st.entry.insn.wait n = 0) :
    completedSlot st n q = { q with posts := q.posts + oneOf st.entry.insn.post n } := by
  rcases h with h | h <;> simp [completedSlot, h]

/-! ### The head of the sync queue -/

section
variable {c c1 : Core} {st : Started} (h : HeadStarts c .sync st c1)
include h

/-- A command of the sync unit that accepts the head runs it. -/
theorem HeadStarts.startSync_eq {ok : CoreOp → Bool} (hok : ok st.entry.insn.op = true) (run : Started → Core → Core) :
    startSync ok run c = run st c1 := by
  rw [startSync, h.takeHead_eq hok]

theorem HeadStarts.place_eq : c1.place = c.place := h.keeps Core.place (by simp)

/-- A start at the sync queue takes its entry and its admission, and nothing else (R155). -/
theorem HeadStarts.sync_eq : c1.sync = { c.sync with slots := c1.sync.slots } := by
  obtain ⟨rest, -, -, -, -, -, -, rfl⟩ := takeHead_some c .sync _ st c1 h
  rw [setQueue_sync, admitWait_frame]

/-- No BARRIER waits as a sync instruction starts (R270). -/
theorem HeadStarts.waiting_eq (heng : opEngine st.entry.insn.op = .sync) : c1.sync.waiting = none := by
  obtain ⟨rest, -, -, -, hfree, -⟩ := takeHead_some c .sync _ st c1 h
  rw [h.sync_eq]
  cases hop : st.entry.insn.op <;> simp_all [engineFree, opEngine]

theorem HeadStarts.getSlot_eq (n : Nat) :
    getSlot c1 n = { getSlot c n with admitted := (getSlot c n).admitted + oneOf st.entry.insn.wait n } := by
  obtain ⟨rest, -, -, -, -, -, -, rfl⟩ := takeHead_some c .sync _ st c1 h
  rw [getSlot, setQueue_sync, ← getSlot_admitWait]
  rfl

theorem HeadStarts.gen_eq : st.gen = waitGen c st.entry.insn.wait := by
  obtain ⟨rest, -, -, -, -, -, hgen, -⟩ := takeHead_some c .sync _ st c1 h
  exact hgen

/-- An instruction that counts on slots and completes counts those of its WAIT and POST fields with them (R155, R156). -/
theorem HeadStarts.slotCounts_completeEntry {b : Core} {adm rel post : Nat → Nat} (hb : SlotCounts c1 b adm rel post) :
    SlotCounts c (completeEntry b st) (fun n => oneOf st.entry.insn.wait n + adm n)
      (fun n => oneOf st.entry.insn.wait n + rel n) (fun n => oneOf st.entry.insn.post n + post n) := by
  intro n
  rw [getSlot_completeEntry, hb n, h.getSlot_eq n]
  simp only [completedSlot, h.gen_eq, release_of_waitGen, Slot.mk.injEq, true_and, and_true]
  omega

/-- The answer of a sync instruction that counts on slots and completes. -/
theorem HeadStarts.exists_counted {site : Nat} {s : State} {i : Instr} {f : Core → Core} {b : Core} {adm rel post : Nat → Nat}
    (hsite : siteOk site = true) (hc : getCore s site = c) (hexec : exec i s = onCore site f s) (hf : f c = completeEntry b st)
    (hframe : b = { c1 with sync := { c1.sync with slots := b.sync.slots } }) (hb : SlotCounts c1 b adm rel post) :
    ∃ c', exec i s = .next (atCore site (fun _ => c') s) ∧ c' = { c1 with sync := { c.sync with slots := c'.sync.slots } } ∧
      SlotCounts c c' (fun n => oneOf st.entry.insn.wait n + adm n) (fun n => oneOf st.entry.insn.wait n + rel n)
        (fun n => oneOf st.entry.insn.post n + post n) := by
  subst hc
  refine coreNext_of_onCore hsite hexec ?_
  rw [hf]
  refine ⟨?_, h.slotCounts_completeEntry hb⟩
  rw [completeEntry_frame, hframe, h.sync_eq]

end

/-! ### SSET -/

/-- A field of the rectangle word of an SSET, 0 with REMOTE 0 (R262, assumption 100). -/
def rectField (remote : BitVec 1) (rd : W48) (lo : Nat) : Nat := if remote = 1#1 then getField rd lo 6 else 0

/-- The slot that an SSET sets up (R261, R262). -/
def setupSlot (pc cc : BitVec 6) (ini remote : BitVec 1) (ra rd : W48) (old : Slot) : Slot :=
  { base := getField ra 0 15, rows := getField ra 15 15, pcount := pc.toNat + 1, ccount := cc.toNat + 1, full := decide (ini = 1#1),
    posted := 0, admitted := 0, released := 0, remote := decide (remote = 1#1), px0 := rectField remote rd 18
    py0 := rectField remote rd 12, pw := rectField remote rd 6, ph := rectField remote rd 0, posts := old.posts, releases := 0
    gen := old.gen + 1 }

section
variable {st : Started} {slot : BitVec 8} {sp : BitVec 5} {pc cc : BitVec 6} {ini remote : BitVec 1} {sd : BitVec 5}
  (hop : st.entry.insn.op = .sset slot sp pc cc ini remote sd)
include hop

theorem runSset_eq (c : Core) : runSset st c =
    let ra := st.entry.ra.value
    let rd := st.entry.rd.value
    let b := setSlot c slot.toNat (setupSlot pc cc ini remote ra rd (getSlot c slot.toNat))
    if getField ra 15 15 = 0 ∨ getField ra 0 15 + getField ra 15 15 > 24576 then entryFault c .slabRange st.entry
    else if remote = 1#1 ∧ rectBeyond c.place (rectField remote rd 18) (rectField remote rd 12) (rectField remote rd 6 + 1)
        (rectField remote rd 0 + 1) then entryFault c .fencedTarget st.entry
    else completeEntry (if ini = 0#1 ∧ remote = 1#1 then sendCredits b slot.toNat else b) st := by
  unfold runSset
  rw [hop]
  rfl

variable {c c1 : Core} (h : HeadStarts c .sync st c1)
include h

theorem startSset_eq : startSset c = runSset st c1 := h.startSync_eq (by rw [hop]; rfl) runSset

/-- An SSET without rows or past the slab (R263). -/
theorem startSset_slabRange (hrows : getField st.entry.ra.value 15 15 = 0 ∨
    24576 < getField st.entry.ra.value 0 15 + getField st.entry.ra.value 15 15) :
    startSset c = entryFault c1 .slabRange st.entry := by
  rw [startSset_eq hop h, runSset_eq hop]
  exact if_pos hrows

variable (hrows : getField st.entry.ra.value 15 15 ≠ 0)
  (hslab : getField st.entry.ra.value 0 15 + getField st.entry.ra.value 15 15 ≤ 24576)
include hrows hslab

/-- An SSET whose producers lie beyond the grid (R263). -/
theorem startSset_beyond (hremote : remote = 1#1)
    (hrect : ¬(rectField remote st.entry.rd.value 18 + rectField remote st.entry.rd.value 6 + 1 ≤ c.place.vw ∧
      rectField remote st.entry.rd.value 12 + rectField remote st.entry.rd.value 0 + 1 ≤ c.place.vh)) :
    startSset c = entryFault c1 .fencedTarget st.entry := by
  rw [startSset_eq hop h, runSset_eq hop]
  refine (if_neg (by omega)).trans (if_pos ⟨hremote, ?_⟩)
  simp only [rectBeyond, h.place_eq, Bool.or_eq_true, decide_eq_true_eq]
  omega

/-- The core after an SSET that sets its slot up, before it completes. -/
def setupCore (st : Started) (slot : BitVec 8) (pc cc : BitVec 6) (ini remote : BitVec 1) (c : Core) : Core :=
  let b := setSlot c slot.toNat (setupSlot pc cc ini remote st.entry.ra.value st.entry.rd.value (getSlot c slot.toNat))
  if ini = 0#1 ∧ remote = 1#1 then sendCredits b slot.toNat else b

theorem startSset_sets (hgrid : remote = 1#1 →
    rectField remote st.entry.rd.value 18 + rectField remote st.entry.rd.value 6 + 1 ≤ c.place.vw ∧
      rectField remote st.entry.rd.value 12 + rectField remote st.entry.rd.value 0 + 1 ≤ c.place.vh) :
    startSset c = completeEntry (setupCore st slot pc cc ini remote c1) st := by
  rw [startSset_eq hop h, runSset_eq hop]
  refine (if_neg (by omega)).trans (if_neg fun ⟨hremote, hbeyond⟩ => ?_)
  have hin := hgrid hremote
  simp only [rectBeyond, h.place_eq, Bool.or_eq_true, decide_eq_true_eq] at hbeyond
  omega

end

section
variable (st : Started) (slot : BitVec 8) (pc cc : BitVec 6) (ini remote : BitVec 1) (c : Core)

theorem getSlot_setupCore (k : Nat) : getSlot (setupCore st slot pc cc ini remote c) k =
    if k = slot.toNat then setupSlot pc cc ini remote st.entry.ra.value st.entry.rd.value (getSlot c slot.toNat) else getSlot c k := by
  have hset : getSlot (setupCore st slot pc cc ini remote c) k =
      getSlot (setSlot c slot.toNat
        (setupSlot pc cc ini remote st.entry.ra.value st.entry.rd.value (getSlot c slot.toNat))) k := by
    unfold setupCore
    dsimp only
    split <;> rfl
  rw [hset]
  split
  · next hk => rw [hk, getSlot_setSlot_same]
  · next hk => exact getSlot_setSlot_other _ _ hk

/-- Only a remote slot that starts EMPTY sends credits, one for each core of its producers' rectangle (R178, R262). -/
theorem setupCore_frame : setupCore st slot pc cc ini remote c = { c with
    sync := { c.sync with
      slots := (setupCore st slot pc cc ini remote c).sync.slots
      creditsSent := if ini = 0#1 ∧ remote = 1#1 then
        (c.sync.creditsSent + (rectField remote st.entry.rd.value 6 + 1) * (rectField remote st.entry.rd.value 0 + 1)) % 2 ^ 32
        else c.sync.creditsSent }
    out := (setupCore st slot pc cc ini remote c).out } := by
  unfold setupCore
  dsimp only
  split
  · rw [sendCredits_eq]
    simp only [sendCredits, sendPkts_sync, getSlot_setSlot_same]
    rfl
  · rfl

theorem setupCore_out : (setupCore st slot pc cc ini remote c).out = c.out ++ if ini = 0#1 ∧ remote = 1#1 then
    [creditPkt (setSlot c slot.toNat
      (setupSlot pc cc ini remote st.entry.ra.value st.entry.rd.value (getSlot c slot.toNat))) slot.toNat] else [] := by
  unfold setupCore
  dsimp only
  split
  · rfl
  · exact (List.append_nil _).symm

end

section
variable {c c1 : Core} {st : Started} (h : HeadStarts c .sync st c1) (slot : BitVec 8) (pc cc : BitVec 6) (ini remote : BitVec 1)
include h

/-- A slot set up has no admission and no release from before, and the instruction's own admission on it is one from before (R171). -/
theorem getSlot_set_same : getSlot (completeEntry (setupCore st slot pc cc ini remote c1) st) slot.toNat =
    { setupSlot pc cc ini remote st.entry.ra.value st.entry.rd.value (getSlot c slot.toNat) with
      posts := (getSlot c slot.toNat).posts + oneOf st.entry.insn.post slot.toNat } := by
  rw [getSlot_completeEntry, getSlot_setupCore, if_pos rfl, h.getSlot_eq, completedSlot_of_no_release]
  · rfl
  · rw [h.gen_eq, waitGen, oneOf]
    by_cases hw : st.entry.insn.wait ≠ 0xFF#8 ∧ slot.toNat = st.entry.insn.wait.toNat
    · rw [if_neg hw.1, ← hw.2]
      exact .inl (Nat.succ_ne_self _)
    · exact .inr (if_neg hw)

theorem getSlot_set_other {k : Nat} (hk : k ≠ slot.toNat) :
    getSlot (completeEntry (setupCore st slot pc cc ini remote c1) st) k = { getSlot c k with
      admitted := (getSlot c k).admitted + oneOf st.entry.insn.wait k
      releases := (getSlot c k).releases + oneOf st.entry.insn.wait k
      posts := (getSlot c k).posts + oneOf st.entry.insn.post k } := by
  rw [getSlot_completeEntry, getSlot_setupCore, if_neg hk, h.getSlot_eq]
  simp only [completedSlot, h.gen_eq, release_of_waitGen]

end

/-! ### SWAIT, SPOST and SFREE -/

section
variable {c c1 : Core} {st : Started} (h : HeadStarts c .sync st c1) {slot : BitVec 8}
include h

/-- The core as an SWAIT takes its slot's admission and gives it back (R264). -/
def waitedCore (c : Core) (n : Nat) : Core :=
  let b := setSlot c n { getSlot c n with admitted := (getSlot c n).admitted + 1 }
  releaseSlot b n (getSlot b n).gen

theorem startSwait_eq (hop : st.entry.insn.op = .swait slot) (hturn : slotTurn c .sync slot = true) :
    startSwait c = completeEntry (waitedCore c1 slot.toNat) st := by
  rw [startSwait, h.startSync_eq (by rw [hop]; exact hturn), runSwait, hop, waitedCore, getSlot_setSlot_same]

theorem startSpost_eq (hop : st.entry.insn.op = .spost slot) : startSpost c = completeEntry (postSlot c1 slot.toNat) st := by
  rw [startSpost, h.startSync_eq (by rw [hop]; rfl), runSpost, hop]

theorem startSfree_eq (hop : st.entry.insn.op = .sfree slot) :
    startSfree c = completeEntry (releaseSlot c1 slot.toNat (getSlot c1 slot.toNat).gen) st := by
  rw [startSfree, h.startSync_eq (by rw [hop]; rfl), runSfree, hop]

end

/-- The count of one slot alone. -/
def onlySlot (m n : Nat) : Nat := if n = m then 1 else 0

theorem waitedCore_frame (c : Core) (n : Nat) :
    waitedCore c n = { c with sync := { c.sync with slots := (waitedCore c n).sync.slots } } := by
  unfold waitedCore
  rw [releaseSlot_frame]
  rfl

theorem slotCounts_waitedCore (c : Core) (m : Nat) : SlotCounts c (waitedCore c m) (onlySlot m) (onlySlot m) fun _ => 0 := by
  intro n
  unfold waitedCore
  rw [getSlot_releaseSlot_own]
  by_cases hn : n = m
  · simp [onlySlot, hn]
  · simp [onlySlot, hn, getSlot_setSlot_other _ _ hn]

theorem slotCounts_postSlot (c : Core) (m : Nat) : SlotCounts c (postSlot c m) (fun _ => 0) (fun _ => 0) (onlySlot m) :=
  getSlot_postSlot c m

theorem slotCounts_releaseSlot_own (c : Core) (m : Nat) :
    SlotCounts c (releaseSlot c m (getSlot c m).gen) (fun _ => 0) (onlySlot m) fun _ => 0 := getSlot_releaseSlot_own c m

/-! ### BARRIER -/

/-- The core with one barrier of that ID counted (R267). -/
def barrierCounted (id : Nat) (c : Core) : Core :=
  { c with sync := { c.sync with ordinals := smSet 0 c.sync.ordinals id (smGet 0 c.sync.ordinals id + 1) } }

/-- The core with a BARRIER of that ID under way: counted, and waiting for its release (R267, R270). -/
def barrierWaits (st : Started) (id : Nat) (c : Core) : Core :=
  { barrierCounted id c with sync := { (barrierCounted id c).sync with waiting := some (st, smGet 0 c.sync.ordinals id) } }

theorem smGet_barrierCounted (id : Nat) (c : Core) (k : Nat) :
    smGet 0 (barrierCounted id c).sync.ordinals k = smGet 0 c.sync.ordinals k + if k = id then 1 else 0 := by
  rw [barrierCounted, smGet_smSet]
  split
  · next hk => rw [hk]
  · rfl

section
variable {c c1 : Core} {st : Started} (h : HeadStarts c .sync st c1) {b : BitVec 16} (hop : st.entry.insn.op = .barrier b)
include h

theorem HeadStarts.regionSize_eq : regionSize c1 = regionSize c := by rw [regionSize, h.sync_eq, regionSize]

theorem HeadStarts.leaderSite_eq : leaderSite c1 = leaderSite c := by
  rw [leaderSite, h.sync_eq, h.place_eq, leaderSite]

theorem HeadStarts.ordinals_eq : c1.sync.ordinals = c.sync.ordinals := by rw [h.sync_eq]

theorem HeadStarts.tallies_eq : c1.sync.tallies = c.sync.tallies := by rw [h.sync_eq]

theorem HeadStarts.barrierDrops_eq : c1.sync.barrierDrops = c.sync.barrierDrops := by rw [h.sync_eq]

include hop

theorem startBarrier_alone (hsize : regionSize c = 1) : startBarrier c = completeEntry (barrierCounted b.toNat c1) st := by
  rw [startBarrier, h.startSync_eq (by rw [hop]; rfl), runBarrier, hop]
  exact if_pos (h.regionSize_eq.trans hsize)

variable (hsize : regionSize c ≠ 1)
include hsize

theorem startBarrier_member (hleader : leaderSite c ≠ c.place.site) :
    startBarrier c = sendPkts (barrierWaits st b.toNat c1)
      [{ mkPkt c1 .barrier (leaderSite c) with ident := (b.toNat, smGet 0 c.sync.ordinals b.toNat) }] := by
  rw [startBarrier, h.startSync_eq (by rw [hop]; rfl), runBarrier, hop]
  refine (if_neg (by rwa [h.regionSize_eq])).trans ((if_neg ?_).trans ?_)
  · rwa [h.leaderSite_eq, h.place_eq]
  · rw [h.leaderSite_eq, ← h.ordinals_eq]
    rfl

theorem startBarrier_leader (hleader : leaderSite c = c.place.site) :
    startBarrier c =
      tallyArrival c.place.site b.toNat (smGet 0 c.sync.ordinals b.toNat) (barrierWaits st b.toNat c1) := by
  rw [startBarrier, h.startSync_eq (by rw [hop]; rfl), runBarrier, hop]
  refine (if_neg (by rwa [h.regionSize_eq])).trans ((if_pos ?_).trans ?_)
  · rwa [h.leaderSite_eq, h.place_eq]
  · rw [← h.place_eq, ← h.ordinals_eq]
    rfl

end

/-- An arrival reaches the tallies, the count of dropped ones, and what the leader sends (R267, R268). -/
theorem tallyArrival_frame (site id ord : Nat) (c : Core) : tallyArrival site id ord c = { c with
    sync := { c.sync with
      tallies := (tallyArrival site id ord c).sync.tallies, barrierDrops := (tallyArrival site id ord c).sync.barrierDrops }
    out := (tallyArrival site id ord c).out } := by
  rw [tallyArrival_eq]
  split
  · rfl
  · split <;> rfl

section
variable {c d : Core} (h : d.sync.tallies = c.sync.tallies) (id ord : Nat)
include h

theorem heldTally_congr : heldTally d id ord = heldTally c id ord := by rw [heldTally, h, heldTally]

theorem otherTallies_congr : otherTallies d id ord = otherTallies c id ord := by rw [otherTallies, h, otherTallies]

theorem heardSites_congr (site : Nat) : heardSites d site id ord = heardSites c site id ord := by
  rw [heardSites, heldTally_congr h, heardSites]

end

section
variable {c c1 : Core} {st : Started} (h : HeadStarts c .sync st c1) {b : BitVec 16} (hop : st.entry.insn.op = .barrier b)
include h hop

/-- A BARRIER reaches its core's slots, its barriers and what the core sends. -/
theorem startBarrier_frame : startBarrier c = { c1 with
    sync := { c1.sync with
      slots := (startBarrier c).sync.slots, ordinals := (startBarrier c).sync.ordinals, waiting := (startBarrier c).sync.waiting
      tallies := (startBarrier c).sync.tallies, barrierDrops := (startBarrier c).sync.barrierDrops }
    out := (startBarrier c).out } := by
  by_cases hsize : regionSize c = 1
  · rw [startBarrier_alone h hop hsize, completeEntry_frame]
    rfl
  · by_cases hleader : leaderSite c = c.place.site
    · rw [startBarrier_leader h hop hsize hleader, tallyArrival_frame]
      rfl
    · rw [startBarrier_member h hop hsize hleader]
      rfl

/-- Each BARRIER is one more with its ID (R267). -/
theorem startBarrier_ordinals (k : Nat) :
    smGet 0 (startBarrier c).sync.ordinals k = smGet 0 c.sync.ordinals k + if k = b.toNat then 1 else 0 := by
  rw [← h.ordinals_eq, ← smGet_barrierCounted]
  by_cases hsize : regionSize c = 1
  · rw [startBarrier_alone h hop hsize, completeEntry_frame]
  · by_cases hleader : leaderSite c = c.place.site
    · rw [startBarrier_leader h hop hsize hleader, tallyArrival_frame]
      rfl
    · rw [startBarrier_member h hop hsize hleader]
      rfl

/-- A BARRIER that is not alone in its region waits for its release, with its ordinal (R267, R270). -/
theorem startBarrier_waiting (hsize : regionSize c ≠ 1) :
    (startBarrier c).sync.waiting = some (st, smGet 0 c.sync.ordinals b.toNat) ∧
      (startBarrier c).sync.slots = c1.sync.slots := by
  by_cases hleader : leaderSite c = c.place.site
  · rw [startBarrier_leader h hop hsize hleader, tallyArrival_frame, ← h.ordinals_eq]
    exact ⟨rfl, rfl⟩
  · rw [startBarrier_member h hop hsize hleader, ← h.ordinals_eq]
    exact ⟨rfl, rfl⟩

end

/-- The leader's own arrival: dropped without a tally to hold it, the last of its region, or tallied with those heard before it
(R267, R268). -/
theorem barrierWaits_arrival {c c1 : Core} {st : Started} (h : HeadStarts c .sync st c1) (hout : c1.out = c.out) (id ord site : Nat) :
    let c' := tallyArrival site id ord (barrierWaits st id c1)
    let full := heldTally c id ord = none ∧ 8 ≤ c.sync.tallies.length
    (full → c'.sync.tallies = c.sync.tallies ∧ c'.out = c.out ∧ c'.sync.barrierDrops = sat16 c.sync.barrierDrops 1) ∧
      (¬full → (heardSites c site id ord).length = regionSize c → c'.sync.tallies = otherTallies c id ord ∧
        ∃ p, c'.out = c.out ++ [p] ∧ p.typ = .barrier ∧ p.mcast = true ∧ p.release = true ∧ p.ident = (id, ord)) ∧
      (¬full → (heardSites c site id ord).length ≠ regionSize c → c'.out = c.out ∧
        c'.sync.tallies = otherTallies c id ord ++ [{ id := id, ordinal := ord, arrived := heardSites c site id ord }]) := by
  intro c' full
  have htallies : (barrierWaits st id c1).sync.tallies = c.sync.tallies := h.tallies_eq
  have hregion : regionSize (barrierWaits st id c1) = regionSize c := h.regionSize_eq
  have hfull : (heldTally (barrierWaits st id c1) id ord = none ∧ 8 ≤ (barrierWaits st id c1).sync.tallies.length) = full := by
    rw [heldTally_congr htallies, htallies]
  have hdropped := tallyArrival_full (site := site) (id := id) (ord := ord) (c := barrierWaits st id c1)
  have hroom := tallyArrival_room (site := site) (id := id) (ord := ord) (c := barrierWaits st id c1)
  rw [hfull] at hdropped hroom
  rw [heardSites_congr htallies, otherTallies_congr htallies, hregion] at hroom
  refine ⟨fun hf => ?_, fun hf hlast => ?_, fun hf hmore => ?_⟩
  · rw [show c' = _ from hdropped hf]
    exact ⟨htallies, hout, congrArg (sat16 · 1) h.barrierDrops_eq⟩
  · rw [show c' = _ from (hroom hf).trans (if_pos hlast)]
    exact ⟨rfl, releasePkt (barrierWaits st id c1) id ord, congrArg (· ++ _) hout, rfl, rfl, rfl, rfl⟩
  · rw [show c' = _ from (hroom hf).trans (if_neg hmore)]
    exact ⟨hout, rfl⟩

/-! ### The statement -/

/-- Settles O18: each sync instruction counts on slots and completes, sets a slot up, or is one barrier more, at its leader or on the
way there. -/
theorem syncInstructionsAndBarriers : Obligations.SyncInstructionsAndBarriers := by
  unfold Obligations.SyncInstructionsAndBarriers
  constructor
  · intro site s st c1 hsite h c w p at_ next counts
    refine ⟨fun slot sp pc cc ini remote sd hop => ?_, fun slot hop hturn => ?_, fun slot hop => ?_, fun slot hop => ?_⟩
    · intro base rows far inGrid
      refine ⟨fun hrows hslab hgrid => ?_, fun hnone => ⟨fun hrange => ?_, fun hrows hslab hgrid => ?_⟩⟩
      · refine coreNext_of_onCore hsite (f := startSset) rfl ?_
        rw [startSset_sets hop h hrows hslab hgrid]
        have hout : (completeEntry (setupCore st slot pc cc ini remote c1) st).out = _ :=
          (completeEntry_out _ st).trans (setupCore_out st slot pc cc ini remote c1)
        rw [h.keeps Core.out (by simp)] at hout
        refine ⟨?_, getSlot_set_same h slot pc cc ini remote, fun k hk => getSlot_set_other h slot pc cc ini remote hk,
          fun hcredits => ?_, fun hcredits => ?_⟩
        · rw [completeEntry_frame, setupCore_frame, h.sync_eq]
          rfl
        · exact ⟨_, hout.trans (by rw [if_pos hcredits]), rfl, rfl⟩
        · exact hout.trans (by rw [if_neg hcredits, List.append_nil])
      · exact coreFaults_of_onCore hsite h (f := startSset) rfl (startSset_slabRange hop h hrange) rfl (by rw [hop]; rfl) hnone
      · obtain ⟨hremote, hrect⟩ := Classical.not_imp.mp hgrid
        exact coreFaults_of_onCore hsite h (f := startSset) rfl (startSset_beyond hop h hrows hslab hremote hrect) rfl
          (by rw [hop]; rfl) hnone
    · exact h.exists_counted hsite rfl (f := startSwait) rfl (startSwait_eq h hop hturn) (waitedCore_frame c1 slot.toNat)
        (slotCounts_waitedCore c1 slot.toNat)
    · exact h.exists_counted hsite rfl (f := startSpost) rfl (startSpost_eq h hop) rfl (slotCounts_postSlot c1 slot.toNat)
    · exact h.exists_counted hsite rfl (f := startSfree) rfl (startSfree_eq h hop) (releaseSlot_frame c1 slot.toNat _)
        (slotCounts_releaseSlot_own c1 slot.toNat)
  · intro site s st c1 b hsite h hop c id ord held others heard
    refine coreNext_of_onCore hsite (f := startBarrier) rfl ?_
    have hout : c1.out = c.out := h.keeps Core.out (by simp)
    refine ⟨startBarrier_frame h hop, startBarrier_ordinals h hop, fun hsize => ?_, startBarrier_waiting h hop,
      fun hsize hleader => ?_, fun hsize hleader => ?_⟩
    · rw [startBarrier_alone h hop hsize]
      refine ⟨?_, (completeEntry_out _ st).trans hout, ?_, completed_completeEntry _ st⟩
      · rw [completeEntry_frame]
        exact h.waiting_eq (by rw [hop]; rfl)
      · rw [completeEntry_frame]
        exact h.tallies_eq
    · rw [startBarrier_member h hop hsize hleader]
      exact ⟨h.tallies_eq, _, congrArg (· ++ _) hout, rfl, rfl, rfl, rfl⟩
    · rw [startBarrier_leader h hop hsize hleader]
      exact barrierWaits_arrival h hout b.toNat ord c.place.site

end Sys2Proof.Machine
end

section
/-!
PROOFS. Transfers at the slab ports (O30, O31): the cells of a row, and what slab reads and writes move.
-/

namespace Sys2Proof.Machine

/-! ### Fields of a word -/

theorem getLsbD_setField_same {n : Nat} (x : BitVec n) {lo len v i : Nat} (hlo : lo ≤ i) (hi : i < lo + len) (hn : i < n) :
    (setField x lo len v).getLsbD i = v.testBit (i - lo) := by
  have hmask : (BitVec.ofNat n (2 ^ len - 1) <<< lo).getLsbD i = true := by
    rw [BitVec.getLsbD_shiftLeft, BitVec.getLsbD_ofNat, Nat.testBit_two_pow_sub_one]
    simp [hn, Nat.not_lt.mpr hlo, show i - lo < n by omega, show i - lo < len by omega]
  have hvalue : (BitVec.ofNat n (v % 2 ^ len) <<< lo).getLsbD i = v.testBit (i - lo) := by
    rw [BitVec.getLsbD_shiftLeft, BitVec.getLsbD_ofNat, Nat.testBit_mod_two_pow]
    simp [hn, Nat.not_lt.mpr hlo, show i - lo < n by omega, show i - lo < len by omega]
  simp [setField, hmask, hvalue]

/-- A field written reads back as what was written. -/
theorem extractLsb'_setField_same {n : Nat} (x : BitVec n) {lo len : Nat} (v : BitVec len) (h : lo + len ≤ n) :
    (setField x lo len v.toNat).extractLsb' lo len = v := by
  apply BitVec.eq_of_getLsbD_eq
  intro i hi
  rw [BitVec.getLsbD_extractLsb', getLsbD_setField_same x (by omega) (by omega) (by omega), Nat.add_sub_cancel_left, BitVec.testBit_toNat, decide_eq_true hi, Bool.true_and]

/-- A field apart from the one written reads as before. -/
theorem extractLsb'_setField_other {n : Nat} (x : BitVec n) {lo len v lo' len' : Nat} (h : lo' + len' ≤ lo ∨ lo + len ≤ lo') :
    (setField x lo len v).extractLsb' lo' len' = x.extractLsb' lo' len' := by
  apply BitVec.eq_of_getLsbD_eq
  intro i hi
  rw [BitVec.getLsbD_extractLsb', BitVec.getLsbD_extractLsb', getLsbD_setField_other x (by omega)]

/-! ### The cells of a row -/

/-- Word i of a row with its crazed bit. -/
def rowCell (r : Row) (i : Nat) : W32 × Bool := (rowAny r i, rowZ r i)

theorem rowAny_rowSetAny (r : Row) {i j : Nat} (v : W32) (z : Bool) (hi : i < 36) :
    rowAny (rowSetAny r i v z) j = if j = i then v else rowAny r j := by
  by_cases hij : j = i
  · subst hij
    by_cases hj : j < 32
    · simp only [rowAny, rowWord, rowSetAny, hj, if_true]
      exact extractLsb'_setField_same r.data v (by omega)
    · simp only [rowAny, rowSide, rowSetAny, hj, if_false, if_true]
      exact extractLsb'_setField_same r.side v (by omega)
  · rw [if_neg hij]
    by_cases hj : j < 32 <;> by_cases hi' : i < 32 <;> simp only [rowAny, rowWord, rowSide, rowSetAny, hj, hi', if_true, if_false]
    · exact extractLsb'_setField_other _ (by omega)
    · exact extractLsb'_setField_other _ (by omega)

theorem rowZ_rowSetAny (r : Row) {i j : Nat} (v : W32) (z : Bool) (hi : i < 36) :
    rowZ (rowSetAny r i v z) j = if j = i then z else rowZ r j := by
  simp only [rowZ, rowSetAny]
  split
  · next hij =>
    rw [hij, getLsbD_setField_same r.z (Nat.le_refl i) (Nat.lt_succ_self i) hi]
    cases z <;> simp
  · next hij => exact getLsbD_setField_other r.z (by omega)

/-- A cell written is read back, and no other cell changes. -/
theorem rowCell_rowSetAny (r : Row) {i j : Nat} (v : W32) (z : Bool) (hi : i < 36) :
    rowCell (rowSetAny r i v z) j = if j = i then (v, z) else rowCell r j := by
  rw [rowCell, rowAny_rowSetAny r v z hi, rowZ_rowSetAny r v z hi]
  split <;> rfl

theorem rowCell_data (r : Row) {i : Nat} (hi : i < 32) : rowCell r i = (rowWord r i, rowZ r i) := by
  rw [rowCell, rowAny, if_pos hi]

/-- A row built cell by cell, cell k + i from the i-th of a list, holds the list's cells. -/
theorem rowCell_foldl_rowSetAny {β : Type} (g : β → W32 × Bool) (l : List β) (k : Nat) (r : Row) (hl : k + l.length ≤ 36) (j : Nat) :
    rowCell ((l.zipIdx k).foldl (fun acc x => rowSetAny acc x.2 (g x.1).1 (g x.1).2) r) j =
      if k ≤ j then ((l[j - k]?).map g).getD (rowCell r j) else rowCell r j := by
  induction l generalizing k r with
  | nil => simp
  | cons x l ih =>
    rw [List.length_cons] at hl
    rw [List.zipIdx_cons, List.foldl_cons, ih (k + 1) _ (by omega), rowCell_rowSetAny r _ _ (by omega)]
    rcases Nat.lt_trichotomy j k with hj | hj | hj
    · simp [show ¬k + 1 ≤ j by omega, show ¬k ≤ j by omega, show j ≠ k by omega]
    · simp [hj]
    · obtain ⟨m, rfl⟩ : ∃ m, j = k + 1 + m := ⟨j - (k + 1), by omega⟩
      simp [show k ≤ k + 1 + m by omega, show k + 1 + m ≠ k by omega, show k + 1 + m - k = m + 1 by omega]

/-! ### Slab reads -/

/-- A word of the slab as it is read, with its crazed bit (R129, R130). -/
def slabCell (c : Core) (r s : Nat) : W32 × Bool := ((secDecode (getWord c r s)).data, (secDecode (getWord c r s)).crazed)

/-- What reads count may change: the counters of decoding, and events for the fault history (R133). -/
def readCounted (c d : Core) : Core :=
  { c with slab := { c.slab with ce := d.slab.ce, ue := d.slab.ue, lastErr := d.slab.lastErr }, events := d.events }

theorem readWord_fst (c : Core) (r s : Nat) : (readWord c r s).1 = secDecode (getWord c r s) := by
  unfold readWord
  dsimp only
  split
  · rfl
  · split <;> rfl

theorem readWord_frame (c : Core) (r s : Nat) : (readWord c r s).2 = readCounted c (readWord c r s).2 := by
  unfold readWord
  dsimp only
  split
  · rfl
  · split <;> rfl

theorem slabCell_congr {c d : Core} (h : d.slab.words = c.slab.words) (r s : Nat) : slabCell d r s = slabCell c r s := by
  simp only [slabCell, getWord, h]

theorem readWords_frame (r : Nat) (l : List Nat) (c : Core) (acc : Row) :
    (readWords r l c acc).2 = readCounted c (readWords r l c acc).2 := by
  induction l generalizing c acc with
  | nil => rfl
  | cons s l ih =>
    rw [readWords, ih, readWord_frame]
    rfl

/-- The cells that are read are those of the slab's words, and the row keeps its others. -/
theorem rowCell_readWords (r : Nat) (l : List Nat) (hl : ∀ s ∈ l, s < 36) (c : Core) (acc : Row) (i : Nat) :
    rowCell (readWords r l c acc).1 i = if i ∈ l then slabCell c r i else rowCell acc i := by
  induction l generalizing c acc with
  | nil => rfl
  | cons s l ih =>
    obtain ⟨hs, hl⟩ := List.forall_mem_cons.mp hl
    rw [readWords, ih hl, slabCell_congr (readWord_words c r s), readWord_fst, rowCell_rowSetAny _ _ _ hs]
    by_cases hi : i = s
    · subst hi
      simp [slabCell]
    · simp [hi]

theorem sideWords_le (side : Bool) : sideWords side ≤ 4 := by cases side <;> decide

/-- A row read counts one access and brings the row's words (R117, R119). -/
theorem readRow_spec (c : Core) (r n : Nat) (hn : n ≤ 4) :
    (readRow c r n).2 = readCounted (countSlab c 1) (readRow c r n).2 ∧
      ∀ i, i < 32 + n → rowCell (readRow c r n).1 i = slabCell c r i := by
  refine ⟨readWords_frame .., fun i hi => ?_⟩
  rw [readRow, rowCell_readWords r _ (fun s hs => by have := List.mem_range.mp hs; omega), if_pos (show i ∈ rowSegs n from List.mem_range.mpr hi)]
  exact slabCell_congr rfl r i

end Sys2Proof.Machine
end

section
/-!
PROOFS. Answers to transfers, and the grants that read for them (O31).
-/

namespace Sys2Proof.Machine

/-! ### Delivery -/

section
variable {i site : Nat} {s : State} {p : Packet} (hsite : siteOk site = true)
  (harrived : s.mesh.arrived[i]? = some { place := site, pkt := p }) (hopen : closedFor s site p = false)
include hsite harrived hopen

/-- A packet that its open port takes is one update of its core. -/
theorem exec_delivered {typ : PktType} {f : Nat → Packet → Core → Core} {ins : Instr} {c' : Core} (htyp : p.typ = typ)
    (hexec : exec ins s = answer true (deliver [typ] anyPacket f i s)) (hf : f site p (getCore s site) = c') :
    exec ins s = .next (atCore site (fun _ => c') (withoutArrived i s)) := by
  rw [hexec, deliver_core hsite harrived (by simp [htyp]) rfl hopen hf]
  rfl

end

/-! ### The transfers that a packet answers -/

/-- Does a packet answer this transfer? -/
abbrev Answers (p : Packet) (x : XferJob) : Prop := x.tag = p.tag ∧ some x.st.entry.icount = p.xid

theorem map_answered_none {p : Packet} {l : List XferJob} (h : ∀ x ∈ l, ¬Answers p x) (f : XferJob → XferJob) :
    l.map (fun j => if j.tag = p.tag ∧ some j.st.entry.icount = p.xid then f j else j) = l := by
  rw [List.map_congr_left fun x hx => if_neg (show ¬(_ ∧ _) from h x hx), List.map_id']

/-- A packet that answers no transfer changes none. -/
theorem modXfer_none {c : Core} {p : Packet} (h : ∀ x ∈ c.xfer.jobs, ¬Answers p x) (f : XferJob → XferJob) : modXfer c p f = c := by
  rw [modXfer, map_answered_none h]

theorem findXfer_none {c : Core} {p : Packet} (h : ∀ x ∈ c.xfer.jobs, ¬Answers p x) : findXfer c p = none := by
  simpa only [findXfer, List.find?_eq_none, Bool.and_eq_true, decide_eq_true_eq] using h

section
variable {c : Core} {p : Packet} {l1 l2 : List XferJob} {j : XferJob} (hjobs : c.xfer.jobs = l1 ++ j :: l2) (hj : Answers p j)
  (hothers : ∀ x ∈ l1 ++ l2, ¬Answers p x)
include hjobs hj hothers

/-- A packet that answers one transfer changes that one. -/
theorem modXfer_single (f : XferJob → XferJob) : modXfer c p f = { c with xfer := { c.xfer with jobs := l1 ++ f j :: l2 } } := by
  rw [modXfer, hjobs, List.map_append, List.map_cons, map_answered_none fun x hx => hothers x (List.mem_append_left _ hx),
    map_answered_none fun x hx => hothers x (List.mem_append_right _ hx), if_pos hj]

theorem findXfer_single : findXfer c p = some j := by
  rw [findXfer, hjobs, List.find?_append, List.find?_eq_none.mpr, Option.none_or, List.find?_cons_of_pos]
  · simpa only [Bool.and_eq_true, decide_eq_true_eq] using hj
  · simpa only [Bool.and_eq_true, decide_eq_true_eq] using fun x hx => hothers x (List.mem_append_left _ hx)

theorem receiveAck_single : receiveAck p c = { c with xfer := { c.xfer with
    jobs := l1 ++ (if j.waitAcks = [] then { j with hbmAcks := j.hbmAcks - 1 }
      else { j with waitAcks := j.waitAcks.filter fun x => !decide (x = p.src) }) :: l2 } } := by
  rw [receiveAck, modXfer_single hjobs hj hothers]
  simp only [List.isEmpty_iff]

/-- A NACK counts, marks its transfer and faults it (R630). -/
theorem receiveNack_single : receiveNack p c = entryFault { c with xfer := { c.xfer with
    refused := min 65535 (c.xfer.refused + 1), jobs := l1 ++ { j with nacked := true } :: l2 } } (nackFault p.status) j.st.entry := by
  rw [receiveNack]
  dsimp only
  rw [findXfer_single (c := { c with xfer := { c.xfer with refused := sat16 c.xfer.refused 1 } }) hjobs hj hothers]
  dsimp only
  rw [modXfer_single (c := { c with xfer := { c.xfer with refused := sat16 c.xfer.refused 1 } }) hjobs hj hothers]
  rfl

end

theorem receiveNack_none {c : Core} {p : Packet} (h : ∀ x ∈ c.xfer.jobs, ¬Answers p x) :
    receiveNack p c = { c with xfer := { c.xfer with refused := min 65535 (c.xfer.refused + 1) } } := by
  rw [receiveNack]
  dsimp only
  rw [findXfer_none (c := { c with xfer := { c.xfer with refused := sat16 c.xfer.refused 1 } }) h]
  rfl

/-- A fault after the first leaves the record as it is, unless it arose in the same cycle before it (R198, R199). -/
theorem entryFault_later {c : Core} {f : FaultRec} {code : FaultCode} {e : QEntry} (hfault : c.stream.fault = some f)
    (hlater : f.cc ≠ c.cc ∨ f.icount ≤ e.icount) :
    entryFault c code e = { c with stream := { c.stream with state := .faulted, more := true } } := by
  have hnot : ¬(f.cc = c.cc ∧ e.icount < f.icount) := by omega
  simp only [entryFault, coreFault, hfault, if_neg hnot]

/-- A NACK reaches the core that it is for. -/
theorem deliverNack_router {i : Nat} {s : State} {a : Arrived} (h : s.mesh.arrived[i]? = some a) (htyp : a.pkt.typ = .nack)
    (hplace : isRouter a.place = true) : deliverNack i s = deliver [.nack] anyPacket (fun _ => receiveNack) i s := by
  simp only [deliverNack, takeArrived_some (types := [.nack]) h (by simp [htyp]), hplace, if_true]

/-- A NACK to an edge unit is consumed there. -/
theorem deliverNack_edge {i : Nat} {s : State} {a : Arrived} (h : s.mesh.arrived[i]? = some a) (htyp : a.pkt.typ = .nack)
    (hplace : isRouter a.place = false) : deliverNack i s = withoutArrived i s := by
  simp only [deliverNack, takeArrived_some (types := [.nack]) h (by simp [htyp]), hplace, Bool.false_eq_true, if_false]

/-! ### The grants of the transfer-out and halo-out requesters -/

/-- A source access brings the words that it reads: a row of them, or in window form one row for each segment (R251, R252). -/
def Brings (c : Core) (segs : Bool) (a : MemAcc) (got : List Row) : Prop :=
  (segs = false → ∃ row, got = [row] ∧ ∀ x ∈ accWords 0 a, rowCell row x.2.2 = slabCell c x.1 x.2.1) ∧
  (segs = true → got.length = accUnits segs a ∧
    ∀ x ∈ accWords 0 a, ∃ row, got[x.2.2]? = some row ∧ rowCell row 0 = slabCell c x.1 x.2.1)

theorem outRead_row_brings (c : Core) (r : Nat) {n : Nat} (hn : n ≤ 4) :
    Brings c false (.row r n) (outRead false c (.row r n)).1 := by
  refine ⟨fun _ => ⟨_, rfl, fun x hx => ?_⟩, fun h => absurd h (by decide)⟩
  obtain ⟨i, hi, rfl⟩ := List.mem_map.mp hx
  exact (readRow_spec c r n hn).2 i (List.mem_range.mp hi)

/-- A row with one word in word 0. -/
theorem rowCell_single (v : W32) (z : Bool) : rowCell (rowSetAny Row.zero 0 v z) 0 = (v, z) := by
  rw [rowCell_rowSetAny _ _ _ (by decide), if_pos rfl]

theorem outRead_segments_brings (c : Core) (r : Nat) : Brings c true (.row r 0) (outRead true c (.row r 0)).1 := by
  refine ⟨fun h => absurd h (by decide), fun _ => ⟨by simp [outRead, accUnits], fun x hx => ?_⟩⟩
  obtain ⟨i, hi, rfl⟩ := List.mem_map.mp hx
  have hi : i < 32 := List.mem_range.mp hi
  refine ⟨rowSetAny Row.zero 0 (rowWord (readRow c r 0).1 i) (rowZ (readRow c r 0).1 i), by simp [outRead, hi], ?_⟩
  rw [rowCell_single, ← rowCell_data _ hi]
  exact (readRow_spec c r 0 (by decide)).2 i hi

theorem outRead_narrow_brings (c : Core) (r seg : Nat) : Brings c true (.narrow r seg) (outRead true c (.narrow r seg)).1 := by
  refine ⟨fun h => absurd h (by decide), fun _ => ⟨rfl, fun x hx => ?_⟩⟩
  obtain rfl := List.mem_singleton.mp hx
  refine ⟨segRow (readWord (countSlab c 1) r seg).1, rfl, ?_⟩
  rw [segRow, rowCell_single, readWord_fst]
  rfl

theorem outRead_brings (c : Core) (o : OutJob) : Brings c o.pkt.segs (outAccess o) (outRead o.pkt.segs c (outAccess o)).1 := by
  unfold outAccess
  cases hsegs : o.pkt.segs with
  | false => exact outRead_row_brings c o.next (sideWords_le o.pkt.side)
  | true =>
    simp only [if_true]
    split
    · exact outRead_segments_brings c (o.next / 32)
    · exact outRead_narrow_brings c (o.next / 32) (o.next % 32)

/-- A source access counts one access of the slab and what its words decode to (R133, R420). -/
theorem outRead_frame (c : Core) (o : OutJob) : (outRead o.pkt.segs c (outAccess o)).2 =
    readCounted (countSlab c 1) (outRead o.pkt.segs c (outAccess o)).2 := by
  have hrow (segs : Bool) (r n : Nat) : (outRead segs c (.row r n)).2 = readCounted (countSlab c 1) (outRead segs c (.row r n)).2 :=
    readWords_frame ..
  unfold outAccess
  split
  · split
    · exact hrow ..
    · exact readWord_frame ..
  · exact hrow ..

theorem lockRows_frame (p : Packet) (rows : List Row) (c : Core) :
    lockRows p rows c = { c with lockStore := (lockRows p rows c).lockStore } := by
  unfold lockRows
  split <;> rfl

/-- Only the rows of a store to HBM enter the store check (R543). -/
theorem lockRows_other {p : Packet} (h : p.typ ≠ .hbmWrite) (rows : List Row) (c : Core) : lockRows p rows c = c := by
  unfold lockRows
  split
  · next htyp => exact absurd htyp h
  · rfl

/-- An out job after an access that brought rows. -/
def outJobAfter (o : OutJob) (n : Nat) (got : List Row) : OutJob :=
  { o with next := o.next + n, left := o.left - n, idx := o.idx + n, got := o.got ++ got.zipIdx.map fun r => (o.idx + r.2, r.1) }

/-- A requester's out jobs after an access of the first. -/
def outsAfter (o : OutJob) (rest : List OutJob) (n : Nat) (got : List Row) : List OutJob :=
  if o.left ≤ n then rest else outJobAfter o n got :: rest

theorem outStep_eq (halo : Bool) (o : OutJob) (n : Nat) (got : List Row) (rest : List OutJob) (c : Core) :
    outStep halo o n got none rest c = { c with
      xfer := { c.xfer with
        outs := if halo then c.xfer.outs else outsAfter o rest n got
        haloOuts := if halo then outsAfter o rest n got else c.xfer.haloOuts }
      out := c.out ++ if o.left ≤ n then outPkts (outJobAfter o n got) else [] } := by
  have hjob : ({ o with
      next := o.next + n, left := o.left - n, idx := o.idx + n, got := o.got ++ got.zipIdx.map fun r => (o.idx + r.2, r.1)
      refused := if o.refused.isSome then o.refused else none } : OutJob) = outJobAfter o n got := by
    cases hrefused : o.refused <;> simp [outJobAfter, hrefused]
  rw [outStep, hjob]
  have hleft : (outJobAfter o n got).left = 0 ↔ o.left ≤ n := Nat.sub_eq_zero_iff_le
  by_cases hlast : o.left ≤ n
  · simp only [hleft, outsAfter, if_pos hlast]
    cases halo <;> rfl
  · simp only [hleft, outsAfter, if_neg hlast, List.append_nil]
    cases halo <;> rfl

section
variable {c : Core} {halo : Bool} {o : OutJob} {rest : List OutJob} (houts : outsOf halo c = o :: rest)
  (hfault : accFault c (outAccess o) = none)
include houts hfault

/-- A grant that no bank refuses reads the oldest packet's next row, or segment (R251, R252). -/
theorem outGrant_reads : ∃ got d lock, Brings c o.pkt.segs (outAccess o) got ∧ (o.pkt.typ ≠ .hbmWrite → lock = c.lockStore) ∧
    outGrant halo c = outStep halo o (accUnits o.pkt.segs (outAccess o)) got none rest
      { readCounted (countSlab c 1) d with lockStore := lock } := by
  let r := outRead o.pkt.segs c (outAccess o)
  refine ⟨r.1, r.2, (lockRows o.pkt r.1 r.2).lockStore, outRead_brings c o, fun htyp => ?_, ?_⟩
  · rw [lockRows_other htyp, outRead_frame]
    rfl
  · simp only [outGrant, houts, hfault]
    rw [lockRows_frame, ← outRead_frame]

end

/-! ### A grant cycle of the read port -/

/-- With no vector instruction in a unit and no load to land the vector engine does nothing. -/
theorem pumpVector_idle {c : Core} (halu : c.vec.alu = none) (hload : c.vec.load = none) (hstore : c.vec.store = none)
    (hlanding : c.vec.landing = []) : pumpVector c = c :=
  pumpVector_waits (tryAlu_none halu) hlanding (checkLoad_none hload) (checkStore_none hstore)

theorem readPortCycle_frame (wants : List Nat) (c : Core) : (readPortCycle wants c).1 =
    { tickCc c with arbRd := (readPortCycle wants c).1.arbRd, rd := (readPortCycle wants c).1.rd } := by
  unfold readPortCycle
  dsimp only
  split <;> rfl

theorem arbiterGrant_rd {site : Nat} {s : State} (hsite : siteOk site = true) (hlive : coreLive s site = true) :
    exec (.arbiterGrant .rd site) s = .next (atCore site (fun _ => readGrant (getCore s site)) s) := by
  change answer (siteOk site) (whenUp (coreLive s site) (atCore site readGrant) s) = _
  simp only [answer, whenUp, hsite, hlive, if_true]
  rfl

/-- What a read grant of an out job's access changes. -/
def OutMade (halo : Bool) (o : OutJob) (rest : List OutJob) (got : List Row) (c d : Core) : Prop :=
  d = { c with
    cc := c.cc + 1, stepCc := d.stepCc, arbRd := d.arbRd, rd := d.rd, events := d.events, out := d.out
    slab := { c.slab with ce := d.slab.ce, ue := d.slab.ue, lastErr := d.slab.lastErr }
    vec := { c.vec with drains := d.vec.drains }
    xfer := { c.xfer with
      outs := if halo then c.xfer.outs else outsAfter o rest (accUnits o.pkt.segs (outAccess o)) got
      haloOuts := if halo then outsAfter o rest (accUnits o.pkt.segs (outAccess o)) got else c.xfer.haloOuts }
    lockStore := d.lockStore, activity := { c.activity with slab := c.activity.slab + 1 } }

section
variable {c : Core} {halo : Bool} {o : OutJob} {rest : List OutJob} (hidle : VectorIdle c) (houts : outsOf halo c = o :: rest)
  (hgrant : (readPortCycle (readWants c) c).2 = some (if halo then 4 else 3)) (hfault : accFault c (outAccess o) = none)
include hidle houts hgrant hfault

/-- The core after a read port's grant of an out job's access: arbiter and counts aside, the access has brought rows. -/
theorem readGrant_reads : ∃ got d arb inst lock, Brings c o.pkt.segs (outAccess o) got ∧
    (o.pkt.typ ≠ .hbmWrite → lock = c.lockStore) ∧
    readGrant c = outStep halo o (accUnits o.pkt.segs (outAccess o)) got none rest
      { readCounted (countSlab { tickCc c with arbRd := arb, rd := inst } 1) d with lockStore := lock } := by
  obtain ⟨halu, hload, hstore, hlanding, -⟩ := hidle
  let t : Core := { tickCc c with arbRd := (readPortCycle (readWants c) c).1.arbRd, rd := (readPortCycle (readWants c) c).1.rd }
  have hcycle : readGrant c = pumpVector (outGrant halo t) := by
    rw [readGrant, pumpVector_idle halu hload hstore hlanding, hgrant, readPortCycle_frame]
    cases halo <;> rfl
  obtain ⟨got, d, lock, hgot, hlock, heq⟩ := outGrant_reads (c := t) houts hfault
  refine ⟨got, d, t.arbRd, t.rd, lock, hgot, hlock, ?_⟩
  rw [hcycle, heq, outStep_eq]
  exact pumpVector_idle halu hload hstore hlanding

theorem readGrant_made : ∃ got, Brings c o.pkt.segs (outAccess o) got ∧ OutMade halo o rest got c (readGrant c) ∧
    (o.pkt.typ ≠ .hbmWrite → (readGrant c).lockStore = c.lockStore) ∧
    (readGrant c).out = c.out ++ if o.left ≤ accUnits o.pkt.segs (outAccess o)
      then outPkts (outJobAfter o (accUnits o.pkt.segs (outAccess o)) got) else [] := by
  obtain ⟨got, d, arb, inst, lock, hgot, hlock, heq⟩ := readGrant_reads hidle houts hgrant hfault
  rw [outStep_eq] at heq
  refine ⟨got, hgot, ?_, ?_, ?_⟩
  · unfold OutMade
    rw [heq]
    rfl
  · rw [heq]
    exact hlock
  · rw [heq]
    rfl

end

theorem outPkts_own {o : OutJob} (h : o.own ≠ none) : outPkts o = [{ o.pkt with rows := o.got.map (·.2) }] := by
  rw [outPkts, if_neg (by simpa using h)]

theorem outPkts_reply {o : OutJob} (h : o.own = none) (hrefused : o.refused = none) :
    outPkts o = [{ o.pkt with count := o.got.length, rows := o.got.map (·.2) }] := by
  rw [outPkts, if_pos (by rw [h]; rfl)]
  simp [replyPkts, hrefused]

/-- Settles O31: a packet's answer is one update of its core, and a grant of an out job is one access and its packet after the last. -/
theorem answersToTransfers : Obligations.AnswersToTransfers := by
  unfold Obligations.AnswersToTransfers
  refine ⟨fun i site s p hsite harrived hopen => ?_, fun i s a harrived hplace htyp => ?_,
    fun site s halo o rest hsite hlive => ?_⟩
  · intro c s1 mine
    have hnack : ∀ {c' : Core}, p.typ = .nack → receiveNack p c = c' →
        exec (.nackPacket i) s = .next (atCore site (fun _ => c') s1) := fun htyp hc' =>
      exec_delivered (f := fun _ => receiveNack) hsite harrived hopen htyp
        (congrArg (answer true) (deliverNack_router harrived htyp (isRouter_of_siteOk hsite))) hc'
    have hread (htyp : p.typ = .read) := exec_delivered (f := receiveRead) (ins := .readPacket i) hsite harrived hopen htyp rfl rfl
    have hack : ∀ {c' : Core}, p.typ = .ack → receiveAck p c = c' →
        exec (.ackPacket i) s = .next (atCore site (fun _ => c') s1) := fun htyp hc' =>
      exec_delivered (f := fun _ => receiveAck) hsite harrived hopen htyp rfl hc'
    refine ⟨fun htyp => ⟨_, hread htyp, rfl, rfl, rfl, rfl, rfl, rfl, rfl, rfl, rfl, rfl, rfl, rfl, rfl, rfl⟩,
      fun l1 l2 j hjobs hj hothers => ⟨fun htyp => ?_, fun htyp => ?_⟩, fun hnone => ⟨fun htyp => ?_, fun htyp => ?_⟩⟩
    · exact hack htyp (receiveAck_single hjobs hj hothers)
    · intro c1 e
      have hfaults := hnack htyp (receiveNack_single hjobs hj hothers)
      refine ⟨fun hfirst => ⟨_, hfaults, faults_entryFault (c := c1) _ e hfirst⟩, fun f hf hlater => ?_⟩
      rw [hfaults, entryFault_later (c := c1) hf hlater]
    · exact hack htyp (modXfer_none hnone _)
    · exact hnack htyp (receiveNack_none hnone)
  · change answer true (deliverNack i s) = _
    rw [deliverNack_edge harrived htyp hplace]
    rfl
  · intro c hidle houts hgrant hfault n last
    obtain ⟨got, ⟨hrow, hsegs⟩, hmade, hlock, hout⟩ := readGrant_made hidle houts hgrant hfault
    refine ⟨readGrant c, got, arbiterGrant_rd hsite hlive, hmade, hlock, fun h => ?_, fun h => ?_, fun h => ?_, fun h hown => ?_,
      fun h hown href => ?_⟩
    · obtain ⟨row, hgot, hcells⟩ := hrow h
      exact ⟨row, hgot, fun x hx => Prod.mk.inj (hcells x hx)⟩
    · obtain ⟨hlen, hcells⟩ := hsegs h
      refine ⟨hlen, fun x hx => ?_⟩
      obtain ⟨row, hget, hcell⟩ := hcells x hx
      exact ⟨row, hget, Prod.mk.inj hcell⟩
    · exact hout.trans ((congrArg (c.out ++ ·) (if_neg h)).trans (List.append_nil _))
    · exact hout.trans (congrArg (c.out ++ ·) ((if_pos h).trans (outPkts_own hown)))
    · exact hout.trans (congrArg (c.out ++ ·) ((if_pos h).trans (outPkts_reply hown href)))

end Sys2Proof.Machine
end

section
/-!
PROOFS. Row data that arrive at a core (O30).
-/

namespace Sys2Proof.Machine

/-! ### Slab writes -/

/-- What writes change: the words, the write-backs that they overtake, and the count of accesses. -/
def Wrote (c d : Core) : Prop :=
  d = { c with
    slab := { c.slab with words := d.slab.words, wb := d.slab.wb }
    activity := { c.activity with slab := c.activity.slab + 1 } }

theorem getWord_writeWord (c : Core) (r : Nat) {sg : Nat} (d : W32) (z : Bool) (hsg : sg < 36) (r' : Nat) {sg' : Nat} (hsg' : sg' < 36) :
    getWord (writeWord c r sg d z) r' sg' = if (r', sg') = (r, sg) then secEncode d z else getWord c r' sg' := by
  rw [getWord, writeWord, smGet_smSet, getWord]
  have hkey : slabKey r' sg' = slabKey r sg ↔ (r', sg') = (r, sg) := by
    simp only [slabKey, Prod.mk.injEq]
    omega
  simp only [hkey]

theorem getWord_writeWords (r : Nat) (row : Row) {l : List Nat} (hl : ∀ sg ∈ l, sg < 36) (c : Core) (r' : Nat) {sg' : Nat}
    (hsg' : sg' < 36) : getWord (writeWords r row l c) r' sg' =
      if r' = r ∧ sg' ∈ l then secEncode (rowAny row sg') (rowZ row sg') else getWord c r' sg' := by
  induction l generalizing c with
  | nil => simp [writeWords]
  | cons sg l ih =>
    obtain ⟨hsg, hl⟩ := List.forall_mem_cons.mp hl
    rw [writeWords, ih hl, getWord_writeWord c r _ _ hsg r' hsg']
    by_cases hr : r' = r <;> by_cases hmem : sg' ∈ l <;> by_cases heq : sg' = sg <;> simp [hr, hmem, heq]

theorem writeWords_frame (r : Nat) (row : Row) (l : List Nat) (c : Core) :
    writeWords r row l c = { c with slab := { c.slab with
      words := (writeWords r row l c).slab.words, wb := (writeWords r row l c).slab.wb } } := by
  induction l generalizing c with
  | nil => rfl
  | cons s l ih =>
    rw [writeWords, ih]
    rfl

/-- Of the words moved (row, segment, number) word k is stored as `word k` says, and no other word of the slab changes. -/
def Stores (c d : Core) (moved : List (Nat × Nat × Nat)) (word : Nat → W32 × Bool) : Prop :=
  (∀ x ∈ moved, getWord d x.1 x.2.1 = secEncode (word x.2.2).1 (word x.2.2).2) ∧
  ∀ r sg, sg < 36 → (∀ x ∈ moved, (x.1, x.2.1) ≠ (r, sg)) → getWord d r sg = getWord c r sg

theorem writeRow_wrote (c : Core) (r : Nat) (row : Row) (n : Nat) : Wrote c (writeRow c r row n) := writeWords_frame ..

theorem writeRow_stores (c : Core) (r : Nat) (row : Row) {n : Nat} (hn : n ≤ 4) {word : Nat → W32 × Bool}
    (hword : ∀ k, k < 32 + n → rowCell row k = word k) : Stores c (writeRow c r row n) (accWords 0 (.row r n)) word := by
  have hlt : ∀ sg ∈ rowSegs n, sg < 36 := fun sg hsg => by
    have := List.mem_range.mp hsg
    omega
  refine ⟨fun x hx => ?_, fun r' sg hsg hout => ?_⟩
  · obtain ⟨k, hk, rfl⟩ := List.mem_map.mp hx
    rw [writeRow, getWord_writeWords r row hlt _ _ (hlt k hk), if_pos ⟨rfl, hk⟩, ← hword k (List.mem_range.mp hk)]
    rfl
  · rw [writeRow, getWord_writeWords r row hlt _ _ hsg, if_neg]
    · rfl
    · rintro ⟨rfl, hmem⟩
      exact hout _ (List.mem_map_of_mem hmem) rfl

theorem writeWord_stores (c : Core) (r : Nat) {sg : Nat} (hsg : sg < 36) (word : Nat → W32 × Bool) :
    Stores c (writeWord (countSlab c 1) r sg (word 0).1 (word 0).2) (accWords 0 (.narrow r sg)) word := by
  refine ⟨fun x hx => ?_, fun r' sg' hsg' hout => ?_⟩
  · obtain rfl := List.mem_singleton.mp hx
    rw [getWord_writeWord _ _ _ _ hsg _ hsg, if_pos rfl]
  · rw [getWord_writeWord _ _ _ _ hsg _ hsg', if_neg fun h => hout _ (List.mem_singleton_self _) h.symm]
    rfl

/-! ### The writes of a packet that has come -/

/-- Row k of those that an in job has still to store. -/
def inRow (j : InJob) (k : Nat) : Row := (j.left.getD k (0, Row.zero)).2

/-- Word k that an in job's next access stores: of its next row, or in window form of its k-th row from there. -/
def inWord (j : InJob) (k : Nat) : W32 × Bool :=
  if j.pkt.segs then (rowWord (inRow j k) 0, rowZ (inRow j k) 0) else (rowAny (inRow j 0) k, rowZ (inRow j 0) k)

/-- The forms of an in job's access. -/
theorem inAccess_some {c : Core} {j : InJob} {a : MemAcc} (h : inAccess c j = some a) :
    (j.pkt.segs = false ∧ ∃ r, a = .row r (sideWords j.pkt.side)) ∨
    (j.pkt.segs = true ∧ j.left.length = 32 ∧ ∃ r, a = .row r 0) ∨
    (j.pkt.segs = true ∧ ∃ r, a = .narrow (r / 32) (r % 32)) := by
  obtain ⟨i, row, l, hleft⟩ : ∃ i row l, j.left = (i, row) :: l := by
    match hleft : j.left with
    | [] => simp [inAccess, hleft] at h
    | (i, row) :: l => exact ⟨i, row, l, rfl⟩
  obtain ⟨r, hr⟩ : ∃ r, arriveRow c j.pkt i = some r := by
    match hr : arriveRow c j.pkt i with
    | none => simp [inAccess, hleft, hr] at h
    | some r => exact ⟨r, rfl⟩
  simp only [inAccess, hleft, hr] at h
  cases hsegs : j.pkt.segs with
  | false => exact .inl ⟨rfl, r, by simpa [hsegs] using h.symm⟩
  | true =>
    simp only [hsegs, if_true] at h
    split at h
    · next hwhole =>
      simp only [Bool.and_eq_true, decide_eq_true_eq] at hwhole
      exact .inr (.inl ⟨rfl, by rw [hleft]; exact hwhole.1.2, r / 32, (Option.some.inj h).symm⟩)
    · exact .inr (.inr ⟨rfl, r, (Option.some.inj h).symm⟩)

/-- A row made of the first words of 32 rows has them as its words. -/
theorem rowCell_gathered (rows : List Row) (hlen : rows.length = 32) {k : Nat} (hk : k < 32) :
    rowCell (rows.zipIdx.foldl (fun acc x => rowSetAny acc x.2 (rowWord x.1 0) (rowZ x.1 0)) Row.zero) k =
      (rowWord (rows.getD k Row.zero) 0, rowZ (rows.getD k Row.zero) 0) := by
  rw [rowCell_foldl_rowSetAny (fun r : Row => (rowWord r 0, rowZ r 0)) rows 0 Row.zero (by omega), if_pos (Nat.zero_le k)]
  simp [show k < rows.length by omega]

theorem accUnits_pos (segs : Bool) (a : MemAcc) : 0 < accUnits segs a := by
  cases a <;> cases segs <;> exact Nat.zero_lt_succ _

theorem headD_inRows {j : InJob} (hleft : j.left ≠ []) {n : Nat} (hn : 0 < n) :
    ((j.left.take n).map (·.2)).headD Row.zero = inRow j 0 := by
  obtain ⟨x, l, hl⟩ := List.exists_cons_of_ne_nil hleft
  obtain ⟨m, rfl⟩ := Nat.exists_eq_succ_of_ne_zero hn.ne'
  simp [inRow, hl]

/-- An in job's access stores the words of its rows. -/
theorem inWrite_stores {c : Core} {j : InJob} {a : MemAcc} (h : inAccess c j = some a) (hleft : j.left ≠ []) :
    Wrote c (inWrite j.pkt.segs ((j.left.take (accUnits j.pkt.segs a)).map (·.2)) c a) ∧
    Stores c (inWrite j.pkt.segs ((j.left.take (accUnits j.pkt.segs a)).map (·.2)) c a) (accWords 0 a) (inWord j) := by
  rcases inAccess_some h with ⟨hsegs, r, rfl⟩ | ⟨hsegs, hlen, r, rfl⟩ | ⟨hsegs, r, rfl⟩
  · have hhead := headD_inRows hleft (accUnits_pos j.pkt.segs (.row r (sideWords j.pkt.side)))
    simp only [inWrite, hsegs, Bool.false_eq_true, if_false] at hhead ⊢
    rw [hhead]
    exact ⟨writeRow_wrote .., writeRow_stores c r _ (sideWords_le _) fun k _ => by simp [inWord, hsegs, rowCell]⟩
  · simp only [inWrite, hsegs, if_true]
    refine ⟨writeRow_wrote .., writeRow_stores c r _ (by decide) fun k hk => ?_⟩
    rw [rowCell_gathered _ (by simp [accUnits, hlen]) hk]
    simp [inWord, hsegs, inRow, accUnits, hlen, show k < 32 from hk]
  · have hhead := headD_inRows hleft (accUnits_pos j.pkt.segs (.narrow (r / 32) (r % 32)))
    simp only [inWrite]
    rw [hhead]
    have hstores := writeWord_stores c (r / 32) (show r % 32 < 36 by omega) (inWord j)
    rw [show inWord j 0 = (rowWord (inRow j 0) 0, rowZ (inRow j 0) 0) from if_pos hsegs] at hstores
    exact ⟨rfl, hstores⟩

/-! ### The end of a packet -/

/-- What the end of a packet may change: the slots, the counts of stored rows, and what is sent. -/
def Ended (c d : Core) : Prop :=
  d = { c with sync := { c.sync with slots := d.sync.slots }, xfer := { c.xfer with rx := d.xfer.rx }, out := d.out }

/-- Nothing is sent, and no slot changes. -/
def Silent (c d : Core) : Prop := d.out = c.out ∧ SlotCounts c d (fun _ => 0) (fun _ => 0) fun _ => 0

/-- One answer of a type to a packet has been sent. -/
def Replied (site : Nat) (p : Packet) (t : PktType) (c d : Core) (a : Packet) : Prop :=
  d.out = c.out ++ [a] ∧ a.typ = t ∧ a.src = site ∧ a.dst = issuerOf p ∧ a.tag = p.tag ∧ a.xid = p.xid

/-- The posts that the last row of a packet's transfer brings. -/
def postsOf (p : Packet) (n : Nat) : Nat := if p.post = true ∧ n = p.slot then 1 else 0

theorem slotCounts_zero (c : Core) : SlotCounts c c (fun _ => 0) (fun _ => 0) fun _ => 0 := fun _ => rfl

theorem silent_of_eq {c d : Core} (hout : d.out = c.out) (hsync : d.sync = c.sync) : Silent c d :=
  ⟨hout, fun n => by simp [getSlot, hsync]⟩

/-- The rows of its transfer stored with a packet of which so many rows are. -/
def rowsGot (c : Core) (p : Packet) (stored : Nat) : Nat := if p.segs then stored else rowsSoFar c p stored

/-- The core with a packet's rows counted, unless it is a window part (R257). -/
def rowsCounted (c : Core) (p : Packet) (got : Nat) : Core :=
  if p.segs then c else { c with xfer := { c.xfer with
    rx := smSet (0, 0) c.xfer.rx (rxKey p) (if got = p.total then (0, 0) else (p.xid.getD 0, got)) } }

theorem rowsCounted_frame (c : Core) (p : Packet) (got : Nat) :
    rowsCounted c p got = { c with xfer := { c.xfer with rx := (rowsCounted c p got).xfer.rx } } := by
  unfold rowsCounted
  split <;> rfl

theorem rowsCounted_ended (c : Core) (p : Packet) (got : Nat) : Ended c (rowsCounted c p got) := by
  unfold rowsCounted
  split <;> rfl

theorem rx_rowsCounted (c : Core) (p : Packet) (got k : Nat) : smGet (0, 0) (rowsCounted c p got).xfer.rx k =
    if p.segs = false ∧ k = rxKey p then (if p.total = got then (0, 0) else (p.xid.getD 0, got)) else smGet (0, 0) c.xfer.rx k := by
  unfold rowsCounted
  cases p.segs
  · simp only [Bool.false_eq_true, if_false, true_and, smGet_smSet, eq_comm (a := got)]
  · simp

/-- An ABORT has not closed the packet, and no later transfer of its index has overtaken it. -/
def Current (c : Core) (p : Packet) : Prop := p.aborted = false ∧ (p.segs = true ∨ (rowCount c p).1 ≤ p.xid.getD 0)

section
variable {site : Nat} {p : Packet} {stored : Nat} {c : Core} (hcur : Current c p)
include hcur

theorem endWrite_stored : endWrite site p stored none c =
    let d := rowsCounted c p (rowsGot c p stored)
    if rowsGot c p stored = p.total then sendPkts (if p.post then postSlot d p.slot else d) [replyPkt d site .ack p] else d := by
  obtain ⟨haborted, hrows⟩ := hcur
  have hguard : (p.aborted || (!p.segs && decide (p.xid.getD 0 < (rowCount c p).1))) = false := by
    rcases hrows with hsegs | hle
    · simp [haborted, hsegs]
    · simp [haborted, Nat.not_lt.mpr hle]
  simp only [endWrite, hguard, Bool.false_eq_true, if_false, decide_eq_true_eq]
  rfl

/-- The packet of a transfer's last row brings the post and the ACK (R257, R258). -/
theorem endWrite_last (hdone : p.total = rowsGot c p stored) : Ended c (endWrite site p stored none c) ∧
    (∃ a, Replied site p .ack c (endWrite site p stored none c) a ∧ a.job = p.job) ∧
    SlotCounts c (endWrite site p stored none c) (fun _ => 0) (fun _ => 0) (postsOf p) ∧
    (endWrite site p stored none c).xfer.rx = (rowsCounted c p (rowsGot c p stored)).xfer.rx := by
  rw [endWrite_stored hcur]
  simp only [if_pos hdone.symm]
  rw [rowsCounted_frame]
  cases hpost : p.post with
  | false => exact ⟨rfl, ⟨_, ⟨rfl, rfl, rfl, rfl, rfl, rfl⟩, rfl⟩, fun n => by simp [postsOf, hpost]; rfl, rfl⟩
  | true =>
    refine ⟨rfl, ⟨_, ⟨rfl, rfl, rfl, rfl, rfl, rfl⟩, rfl⟩, fun n => ?_, rfl⟩
    refine (getSlot_postSlot _ p.slot n).trans ?_
    simp only [postsOf, hpost, true_and]
    rfl

/-- A packet before its transfer's last row only counts (R257). -/
theorem endWrite_more (hmore : p.total ≠ rowsGot c p stored) :
    endWrite site p stored none c = rowsCounted c p (rowsGot c p stored) := by
  rw [endWrite_stored hcur]
  exact if_neg (Ne.symm hmore)

end

/-! ### The grants of the transfer-in and halo-in requesters -/

/-- How many rows or segments of its packet an in job's next access stores. -/
def inUnits (c : Core) (j : InJob) : Nat :=
  match inAccess c j with
  | some a => accUnits j.pkt.segs a
  | none => 1

/-- What refuses an in job's next access (R143, R181). -/
def inFault (c : Core) (j : InJob) : Option FaultCode :=
  match inAccess c j with
  | some a => accFault c a
  | none => some .slabRange

/-- The words that an in job's next access moves. -/
def inMoved (c : Core) (j : InJob) : List (Nat × Nat × Nat) :=
  match inAccess c j, inFault c j with
  | some a, none => accWords 0 a
  | _, _ => []

/-- The core with an in job's next access made, or refused and counted. -/
def inStored (c : Core) (j : InJob) : Core :=
  match inAccess c j, inFault c j with
  | some a, none => inWrite j.pkt.segs ((j.left.take (inUnits c j)).map (·.2)) c a
  | _, f => if f = some .bankOff then lateWrite c else c

theorem inGrant_eq {site : Nat} {halo : Bool} {c : Core} {j : InJob} {rest : List InJob} (hins : insOf halo c = j :: rest) :
    inGrant site halo c = inStep site halo j (inUnits c j) ((inFault c j).map refusal) rest (inStored c j) := by
  simp only [inGrant, hins, inUnits, inFault, inStored]
  cases hacc : inAccess c j with
  | none => rfl
  | some a =>
    cases hfault : accFault c a with
    | none => simp [hfault]
    | some f => cases f <;> simp [hfault]

/-- What an access, made or refused, changes. -/
theorem inStored_frame {c : Core} {j : InJob} (hleft : j.left ≠ []) : inStored c j = { c with
    slab := { c.slab with
      words := (inStored c j).slab.words, wb := (inStored c j).slab.wb
      lateWrites := if inFault c j = some .bankOff then min 0xFFFFFFFF (c.slab.lateWrites + 1) else c.slab.lateWrites }
    activity := { c.activity with slab := c.activity.slab + if inFault c j = none then 1 else 0 } } := by
  cases hacc : inAccess c j with
  | none => simp [inStored, inFault, hacc]
  | some a =>
    cases hfault : accFault c a with
    | none =>
      have hwrote := (inWrite_stores hacc hleft).1
      simp only [inStored, inFault, inUnits, hacc, hfault]
      exact hwrote
    | some f =>
      simp only [inStored, inFault, hacc, hfault]
      by_cases hoff : f = .bankOff
      · simp [hoff, lateWrite, sat32, satAdd]
      · simp [hoff]

theorem inStored_stores {c : Core} {j : InJob} (hleft : j.left ≠ []) : Stores c (inStored c j) (inMoved c j) (inWord j) := by
  cases hacc : inAccess c j with
  | none => simp [inStored, inMoved, inFault, hacc, Stores]
  | some a =>
    cases hfault : accFault c a with
    | none =>
      have hstores := (inWrite_stores hacc hleft).2
      simp only [inStored, inMoved, inFault, inUnits, hacc, hfault]
      exact hstores
    | some f =>
      have hwords : ∀ r sg, getWord (inStored c j) r sg = getWord c r sg := fun r sg => by
        simp only [inStored, inFault, hacc, hfault]
        split <;> rfl
      simp only [inMoved, inFault, hacc, hfault]
      exact ⟨by simp, fun r sg _ _ => hwords r sg⟩

/-- The core with n rows of an own XGET awaited no more (R252). -/
def rowsAwaited (j : InJob) (n : Nat) (c : Core) : Core :=
  { c with xfer := { c.xfer with jobs := c.xfer.jobs.map fun x =>
      if j.own = true ∧ x.tag = j.pkt.tag ∧ some x.st.entry.icount = j.pkt.xid then { x with waitRows := x.waitRows - n } else x } }

theorem rowsAwaited_eq {j : InJob} {refused : Option Nat} (h : j.own = false ∨ refused = none) (n : Nat) (c : Core) :
    (if j.own then ownRows j.pkt n refused c else c) = rowsAwaited j n c := by
  rcases hown : j.own with _ | _
  · simp [rowsAwaited, hown]
  · obtain rfl := h.resolve_left (by simp [hown])
    simp [ownRows, modXfer, rowsAwaited, hown]

/-- An in job after an access that stored n rows, or was refused. -/
def inJobAfter (j : InJob) (n : Nat) (fault : Option FaultCode) : InJob :=
  { j with
    left := j.left.drop n, stored := if fault = none then j.stored + n else j.stored
    refused := if j.refused ≠ none ∨ fault = none then j.refused else some (if fault = some .bankOff then 2 else 3) }

/-- The in jobs of a requester after the first one's access. -/
def insAfter (j : InJob) (rest : List InJob) (n : Nat) (fault : Option FaultCode) : List InJob :=
  if j.left.length ≤ n then rest else inJobAfter j n fault :: rest

/-- The core after an in job's access, its packet not yet answered. -/
def inBase (halo : Bool) (j : InJob) (n : Nat) (fault : Option FaultCode) (rest : List InJob) (c : Core) : Core :=
  { c with xfer := { c.xfer with
      ins := if halo then c.xfer.ins else insAfter j rest n fault
      haloIns := if halo then insAfter j rest n fault else c.xfer.haloIns
      jobs := (rowsAwaited j n c).xfer.jobs } }

/-- After its last access a packet that is not an own XGET's is answered (R252, R257). -/
def inEnd (site : Nat) (j : InJob) (n : Nat) (fault : Option FaultCode) (c : Core) : Core :=
  if j.left.length ≤ n ∧ j.own = false then endWrite site j.pkt (inJobAfter j n fault).stored (inJobAfter j n fault).refused c
  else c

theorem inStep_eq {site : Nat} {halo : Bool} {j : InJob} {n : Nat} {fault : Option FaultCode} {rest : List InJob} {c : Core}
    (h : j.own = false ∨ fault = none) :
    inStep site halo j n (fault.map refusal) rest c = inEnd site j n fault (inBase halo j n fault rest c) := by
  have hjob : ({ j with
      left := j.left.drop n, stored := if (fault.map refusal).isNone then j.stored + n else j.stored
      refused := if j.refused.isSome then j.refused else fault.map refusal } : InJob) = inJobAfter j n fault := by
    cases fault <;> cases hrefused : j.refused <;> simp [inJobAfter, hrefused, refusal]
  rw [inStep, hjob, rowsAwaited_eq (by simpa using h)]
  have hempty : (inJobAfter j n fault).left.isEmpty = true ↔ j.left.length ≤ n := by
    rw [List.isEmpty_iff]
    exact List.drop_eq_nil_iff
  have hbase (l : List InJob) (hl : l = insAfter j rest n fault) : setIns halo (rowsAwaited j n c) l = inBase halo j n fault rest c := by
    subst hl
    cases halo <;> rfl
  by_cases hlast : j.left.length ≤ n
  · rw [if_pos (hempty.mpr hlast), hbase rest (if_pos hlast).symm, endIn, inEnd]
    cases hown : j.own <;> simp [inJobAfter, hown, hlast]
  · rw [if_neg (mt hempty.mp hlast), hbase _ (if_neg hlast).symm, inEnd, if_neg fun h => hlast h.1]

section
variable {site : Nat} {j : InJob} {n : Nat} {fault : Option FaultCode} {d : Core}

theorem inEnd_waits (h : ¬j.left.length ≤ n ∨ j.own = true) : inEnd site j n fault d = d :=
  if_neg fun ⟨hlast, hown⟩ => h.elim (absurd hlast) fun htrue => absurd hown (by simp [htrue])

variable (hlast : j.left.length ≤ n) (hown : j.own = false)
include hlast hown

theorem inEnd_done (hrefused : j.refused = none) (hfault : fault = none) :
    inEnd site j n fault d = endWrite site j.pkt (j.stored + n) none d := by
  rw [inEnd, if_pos ⟨hlast, hown⟩, inJobAfter]
  simp only [hrefused, hfault, if_true, or_true]

/-- A refused row brings one NACK at the end, with the first refusal's status (R630). -/
theorem inEnd_refused (h : j.refused ≠ none ∨ fault ≠ none) : inEnd site j n fault d =
    sendPkts d [{ replyPkt d site .nack j.pkt with status := j.refused.getD (if fault = some .bankOff then 2 else 3) }] := by
  have hrefused : (inJobAfter j n fault).refused = some (j.refused.getD (if fault = some .bankOff then 2 else 3)) := by
    cases hj : j.refused with
    | none => simp [inJobAfter, hj, h.resolve_left (not_not_intro hj)]
    | some r => simp [inJobAfter, hj]
  rw [inEnd, if_pos ⟨hlast, hown⟩, hrefused]
  rfl

end

/-- The rows of its transfer stored once an in job's access has stored n more. -/
def inGot (c : Core) (j : InJob) (n : Nat) : Nat :=
  (if j.pkt.segs = true ∨ (rowCount c j.pkt).1 ≠ j.pkt.xid.getD 0 then 0 else (rowCount c j.pkt).2) + j.stored + n

theorem rowsGot_eq (c : Core) (j : InJob) (n : Nat) : rowsGot c j.pkt (j.stored + n) = inGot c j n := by
  unfold rowsGot rowsSoFar inGot
  cases j.pkt.segs
  · by_cases hxid : (rowCount c j.pkt).1 = j.pkt.xid.getD 0 <;> simp [hxid, Nat.add_assoc]
  · simp

/-- What a write grant leaves to say once its access is made: what is sent, the slots, and the counts of stored rows. -/
def InAnswers (site : Nat) (j : InJob) (n : Nat) (fault : Option FaultCode) (d e : Core) : Prop :=
  let last := j.left.length ≤ n
  let done := last ∧ j.own = false ∧ j.refused = none ∧ fault = none
  (done → j.pkt.total = inGot d j n →
    (∃ a, Replied site j.pkt .ack d e a) ∧ SlotCounts d e (fun _ => 0) (fun _ => 0) (postsOf j.pkt)) ∧
  (done → j.pkt.total ≠ inGot d j n → Silent d e) ∧
  (last → j.own = false → j.refused ≠ none ∨ fault ≠ none →
    (∃ a, Replied site j.pkt .nack d e a ∧ a.status = j.refused.getD (if fault = some .bankOff then 2 else 3)) ∧
    SlotCounts d e (fun _ => 0) (fun _ => 0) fun _ => 0) ∧
  (¬last ∨ j.own = true → Silent d e) ∧
  ∀ k, smGet (0, 0) e.xfer.rx k = if done ∧ j.pkt.segs = false ∧ k = rxKey j.pkt then
    (if j.pkt.total = inGot d j n then (0, 0) else (j.pkt.xid.getD 0, inGot d j n)) else smGet (0, 0) d.xfer.rx k

section
variable {site : Nat} {j : InJob} {n : Nat} {fault : Option FaultCode} {d : Core} (hcur : j.own = false → Current d j.pkt)
include hcur

theorem inEnd_ended : Ended d (inEnd site j n fault d) := by
  unfold inEnd
  split
  · next hend =>
    rcases (inJobAfter j n fault).refused with _ | status
    · by_cases hdone : j.pkt.total = rowsGot d j.pkt (inJobAfter j n fault).stored
      · exact (endWrite_last (hcur hend.2) hdone).1
      · rw [endWrite_more (hcur hend.2) hdone]
        exact rowsCounted_ended ..
    · exact rfl
  · rfl

theorem inEnd_answers : InAnswers site j n fault d (inEnd site j n fault d) := by
  refine ⟨fun ⟨hlast, hown, hrefused, hfault⟩ htotal => ?_, fun ⟨hlast, hown, hrefused, hfault⟩ htotal => ?_,
    fun hlast hown hrefused => ?_, fun hwaits => ?_, fun k => ?_⟩
  · rw [inEnd_done hlast hown hrefused hfault]
    obtain ⟨-, ⟨a, ha, -⟩, hslots, -⟩ := endWrite_last (site := site) (hcur hown) (htotal.trans (rowsGot_eq d j n).symm)
    exact ⟨⟨a, ha⟩, hslots⟩
  · rw [inEnd_done hlast hown hrefused hfault, endWrite_more (hcur hown) (by rwa [rowsGot_eq]), rowsCounted_frame]
    exact silent_of_eq rfl rfl
  · rw [inEnd_refused hlast hown hrefused]
    exact ⟨⟨_, ⟨rfl, rfl, rfl, rfl, rfl, rfl⟩, rfl⟩, slotCounts_zero d⟩
  · rw [inEnd_waits hwaits]
    exact silent_of_eq rfl rfl
  · by_cases hdone : j.left.length ≤ n ∧ j.own = false ∧ j.refused = none ∧ fault = none
    · obtain ⟨hlast, hown, hrefused, hfault⟩ := hdone
      have hrx : (inEnd site j n fault d).xfer.rx = (rowsCounted d j.pkt (inGot d j n)).xfer.rx := by
        rw [inEnd_done hlast hown hrefused hfault, ← rowsGot_eq]
        by_cases htotal : j.pkt.total = rowsGot d j.pkt (j.stored + n)
        · obtain ⟨-, -, -, hlastRx⟩ := endWrite_last (site := site) (hcur hown) htotal
          exact hlastRx
        · rw [endWrite_more (hcur hown) htotal]
      rw [hrx, rx_rowsCounted]
      simp only [hlast, hown, hrefused, hfault, true_and]
    · rw [if_neg fun h => hdone h.1]
      by_cases hend : j.left.length ≤ n ∧ j.own = false
      · obtain ⟨hlast, hown⟩ := hend
        have hrefused : j.refused ≠ none ∨ fault ≠ none := by
          by_contra hnone
          obtain ⟨hj, hfault⟩ := not_or.mp hnone
          exact hdone ⟨hlast, hown, not_not.mp hj, not_not.mp hfault⟩
        rw [inEnd_refused hlast hown hrefused]
        rfl
      · rw [inEnd, if_neg hend]

end

theorem slotCounts_congr {c d e : Core} (h : d.sync = c.sync) {admits releases posts : Nat → Nat} :
    SlotCounts d e admits releases posts ↔ SlotCounts c e admits releases posts := by
  simp only [SlotCounts, getSlot, h]

/-- The answers of a grant speak of what its core has sent, of its slots and of its counts of rows alone. -/
theorem inAnswers_congr {site : Nat} {j : InJob} {n : Nat} {fault : Option FaultCode} {c d e : Core} (hsync : d.sync = c.sync)
    (hout : d.out = c.out) (hrx : d.xfer.rx = c.xfer.rx) : InAnswers site j n fault d e ↔ InAnswers site j n fault c e := by
  have hgot : inGot d j n = inGot c j n := by
    rw [inGot, rowCount, hrx]
    rfl
  simp only [InAnswers, Silent, Replied, slotCounts_congr hsync, hout, hrx, hgot]

theorem arbiterGrant_wr {site : Nat} {s : State} (hsite : siteOk site = true) (hlive : coreLive s site = true) :
    exec (.arbiterGrant .wr site) s = .next (atCore site (fun _ => writeGrant site (getCore s site)) s) := by
  change answer (siteOk site) (whenUp (coreLive s site) (atCore site (writeGrant site)) s) = _
  rw [hsite, hlive]
  rfl

theorem writePortCycle_frame (wants : List Nat) (c : Core) : (writePortCycle wants c).1 =
    { c with arbWr := (writePortCycle wants c).1.arbWr, wr := (writePortCycle wants c).1.wr } := rfl

section
variable {site : Nat} {c : Core} {halo : Bool} {j : InJob} {rest : List InJob} (hins : insOf halo c = j :: rest)
  (hgrant : (writePortCycle (writeWants c) c).2 = some (if halo then 1 else 0)) (hown : j.own = false ∨ inFault c j = none)
include hins hgrant hown

/-- The core after a write port's grant of an in job's access: arbiter aside, the access is made or refused, and the packet
answered after its last. -/
theorem writeGrant_eq : ∃ arb inst, writeGrant site c = inEnd site j (inUnits c j) (inFault c j)
    (inBase halo j (inUnits c j) (inFault c j) rest (inStored { c with arbWr := arb, wr := inst } j)) := by
  let t : Core := { c with arbWr := (writePortCycle (writeWants c) c).1.arbWr, wr := (writePortCycle (writeWants c) c).1.wr }
  refine ⟨t.arbWr, t.wr, ?_⟩
  have hcycle : writeGrant site c = inGrant site halo t := by
    rw [writeGrant, hgrant, writePortCycle_frame]
    cases halo <;> rfl
  rw [hcycle, inGrant_eq (c := t) hins]
  exact inStep_eq hown

end

/-- What a write grant of an in job's access changes, but for its answer. -/
def InMade (halo : Bool) (j : InJob) (rest : List InJob) (c d : Core) : Prop :=
  d = { c with
    arbWr := d.arbWr, wr := d.wr
    slab := { c.slab with
      words := d.slab.words, wb := d.slab.wb
      lateWrites := if inFault c j = some .bankOff then min 0xFFFFFFFF (c.slab.lateWrites + 1) else c.slab.lateWrites }
    xfer := { c.xfer with
      ins := if halo then c.xfer.ins else insAfter j rest (inUnits c j) (inFault c j)
      haloIns := if halo then insAfter j rest (inUnits c j) (inFault c j) else c.xfer.haloIns
      jobs := (rowsAwaited j (inUnits c j) c).xfer.jobs }
    activity := { c.activity with slab := c.activity.slab + if inFault c j = none then 1 else 0 } }

theorem inBase_made (halo : Bool) {j : InJob} (hleft : j.left ≠ []) (rest : List InJob) (c : Core) (arb : ArbSet) (inst : ArbInst) :
    InMade halo j rest c (inBase halo j (inUnits c j) (inFault c j) rest (inStored { c with arbWr := arb, wr := inst } j)) := by
  have hstored := inStored_frame (c := { c with arbWr := arb, wr := inst }) hleft
  unfold InMade
  rw [hstored]
  rfl

/-- The rows of a packet wait at the transfer-in requester, or at halo-in (Table 4.1). -/
theorem queueIn_eq (p : Packet) (own : Bool) (c : Core) : queueIn p own c =
    let j : InJob := { pkt := p, left := p.rows.zipIdx.map (fun r => (r.2, r.1)), stored := 0, refused := none, own := own }
    { c with xfer := { c.xfer with
      ins := c.xfer.ins ++ (if p.halo then [] else [j]), haloIns := c.xfer.haloIns ++ (if p.halo then [j] else []) } } := by
  unfold queueIn
  cases p.halo <;> simp [setIns, insOf]

theorem receiveWrite_rows {site : Nat} {p : Packet} {c : Core} (h : p.rows ≠ []) : receiveWrite site p c = queueIn p false c := by
  rw [receiveWrite, if_neg (by simpa using h)]

theorem receiveWrite_bare {site : Nat} {p : Packet} {c : Core} (h : p.rows = []) : receiveWrite site p c = endWrite site p 0 none c := by
  rw [receiveWrite, if_pos (by simpa using h)]

theorem receiveData_open {p : Packet} {c : Core} (h : findXfer c p ≠ none) :
    receiveData p c = queueIn { p with slot := 255, halo := false } true c := by
  obtain ⟨x, hx⟩ := Option.ne_none_iff_exists'.mp h
  simp only [receiveData, hx]

theorem receiveData_ended {p : Packet} {c : Core} (h : findXfer c p = none) : receiveData p c = c := by
  simp only [receiveData, h]

/-- Settles O30: a packet that its open port takes is queued, or answered where it has no rows; a grant is one access and, after the
last, the packet's answer. -/
theorem dataPackets : Obligations.DataPackets := by
  unfold Obligations.DataPackets
  refine ⟨fun i site s p hsite harrived hopen => ?_, fun site s halo j rest hsite hlive => ?_⟩
  · intro c s1 becomes waits answered writes reads
    have hwrites : ∀ (cmd : Nat → Instr), (∀ c', receiveWrite site p c = c' → becomes (cmd i) c') → writes cmd := fun cmd hbecomes => by
      refine ⟨fun hrows => hbecomes _ ((receiveWrite_rows hrows).trans (queueIn_eq p false c)),
        fun hrows haborted hsegs hxid htotal => ?_⟩
      have hlast : p.total = rowsGot c p 0 := by simpa [rowsGot, rowsSoFar, hsegs] using htotal
      obtain ⟨hended, ⟨a, ⟨hout, htyp, hsrc, hdst, htag, hpxid⟩, hjob⟩, hslots, hrx⟩ :=
        endWrite_last (site := site) ⟨haborted, .inr hxid⟩ hlast
      refine ⟨_, a, hbecomes _ (receiveWrite_bare hrows), hended.trans (by rw [hout]), hslots, fun k => ?_, htyp, hsrc, hdst, htag,
        hpxid, hjob⟩
      rw [hrx, rx_rowsCounted]
      simp only [hsegs, true_and, if_pos hlast]
    have hreads : ∀ (cmd : Nat → Instr), (∀ c', receiveData p c = c' → becomes (cmd i) c') → reads cmd := fun cmd hbecomes =>
      ⟨fun hfound => hbecomes _ ((receiveData_open hfound).trans (queueIn_eq _ true c)),
        fun hnone => hbecomes _ (receiveData_ended hnone)⟩
    have hhbm : ∀ {c' : Core}, p.typ = .hbmData → receiveHbm site p c = c' → becomes (.hbmDataPacket i) c' :=
      fun htyp hc' => exec_delivered (f := receiveHbm) hsite harrived hopen htyp rfl hc'
    refine ⟨fun htyp => hwrites _ fun c' hc' => exec_delivered (f := receiveWrite) hsite harrived hopen htyp rfl hc',
      fun htyp => hwrites _ fun c' hc' => exec_delivered (f := receiveWrite) hsite harrived hopen htyp rfl hc',
      fun htyp hcast => hwrites _ fun c' hc' => hhbm htyp ?_, fun htyp hcast => hreads _ fun c' hc' => hhbm htyp ?_,
      fun htyp => hreads _ fun c' hc' => exec_delivered (f := fun _ => receiveData) hsite harrived hopen htyp rfl hc'⟩
    · rw [receiveHbm, if_pos (Option.isSome_iff_ne_none.mpr hcast), hc']
    · rw [receiveHbm, hcast]
      exact hc'
  · intro c hins hgrant p a n fault last row word words waiting got hleft hown haborted hrows
    obtain ⟨arb, inst, heq⟩ := writeGrant_eq (site := site) hins hgrant hown
    have hmade := inBase_made halo hleft rest c arb inst
    have hstores := inStored_stores (c := { c with arbWr := arb, wr := inst }) hleft
    generalize hd : inBase halo j (inUnits c j) (inFault c j) rest (inStored { c with arbWr := arb, wr := inst } j) = d at *
    have hwords : d.slab.words = (inStored { c with arbWr := arb, wr := inst } j).slab.words := by rw [← hd, inBase]
    have hcur : j.own = false → Current d j.pkt := fun h => ⟨haborted h, by rw [rowCount, hmade]; exact hrows⟩
    have hended := inEnd_ended (site := site) (n := inUnits c j) (fault := inFault c j) hcur
    have hanswers := inEnd_answers (site := site) (n := inUnits c j) (fault := inFault c j) hcur
    rw [← heq] at hended hanswers
    obtain ⟨hlast, hmore, hrefused, hwaits, hcounts⟩ :=
      (inAnswers_congr (c := c) (by rw [hmade]) (by rw [hmade]) (by rw [hmade])).mp hanswers
    have hget : ∀ r sg, getWord (writeGrant site c) r sg = getWord (inStored { c with arbWr := arb, wr := inst } j) r sg :=
      fun r sg => by rw [getWord, hended, getWord, hwords]
    refine ⟨writeGrant site c, arbiterGrant_wr hsite hlive, ?_, fun x hx => ?_, fun r sg hsg hout => ?_, ?_, hlast, hmore, fun hl ho hr => ?_,
      hwaits, hcounts⟩
    · rw [hended, hmade]
      rfl
    · exact (hget _ _).trans (hstores.1 x hx)
    · exact (hget _ _).trans (hstores.2 r sg hsg hout)
    · rw [hended, hmade]
      rfl
    · obtain ⟨⟨a, ⟨hsent, htyp, hsrc, hdst, htag, hxid⟩, hstatus⟩, hslots⟩ := hrefused hl ho hr
      exact ⟨⟨a, hsent, htyp, hsrc, hdst, htag, hxid, hstatus⟩, hslots⟩

end Sys2Proof.Machine
end

section
/-!
PROOFS. Transfers that start (O17).
-/

namespace Sys2Proof.Machine

/-! ### Cuts -/

/-- The cuts (first row, rows) are rows 0 to n - 1 in order (R256). -/
def Covers (cuts : List (Nat × Nat)) (n : Nat) : Prop := cuts.flatMap (fun k => (List.range k.2).map (k.1 + ·)) = List.range n

theorem Covers.sum {cuts : List (Nat × Nat)} {n : Nat} (h : Covers cuts n) : (cuts.map (·.2)).sum = n := by
  have hlen := congrArg List.length h
  simpa [Covers, List.length_flatMap, Function.comp_def] using hlen

theorem Covers.shift {cuts : List (Nat × Nat)} {n : Nat} (h : Covers cuts n) (a : Nat) :
    cuts.flatMap (fun k => (List.range k.2).map (a + k.1 + ·)) = (List.range n).map (a + ·) := by
  rw [← h, List.map_flatMap]
  simp only [List.map_map, Function.comp_def, Nat.add_assoc]

/-- The cuts made of the first rows, the last first, as `cutRows` has them while it runs. -/
def CutSoFar (most : Nat) (acc : List (Nat × Nat)) (n : Nat) : Prop :=
  Covers acc.reverse n ∧ (∀ k ∈ acc, k.2 ≤ most) ∧ ∀ k ∈ acc.head?, k.1 + k.2 = n

theorem covers_concat {cuts : List (Nat × Nat)} {n : Nat} (h : Covers cuts n) : Covers (cuts ++ [(n, 1)]) (n + 1) := by
  rw [Covers, List.flatMap_append, h, List.range_succ]
  rfl

theorem covers_grow {cuts : List (Nat × Nat)} {s m n : Nat} (h : Covers (cuts ++ [(s, m)]) n) (hn : s + m = n) :
    Covers (cuts ++ [(s, m + 1)]) (n + 1) := by
  simp only [Covers, List.flatMap_append, List.flatMap_singleton, List.range_succ, List.map_append, ← List.append_assoc] at h ⊢
  rw [h, ← hn]
  rfl

/-- The cuts with row i added, as one step of `cutRows` has them. -/
def cutStep (part : Nat → Nat) (most : Nat) (acc : List (Nat × Nat)) (i : Nat) : List (Nat × Nat) :=
  match acc with
  | (s, n) :: l => if part i = part s ∧ n < most then (s, n + 1) :: l else (i, 1) :: (s, n) :: l
  | [] => [(i, 1)]

theorem cutRows_eq (part : Nat → Nat) (most count : Nat) :
    cutRows part most count = ((List.range count).foldl (cutStep part most) []).reverse := rfl

theorem cutStep_soFar (part : Nat → Nat) {most : Nat} (hmost : 0 < most) {acc : List (Nat × Nat)} {n : Nat}
    (h : CutSoFar most acc n) : CutSoFar most (cutStep part most acc n) (n + 1) := by
  obtain ⟨hcover, hle, hhead⟩ := h
  have hnew : CutSoFar most ((n, 1) :: acc) (n + 1) := by
    refine ⟨?_, List.forall_mem_cons.mpr ⟨hmost, hle⟩, fun k hk => ?_⟩
    · rw [List.reverse_cons]
      exact covers_concat hcover
    · obtain rfl := Option.mem_some.mp hk
      rfl
  match acc with
  | [] => exact hnew
  | (s, m) :: l =>
    rw [cutStep]
    split
    · next hroom =>
      obtain ⟨-, hle⟩ := List.forall_mem_cons.mp hle
      have hn : s + m = n := hhead _ rfl
      refine ⟨?_, List.forall_mem_cons.mpr ⟨hroom.2, hle⟩, fun k hk => ?_⟩
      · rw [List.reverse_cons] at hcover ⊢
        exact covers_grow hcover hn
      · obtain rfl := Option.mem_some.mp hk
        exact congrArg (· + 1) hn
    · exact hnew

/-- Cut rows cover the range in order, and no packet holds more than it may (R256). -/
theorem cutRows_soFar (part : Nat → Nat) {most : Nat} (hmost : 0 < most) (count : Nat) :
    CutSoFar most ((List.range count).foldl (cutStep part most) []) count := by
  induction count with
  | zero => exact ⟨rfl, by simp, by simp⟩
  | succ count ih =>
    rw [List.range_succ, List.foldl_append]
    exact cutStep_soFar part hmost ih

theorem cutRows_covers (part : Nat → Nat) {most : Nat} (hmost : 0 < most) (count : Nat) : Covers (cutRows part most count) count :=
  (cutRows_soFar part hmost count).1

theorem cutRows_le (part : Nat → Nat) {most : Nat} (hmost : 0 < most) (count : Nat) : ∀ k ∈ cutRows part most count, k.2 ≤ most :=
  fun k hk => (cutRows_soFar part hmost count).2.1 k (List.mem_reverse.mp hk)

theorem pktRows_pos (side : Bool) : 0 < pktRows side := by cases side <;> decide

theorem slabCuts_covers (a : XferArgs) : Covers (slabCuts a) a.count := cutRows_covers _ (pktRows_pos a.side) _

theorem slabCuts_le (a : XferArgs) : ∀ k ∈ slabCuts a, k.2 ≤ pktRows a.side := cutRows_le _ (pktRows_pos a.side) _

theorem hbmCuts_covers (part : Nat → Nat) (a : XferArgs) (v : Nat) : Covers (hbmCuts part a v) a.count :=
  cutRows_covers _ (pktRows_pos a.side) _

theorem hbmCuts_le (part : Nat → Nat) (a : XferArgs) (v : Nat) : ∀ k ∈ hbmCuts part a v, k.2 ≤ pktRows a.side :=
  cutRows_le _ (pktRows_pos a.side) _

/-! ### The parts of a window transfer -/

theorem windowParts_le (fuel a n : Nat) : ∀ k ∈ windowParts fuel a n, k.2 ≤ 32 := by
  induction fuel generalizing a n with
  | zero => simp [windowParts]
  | succ fuel ih =>
    rw [windowParts]
    split
    · simp
    · exact List.forall_mem_cons.mpr ⟨by simp, ih _ _⟩

/-- With fuel for each segment the parts hold them all (R149). -/
theorem windowParts_sum {fuel n : Nat} (a : Nat) (h : n < fuel) : ((windowParts fuel a n).map (·.2)).sum = n := by
  induction fuel generalizing a n with
  | zero => exact absurd h (Nat.not_lt_zero n)
  | succ fuel ih =>
    rw [windowParts]
    split
    · next hn => simp [hn]
    · next hn =>
      dsimp only
      rw [List.map_cons, List.sum_cons, ih _ (by omega)]
      dsimp only
      omega

/-- A cut of a window transfer: its segment, and how many. -/
def windowCut (k : Nat × Nat × Nat × Nat) : Nat × Nat := (k.1, k.2.2.2)

/-- A part of a window transfer joins the cuts, as one step of `windowCuts` has it. -/
def windowStep (c : Core) (acc : List (Nat × Nat × Nat × Nat) × Nat) (pt : Nat × Nat) : List (Nat × Nat × Nat × Nat) × Nat :=
  let w := windowAt c.slab pt.1
  let site := ((placeOf c.place w.1.1 w.1.2).map (·.site)).getD c.place.site
  (acc.1 ++ [(acc.2, site, w.2 * 32 + pt.1 % 128 / 4, pt.2)], acc.2 + pt.2)

theorem windowCuts_eq (c : Core) (a : XferArgs) :
    windowCuts c a = ((windowParts (a.count + 1) (windowAddr a) a.count).foldl (windowStep c) ([], 0)).1 := rfl

theorem windowSteps_cover (c : Core) (parts : List (Nat × Nat)) (acc : List (Nat × Nat × Nat × Nat) × Nat)
    (h : Covers (acc.1.map windowCut) acc.2) :
    Covers ((parts.foldl (windowStep c) acc).1.map windowCut) (acc.2 + (parts.map (·.2)).sum) := by
  induction parts generalizing acc with
  | nil => exact h
  | cons pt parts ih =>
    rw [List.foldl_cons, List.map_cons, List.sum_cons, ← Nat.add_assoc]
    refine ih _ ?_
    simp only [windowStep, List.map_append, List.map_singleton, windowCut, Covers, List.flatMap_append, List.flatMap_singleton,
      List.range_add]
    rw [← h]

theorem windowCuts_covers (c : Core) (a : XferArgs) : Covers ((windowCuts c a).map windowCut) a.count := by
  have hcover := windowSteps_cover c (windowParts (a.count + 1) (windowAddr a) a.count) ([], 0) rfl
  rwa [windowParts_sum _ (Nat.lt_succ_self _), Nat.zero_add] at hcover

theorem windowSteps_le (c : Core) {parts : List (Nat × Nat)} (hparts : ∀ k ∈ parts, k.2 ≤ 32)
    (acc : List (Nat × Nat × Nat × Nat) × Nat) (h : ∀ k ∈ acc.1, k.2.2.2 ≤ 32) :
    ∀ k ∈ (parts.foldl (windowStep c) acc).1, k.2.2.2 ≤ 32 := by
  induction parts generalizing acc with
  | nil => exact h
  | cons pt parts ih =>
    obtain ⟨hpt, hparts⟩ := List.forall_mem_cons.mp hparts
    refine ih hparts _ fun k hk => ?_
    rcases List.mem_append.mp hk with hk | hk
    · exact h k hk
    · obtain rfl := List.mem_singleton.mp hk
      exact hpt

theorem windowCuts_le (c : Core) (a : XferArgs) : ∀ k ∈ windowCuts c a, k.2.2.2 ≤ 32 :=
  windowSteps_le c (windowParts_le _ _ _) ([], 0) (by simp)

/-! ### The index of a transfer -/

/-- With fewer than 16 transfers outstanding the index of a new one is its own. -/
theorem freeTag_fresh {c : Core} (h : c.xfer.jobs.length < 16) : ∀ i ∈ c.xfer.jobs, i.tag ≠ freeTag c := by
  obtain ⟨t, ht⟩ : ∃ t, (List.range 16).find? (fun t => !c.xfer.jobs.any fun j => decide (j.tag = t)) = some t := by
    by_contra hnone
    have htaken := List.find?_eq_none.mp (Option.eq_none_iff_forall_ne_some.mpr fun t ht => hnone ⟨t, ht⟩)
    have hall : ∀ t ∈ List.range 16, t ∈ c.xfer.jobs.map (·.tag) := by simpa using htaken
    have hlen := (List.nodup_range.subperm hall).length_le
    rw [List.length_range, List.length_map] at hlen
    omega
  have hfree := List.find?_some ht
  rw [freeTag, ht]
  simpa using hfree

/-! ### What a transfer sends -/

/-- The type of a transfer's packets (Tables 9.5 and 7.7). -/
def xferType (a : XferArgs) : PktType :=
  match a.f with
  | .xget => if a.kind = 1 then .hbmRead else .read
  | .xput => if a.kind = 1 then .hbmWrite else .write
  | .xhalo => .write
  | .xcast => if a.kind = 1 then .hbmRead else .mcastWrite

/-- A packet carries the header of its transfer (R252, R256). -/
def Headed (c : Core) (a : XferArgs) (tag icount : Nat) (p : Packet) : Prop :=
  p.src = c.place.site ∧ p.job = c.place.job ∧ p.tag = tag ∧ p.xid = some icount ∧
    p.count ≤ (if a.side ∧ farKind a ≠ 2 then 28 else 32) ∧ p.typ = xferType a

/-- One header without rows. -/
def HeaderAlone (ps : List Packet) (js : List OutJob) : Prop := js = [] ∧ ps.length = 1 ∧ ∀ p ∈ ps, p.count = 0

/-- Packets that wait for the reads of their rows, which cover the local range in order (R251, R253, R254). -/
def RowReads (c : Core) (a : XferArgs) (tag : Nat) (ps : List Packet) (js : List OutJob) : Prop :=
  ps = [] ∧ js.flatMap (fun o => (List.range o.left).map (o.next + ·)) = (List.range a.count).map (a.src + ·) ∧
  ∀ o ∈ js, o.own = some tag ∧ o.left = o.pkt.count ∧
    (a.f = .xput ∨ a.f = .xhalo → farKind a = 0 → o.pkt.addr + a.src = a.far.row + o.next ∧
      o.pkt.dst = (farSites c a).headD c.place.site) ∧
    (farKind a = 1 → o.pkt.haddr + a.src * hbmRowBytes a.side = a.dst + o.next * hbmRowBytes a.side)

/-- The packets of a transfer, and what it waits for (R251 to R256). -/
def Sends (c : Core) (a : XferArgs) (icount : Nat) (j : XferJob) (ps : List Packet) (js : List OutJob) : Prop :=
  (a.f = .xget → js = [] ∧ j.waitRows = a.count ∧ j.waitAcks = [] ∧ j.hbmAcks = 0) ∧
  (a.f = .xcast ∨ farKind a = 0 → a.f ≠ .xget → j.waitAcks = farSites c a ∧ j.hbmAcks = 0 ∧ j.waitRows = 0) ∧
  (a.f ≠ .xget → a.f ≠ .xcast → farKind a ≠ 0 → j.waitAcks = [] ∧ j.hbmAcks = js.length ∧ j.waitRows = 0) ∧
  (∀ p ∈ ps ++ js.map (·.pkt), Headed c a j.tag icount p) ∧
  (a.f = .xcast ∧ a.kind = 1 ∨ a.f = .xget → (ps.map (·.count)).sum = a.count) ∧
  (a.f ≠ .xget → ¬(a.f = .xcast ∧ a.kind = 1) → farKind a = 0 → a.po = true → HeaderAlone ps js) ∧
  (a.f ≠ .xget → ¬(a.f = .xcast ∧ a.kind = 1) → (a.po = false ∨ farKind a ≠ 0 ∧ a.f ≠ .xcast) → RowReads c a j.tag ps js)

/-- The core with a transfer started: its packets handed to the router, its reads queued (Table 4.1, R253). -/
def xferStarted (f : XferFn) (j : XferJob) (ps : List Packet) (js : List OutJob) (c : Core) : Core :=
  { c with
    out := c.out ++ ps
    xfer := { c.xfer with
      jobs := c.xfer.jobs ++ [j], outs := c.xfer.outs ++ (if f = .xhalo then [] else js)
      haloOuts := c.xfer.haloOuts ++ (if f = .xhalo then js else []) } }

/-- A transfer has started under a free index, with the packets that its operands ask for. -/
def Starts (c : Core) (st : Started) (a : XferArgs) (d : Core) : Prop :=
  ∃ j ps js, d = xferStarted a.f j ps js c ∧ j.st = st ∧ j.nacked = false ∧ j.tag = freeTag c ∧ Sends c a st.entry.icount j ps js

theorem sendPkts_addXfer (f : XferFn) (j : XferJob) (ps : List Packet) (c : Core) :
    sendPkts (addXfer c j) ps = xferStarted f j ps [] c := by
  simp [sendPkts, addXfer, xferStarted]

theorem queueOuts_addXfer (f : XferFn) (j : XferJob) (js : List OutJob) (c : Core) :
    queueOuts (addXfer c j) (decide (f = .xhalo)) js = xferStarted f j [] js c := by
  by_cases hf : f = .xhalo <;> simp [queueOuts, addXfer, xferStarted, hf]

theorem le_of_le_pktRows {a : XferArgs} {n : Nat} (h : n ≤ pktRows a.side) : n ≤ (if a.side ∧ farKind a ≠ 2 then 28 else 32) := by
  cases hside : a.side <;> simp only [hside, pktRows, if_true, Bool.false_eq_true, if_false, false_and] at h ⊢
  · exact h
  · split <;> omega

theorem le_of_window {a : XferArgs} {n : Nat} (hkind : farKind a = 2) (h : n ≤ 32) :
    n ≤ (if a.side ∧ farKind a ≠ 2 then 28 else 32) := by
  simpa [hkind] using h

section
variable {α : Type} {cuts : List α} {row : α → Nat × Nat} {n : Nat} (hcover : Covers (cuts.map row) n)
include hcover

theorem counts_sum {pkt : α → Packet} (hcount : ∀ k, (pkt k).count = (row k).2) : ((cuts.map pkt).map (·.count)).sum = n := by
  simpa [Function.comp_def, hcount] using hcover.sum

theorem reads_cover (pkt : α → Packet) (src : Nat) (own : Option Nat) :
    (cuts.map fun k => outJob (pkt k) (src + (row k).1) (row k).2 own).flatMap (fun o => (List.range o.left).map (o.next + ·)) =
      (List.range n).map (src + ·) := by
  have hshift := hcover.shift src
  rw [List.flatMap_map] at hshift ⊢
  exact hshift

end

/-! ### XGET -/

section
variable {c : Core} {st : Started} {a : XferArgs}

/-- An XGET's read requests go out at once, and it waits for its rows (R252). -/
theorem starts_requests (hf : a.f = .xget) {ps : List Packet} (hheaded : ∀ p ∈ ps, Headed c a (freeTag c) st.entry.icount p)
    (hsum : (ps.map (·.count)).sum = a.count) :
    Starts c st a (sendPkts (addXfer c (xferJob st (freeTag c) [] 0 a.count)) ps) := by
  refine ⟨_, ps, [], sendPkts_addXfer a.f _ ps c, rfl, rfl, rfl, fun _ => ⟨rfl, rfl, rfl, rfl⟩, fun _ h => absurd hf h,
    fun h => absurd hf h, fun p hp => hheaded p (by simpa using hp), fun _ => hsum, fun h => absurd hf h, fun h => absurd hf h⟩

theorem requestRows_starts (part : Nat → Nat) (hf : a.f = .xget) (hkind : farKind a ≤ 2) :
    Starts c st a (requestRows part st a c) := by
  have hfar : farKind a = a.kind := if_neg (by rw [hf]; decide)
  rw [requestRows]
  split
  · next h0 =>
    refine starts_requests hf (fun p hp => ?_)
      (counts_sum (row := id) (by rw [List.map_id]; exact slabCuts_covers a) fun k => rfl)
    obtain ⟨k, hk, rfl⟩ := List.mem_map.mp hp
    exact ⟨rfl, rfl, rfl, rfl, le_of_le_pktRows (slabCuts_le a k hk), by simp [xferType, hf, h0, xferPkt, mkPkt]⟩
  · split
    · next h1 =>
      refine starts_requests hf (fun p hp => ?_)
        (counts_sum (row := id) (by rw [List.map_id]; exact hbmCuts_covers part a a.src) fun k => rfl)
      obtain ⟨k, hk, rfl⟩ := List.mem_map.mp hp
      exact ⟨rfl, rfl, rfl, rfl, le_of_le_pktRows (hbmCuts_le part a a.src k hk), by simp [xferType, hf, h1, xferPkt, mkPkt]⟩
    · next h0 h1 =>
      refine starts_requests hf (fun p hp => ?_) (counts_sum (row := windowCut) (windowCuts_covers c a) fun k => rfl)
      obtain ⟨k, hk, rfl⟩ := List.mem_map.mp hp
      exact ⟨rfl, rfl, rfl, rfl, le_of_window (by omega) (windowCuts_le c a k hk), by simp [xferType, hf, h1, xferPkt, mkPkt]⟩

/-! ### XCAST from HBM -/

theorem castHbm_starts (part : Nat → Nat) (hf : a.f = .xcast) (hkind : a.kind = 1) : Starts c st a (castHbm part st a c) := by
  refine ⟨_, _, [], sendPkts_addXfer a.f _ _ c, rfl, rfl, rfl, fun h => absurd (hf.symm.trans h) (by decide),
    fun _ _ => ⟨rfl, rfl, rfl⟩, fun _ h => absurd hf h, fun p hp => ?_,
    fun _ => counts_sum (row := id) (by rw [List.map_id]; exact hbmCuts_covers part a a.src) fun k => rfl,
    fun _ h => absurd ⟨hf, hkind⟩ h, fun _ h => absurd ⟨hf, hkind⟩ h⟩
  rw [List.map_nil, List.append_nil] at hp
  obtain ⟨k, hk, rfl⟩ := List.mem_map.mp hp
  exact ⟨rfl, rfl, rfl, rfl, le_of_le_pktRows (hbmCuts_le part a a.src k hk),
    by simp [xferType, hf, hkind, castRects, postTo, xferPkt, mkPkt]⟩

/-! ### XPUT, XHALO and XCAST of local rows to slabs -/

/-- The packet of rows s to s + n - 1 of a slab transfer (R251, R253, R254). -/
def slabPkt (c : Core) (st : Started) (a : XferArgs) (s n : Nat) : Packet :=
  let p := postTo a { xferPkt c st (freeTag c) a.side .write ((farSites c a).headD c.place.site) n with
    halo := decide (a.f = .xhalo), addr := a.far.row + s }
  if a.f = .xcast then castRects c a { p with typ := .mcastWrite, dst := c.place.site } else p

theorem sendSlab_eq : sendSlab st a c =
    let b := addXfer c (xferJob st (freeTag c) (farSites c a) 0 0)
    if a.po then sendPkts b [slabPkt c st a 0 0]
    else queueOuts b (decide (a.f = .xhalo))
      ((slabCuts a).map fun k => outJob (slabPkt c st a k.1 k.2) (a.src + k.1) k.2 (some (freeTag c))) := rfl

theorem slabPkt_header (s n : Nat) : (slabPkt c st a s n).src = c.place.site ∧ (slabPkt c st a s n).job = c.place.job ∧
    (slabPkt c st a s n).tag = freeTag c ∧ (slabPkt c st a s n).xid = some st.entry.icount ∧ (slabPkt c st a s n).count = n := by
  unfold slabPkt
  dsimp only
  split <;> exact ⟨rfl, rfl, rfl, rfl, rfl⟩

theorem slabPkt_count (s n : Nat) : (slabPkt c st a s n).count = n := by
  obtain ⟨-, -, -, -, hcount⟩ := slabPkt_header (c := c) (st := st) (a := a) s n
  exact hcount

theorem slabPkt_place (hf : a.f ≠ .xcast) (s n : Nat) :
    (slabPkt c st a s n).addr = a.far.row + s ∧ (slabPkt c st a s n).dst = (farSites c a).headD c.place.site := by
  rw [slabPkt, if_neg hf]
  exact ⟨rfl, rfl⟩

section
variable (hget : a.f ≠ .xget) (hcast : ¬(a.f = .xcast ∧ a.kind = 1)) (hslab : farKind a = 0 ∨ a.f = .xcast)
include hget hcast hslab

theorem slabPkt_headed {s n : Nat} (hn : n ≤ pktRows a.side) : Headed c a (freeTag c) st.entry.icount (slabPkt c st a s n) := by
  obtain ⟨hsrc, hjob, htag, hxid, hcount⟩ := slabPkt_header (c := c) (st := st) (a := a) s n
  have htyp : (slabPkt c st a s n).typ = xferType a := by
    cases hf : a.f with
    | xget => exact absurd hf hget
    | xput =>
      have hkind : a.kind = 0 := (if_neg (by rw [hf]; decide)).symm.trans (hslab.resolve_right (by rw [hf]; decide))
      simp [slabPkt, xferType, hf, hkind, postTo, xferPkt, mkPkt]
    | xhalo => simp [slabPkt, xferType, hf, postTo, xferPkt, mkPkt]
    | xcast =>
      have hkind : a.kind ≠ 1 := fun h => hcast ⟨hf, h⟩
      simp [slabPkt, xferType, hf, hkind, castRects]
  exact ⟨hsrc, hjob, htag, hxid, hcount.symm ▸ le_of_le_pktRows hn, htyp⟩

theorem sendSlab_starts : Starts c st a (sendSlab st a c) := by
  have hkind1 : farKind a = 1 → False := fun h => hslab.elim (by omega) fun hf =>
    hcast ⟨hf, (if_neg (by rw [hf]; decide)).symm.trans h⟩
  rw [sendSlab_eq]
  dsimp only
  split
  · next hpo =>
    refine ⟨_, _, [], sendPkts_addXfer a.f _ _ c, rfl, rfl, rfl, fun h => absurd h hget, fun _ _ => ⟨rfl, rfl, rfl⟩,
      fun _ hc h0 => absurd (hslab.resolve_right hc) h0, fun p hp => ?_, fun h => (h.elim hcast hget).elim,
      fun _ _ _ _ => ⟨rfl, rfl, fun p hp => ?_⟩, fun _ _ h => ?_⟩
    · obtain rfl := List.mem_singleton.mp (by simpa using hp)
      exact slabPkt_headed hget hcast hslab (Nat.zero_le _)
    · obtain rfl := List.mem_singleton.mp hp
      exact slabPkt_count ..
    · rcases h with h | ⟨h0, hc⟩
      · exact absurd (hpo.symm.trans h) (by decide)
      · exact absurd (hslab.resolve_right hc) h0
  · next hpo =>
    refine ⟨_, [], _, queueOuts_addXfer a.f _ _ c, rfl, rfl, rfl, fun h => absurd h hget, fun _ _ => ⟨rfl, rfl, rfl⟩,
      fun _ hc h0 => absurd (hslab.resolve_right hc) h0, fun p hp => ?_, fun h => (h.elim hcast hget).elim,
      fun _ _ _ h => absurd h hpo, fun _ _ _ => ⟨rfl, ?_, fun o ho => ?_⟩⟩
    · obtain ⟨k, hk, rfl⟩ : ∃ k ∈ slabCuts a, slabPkt c st a k.1 k.2 = p := by simpa [outJob] using hp
      exact slabPkt_headed hget hcast hslab (slabCuts_le a k hk)
    · exact reads_cover (row := id) (by rw [List.map_id]; exact slabCuts_covers a) (fun k => slabPkt c st a k.1 k.2) a.src _
    · obtain ⟨k, -, rfl⟩ := List.mem_map.mp ho
      refine ⟨rfl, (slabPkt_count ..).symm, fun hf _ => ?_, fun h => (hkind1 h).elim⟩
      obtain ⟨haddr, hdst⟩ := slabPkt_place (c := c) (st := st) (a := a) (by rcases hf with hf | hf <;> rw [hf] <;> decide) k.1 k.2
      refine ⟨?_, hdst⟩
      simp only [outJob, haddr]
      omega

end

/-! ### XPUT to HBM and to the window -/

/-- An XPUT by packets that are acknowledged one by one (R251). -/
theorem starts_acked {α : Type} (hf : a.f = .xput) (hkind : farKind a ≠ 0) {cuts : List α} {row : α → Nat × Nat}
    (hcover : Covers (cuts.map row) a.count) {pkt : α → Packet} (hheaded : ∀ k ∈ cuts, Headed c a (freeTag c) st.entry.icount (pkt k))
    (hcount : ∀ k, (pkt k).count = (row k).2)
    (hhaddr : farKind a = 1 → ∀ k, (pkt k).haddr = a.dst + (row k).1 * hbmRowBytes a.side) :
    Starts c st a (queueOuts (addXfer c (xferJob st (freeTag c) [] cuts.length 0)) false
      (cuts.map fun k => outJob (pkt k) (a.src + (row k).1) (row k).2 (some (freeTag c)))) := by
  have hhalo : decide (a.f = .xhalo) = false := by rw [hf]; decide
  have hcast : a.f ≠ .xcast := by rw [hf]; decide
  have hget : a.f ≠ .xget := by rw [hf]; decide
  rw [← hhalo]
  refine ⟨_, [], _, queueOuts_addXfer a.f _ _ c, rfl, rfl, rfl, fun h => absurd h hget, fun h => (h.elim hcast hkind).elim,
    fun _ _ _ => ⟨rfl, (List.length_map _).symm, rfl⟩, fun p hp => ?_, fun h => (h.elim (fun h => hcast h.1) hget).elim,
    fun _ _ h => absurd h hkind, fun _ _ _ => ⟨rfl, reads_cover hcover pkt a.src _, fun o ho => ?_⟩⟩
  · obtain ⟨k, hk, rfl⟩ : ∃ k ∈ cuts, pkt k = p := by simpa [outJob] using hp
    exact hheaded k hk
  · obtain ⟨k, -, rfl⟩ := List.mem_map.mp ho
    refine ⟨rfl, (hcount k).symm, fun _ h => absurd h hkind, fun h => ?_⟩
    simp only [outJob, hhaddr h k]
    ring

theorem sendHbm_starts (part : Nat → Nat) (hf : a.f = .xput) (hkind : a.kind = 1) : Starts c st a (sendHbm part st a c) := by
  have hfar : farKind a = a.kind := if_neg (by rw [hf]; decide)
  refine starts_acked hf (by omega) (row := id) (by rw [List.map_id]; exact hbmCuts_covers part a a.dst) (fun k hk => ?_)
    (fun k => rfl) fun _ k => rfl
  exact ⟨rfl, rfl, rfl, rfl, le_of_le_pktRows (hbmCuts_le part a a.dst k hk), by simp [xferType, hf, hkind, xferPkt, mkPkt]⟩

theorem sendWindow_starts (hf : a.f = .xput) (hkind : a.kind = 2) : Starts c st a (sendWindow st a c) := by
  have hfar : farKind a = a.kind := if_neg (by rw [hf]; decide)
  refine starts_acked hf (by omega) (row := windowCut) (windowCuts_covers c a) (fun k hk => ?_) (fun k => rfl) fun h => by omega
  exact ⟨rfl, rfl, rfl, rfl, le_of_window (by omega) (windowCuts_le c a k hk), by simp [xferType, hf, hkind, xferPkt, mkPkt]⟩

/-- A transfer that runs starts with the packets of its function and kind (R251 to R254). -/
theorem runXfer_starts (part : Nat → Nat) (hkind : farKind a ≤ 2) : Starts c st a (runXfer part st a c) := by
  cases hf : a.f with
  | xget =>
    rw [runXfer, hf]
    exact requestRows_starts part hf hkind
  | xhalo =>
    rw [runXfer, hf]
    exact sendSlab_starts (by simp [hf]) (by simp [hf]) (.inl (if_pos hf))
  | xcast =>
    simp only [runXfer, hf]
    split
    · next h1 => exact castHbm_starts part hf h1
    · next h1 => exact sendSlab_starts (by simp [hf]) (fun h => h1 h.2) (.inr hf)
  | xput =>
    have hfar : farKind a = a.kind := if_neg (by rw [hf]; decide)
    simp only [runXfer, hf]
    split
    · next h0 => exact sendSlab_starts (by simp [hf]) (by simp [hf]) (.inl (hfar.trans h0))
    · split
      · next h1 => exact sendHbm_starts part hf h1
      · next h0 h1 => exact sendWindow_starts hf (by omega)

end

/-! ### The head of the transfer queue -/

theorem xferArgs_some {q : QEntry} {a : XferArgs} (h : xferArgs q = some a) :
    opEngine q.insn.op = .transfer ∧ ∀ c : Core, engineFree c q.insn.op = decide (c.xfer.jobs.length < 16) := by
  unfold xferArgs at h
  split at h
  · next hop => simp [hop, engineFree, opEngine]
  · exact absurd h (by simp)

/-- The core with the admission of the head of the transfer queue taken, unless it was before (R155, R172). -/
def admittedCore (q : QEntry) (c : Core) : Core := if q.admitted then c else admitWait c q.insn.wait

theorem admittedCore_frame (q : QEntry) (c : Core) :
    admittedCore q c = { c with sync := { c.sync with slots := (admittedCore q c).sync.slots } } := by
  unfold admittedCore
  split
  · rfl
  · exact admitWait_frame ..

theorem slotCounts_admittedCore (q : QEntry) (c : Core) :
    SlotCounts c (admittedCore q c) (fun n => if q.admitted then 0 else oneOf q.insn.wait n) (fun _ => 0) fun _ => 0 := by
  intro n
  unfold admittedCore
  split
  · rfl
  · exact getSlot_admitWait ..

/-- The generation that a transfer's admission was taken under (R171). -/
def admittedGen (q : QEntry) (c : Core) : Nat := if q.admitted then q.gen else waitGen c q.insn.wait

section
variable {hbm : Nat → Nat → Bool → Option (FaultCode × Bool)} {part : Nat → Nat} {c : Core} {q : QEntry} {rest : List QEntry}
  {a : XferArgs} (hq : c.qxfer = q :: rest) (hargs : xferArgs q = some a) (hmay : mayStart c = true)
  (hroom : c.xfer.jobs.length < 16) (hadmit : q.admitted = true ∨ admitsNow c .transfer q.insn.wait = true)
include hq hargs hmay hroom hadmit

theorem startXfer_eq : startXfer hbm part a.f c =
    match if q.admitted then none else xferCheck hbm c a with
    | some flt => (entryFault { admittedCore q c with qxfer := rest } flt.1 q, flt.2)
    | none =>
      if creditsHeld c (creditPairs c a) then
        (runXfer part { entry := q, gen := admittedGen q c } a
          (takeCredits { admittedCore q c with qxfer := rest } (creditPairs c a)), false)
      else ({ admittedCore q c with qxfer := { q with admitted := true, gen := admittedGen q c } :: rest }, false) := by
  simp only [startXfer, hq, hargs]
  refine if_pos ?_
  simp [hmay, (xferArgs_some hargs).2 c, hroom, hadmit]

/-- A transfer that passed its checks and holds its credits runs with them consumed (R179). -/
theorem startXfer_runs (hcheck : (if q.admitted then none else xferCheck hbm c a) = none)
    (hcredits : creditsHeld c (creditPairs c a) = true) : startXfer hbm part a.f c =
      (runXfer part { entry := q, gen := admittedGen q c } a
        (takeCredits { admittedCore q c with qxfer := rest } (creditPairs c a)), false) := by
  rw [startXfer_eq hq hargs hmay hroom hadmit, hcheck]
  exact if_pos hcredits

/-- Without its credits a transfer keeps its admission and waits (R179). -/
theorem startXfer_waits (hcheck : (if q.admitted then none else xferCheck hbm c a) = none)
    (hcredits : creditsHeld c (creditPairs c a) = false) : startXfer hbm part a.f c =
      ({ admittedCore q c with qxfer := { q with admitted := true, gen := admittedGen q c } :: rest }, false) := by
  rw [startXfer_eq hq hargs hmay hroom hadmit, hcheck]
  exact if_neg (by simp [hcredits])

/-- A transfer that fails its checks faults at its admission (R255). -/
theorem startXfer_faults (hnew : q.admitted = false) {flt : FaultCode × Bool} (hcheck : xferCheck hbm c a = some flt) :
    startXfer hbm part a.f c = (entryFault { admittedCore q c with qxfer := rest } flt.1 q, flt.2) := by
  rw [startXfer_eq hq hargs hmay hroom hadmit, hnew, if_neg Bool.false_ne_true, hcheck]

end

/-! ### The checks at the admission -/

/-- The local rows, or segments, of a transfer lie in the slab. -/
def LocalOk (a : XferArgs) : Prop := ∀ r, localStart a = some r → r + a.count ≤ if farKind a = 2 then 24576 * 32 else 24576

/-- The HBM address of a transfer of kind 01b. -/
def hbmAddr (a : XferArgs) : Nat := if a.f = .xput then a.dst else a.src

section
variable {hbm : Nat → Nat → Bool → Option (FaultCode × Bool)} {c : Core} {a : XferArgs}

/-- Does a transfer reach past the slab, as the checks have it? -/
def localBad (a : XferArgs) : Bool :=
  match localStart a with
  | some r => decide (r + a.count > if farKind a = 2 then slabRows * 32 else slabRows)
  | none => false

theorem localBad_iff : localBad a = true ↔ ¬LocalOk a := by
  unfold localBad LocalOk
  split
  · next r hr =>
    simp only [hr, decide_eq_true_eq, Option.some.injEq, forall_eq', Nat.not_le]
    rfl
  · next hr => simp [hr]

/-- The checks that follow those of the local range and the address. -/
theorem xferCheck_eq : xferCheck hbm c a =
    if localBad a then some (.slabRange, false)
    else if farKind a = 1 ∧ hbmAddr a % 16 ≠ 0 then some (.slabRange, false)
    else
      match if farKind a = 1 then hbm (hbmAddr a) (a.count * hbmRowBytes a.side) (decide (a.f = .xput)) else none with
      | some f => some f
      | none =>
        if farKind a = 2 ∧ (!c.slab.winEn ∨ windowAddr a + 4 * a.count > c.slab.winPages * 4096) then some (.slabRange, false)
        else
          let cores :=
            if farKind a = 2 then (windowParts (a.count + 1) (windowAddr a) a.count).map (fun p => (windowAt c.slab p.1).1)
            else if farKind a = 1 ∧ a.f ≠ .xcast then [] else farCores c a
          if cores.any (coreFenced c.place) then some (.fencedTarget, false)
          else if farKind a = 1 ∧ arenaBad c.place (hbmAddr a) (a.count * hbmRowBytes a.side) then some (.shapeBound, false)
          else none := rfl

theorem xferCheck_range (h : ¬LocalOk a ∨ farKind a = 1 ∧ hbmAddr a % 16 ≠ 0) : xferCheck hbm c a = some (.slabRange, false) := by
  rw [xferCheck_eq]
  by_cases hbad : localBad a = true
  · exact if_pos hbad
  · exact (if_neg hbad).trans (if_pos (h.resolve_left fun hl => hbad (localBad_iff.mpr hl)))

variable (hlocal : LocalOk a)
include hlocal

theorem localBad_ne : ¬localBad a = true := fun h => localBad_iff.mp h hlocal

/-- The page map's refusal is a transfer's fault (R255, R363). -/
theorem xferCheck_page (hkind : farKind a = 1) (haddr : hbmAddr a % 16 = 0) {flt : FaultCode × Bool}
    (hpage : hbm (hbmAddr a) (a.count * hbmRowBytes a.side) (decide (a.f = .xput)) = some flt) : xferCheck hbm c a = some flt := by
  rw [xferCheck_eq, if_neg (localBad_ne hlocal), if_neg fun h => h.2 haddr, if_pos hkind, hpage]

theorem xferCheck_fenced (hkind : farKind a = 0) (hcore : ∃ v ∈ farCores c a, coreFenced c.place v = true) :
    xferCheck hbm c a = some (.fencedTarget, false) := by
  have h1 : farKind a ≠ 1 := by omega
  have h2 : farKind a ≠ 2 := by omega
  rw [xferCheck_eq, if_neg (localBad_ne hlocal)]
  simp only [h1, h2, false_and, if_false, List.any_eq_true.mpr hcore, if_true]

end

theorem pageCheck_refused {h : Hbm} {job v n : Nat} {write : Bool} (hrange : rangeOk h job write v n = false) :
    pageCheck h job v n write = some (.slabRange, true) := if_neg (by simp [hrange])

/-! ### The command -/

theorem exec_xferCmd (f : XferFn) (site : Nat) (s : State) : exec (xferCmd f site) s = xferOn f site s := by
  cases f <;> rfl

section
variable {site : Nat} {s : State} {f : XferFn} {c' : Core} (hsite : siteOk site = true)
include hsite

theorem exec_xfer (h : startXfer (pageCheck s.hbm (getCore s site).place.job) (partOf s.hbm (getCore s site).place.job) f
    (getCore s site) = (c', false)) : exec (xferCmd f site) s = .next (atCore site (fun _ => c') s) := by
  rw [exec_xferCmd, xferOn]
  simp only [h, hsite, Bool.false_eq_true, if_false, answer, if_true]

/-- A transfer that the page map refuses counts (R363). -/
theorem exec_xfer_violation (h : startXfer (pageCheck s.hbm (getCore s site).place.job) (partOf s.hbm (getCore s site).place.job) f
    (getCore s site) = (c', true)) :
    exec (xferCmd f site) s = .next { atCore site (fun _ => c') s with hbm := countViolation s.hbm } := by
  have hhbm : (atCore site (fun _ => c') s).hbm = s.hbm := by rw [atCore_eq]
  rw [exec_xferCmd, xferOn]
  simp only [h, hsite, answer, if_true, hhbm]

end

/-- Settles O17: the head of the transfer queue faults on its checks, waits for its credits, or runs; a transfer that runs starts
with the packets of its function and kind. -/
theorem transfersStart : Obligations.TransfersStart := by
  unfold Obligations.TransfersStart
  intro f site s q rest a hsite c hq hargs hf hmay hroom hkind hadmit admits gen st slots check rowBytes
  subst hf
  have hcounts := slotCounts_admittedCore q c
  obtain ⟨x, hx⟩ : ∃ x, admittedCore q c = { c with sync := { c.sync with slots := x } } := ⟨_, admittedCore_frame q c⟩
  rw [hx] at hcounts
  refine ⟨fun hcheck hcredits => ?_, fun hcheck hcredits => ?_, fun hnew hfirst => ?_⟩
  · have hrun := startXfer_runs (part := partOf s.hbm c.place.job) hq hargs hmay hroom hadmit hcheck hcredits
    rw [hx] at hrun
    obtain ⟨j, ps, js, heq, hst, hnacked, htag, hget, hacks, hsingle, hheaded, hsum, hheader, hreads⟩ :=
      runXfer_starts (c := takeCredits { c with qxfer := rest, sync := { c.sync with slots := x } } (creditPairs c a))
        (st := { entry := q, gen := admittedGen q c }) (partOf s.hbm c.place.job) hkind
    exact ⟨_, j, ps, js, exec_xfer hsite (hrun.trans (congrArg (·, false) heq)), hcounts, rfl, hst, hnacked,
      fun i hi => htag ▸ freeTag_fresh hroom i hi, hget, hacks, hsingle, hheaded, hsum, hheader, hreads⟩
  · have hwait := startXfer_waits (part := partOf s.hbm c.place.job) hq hargs hmay hroom hadmit hcheck hcredits
    rw [hx] at hwait
    exact ⟨_, exec_xfer hsite hwait, hcounts, rfl⟩
  · intro local_ addr faults
    have hfault : ∀ {flt : FaultCode × Bool}, xferCheck (pageCheck s.hbm c.place.job) c a = some flt → _ := fun hcheck =>
      startXfer_faults (part := partOf s.hbm c.place.job) hq hargs hmay hroom hadmit hnew hcheck
    rw [hx] at hfault
    let b : Core := { c with qxfer := rest, sync := { c.sync with slots := x } }
    have hmoves : ∀ code : FaultCode, Faults b (entryFault b code q) code .transfer q.pc q.icount := fun code =>
      (xferArgs_some hargs).1 ▸ faults_entryFault code q hfirst
    refine ⟨fun hrange => ?_, fun hlocal h1 haddr hpage => ?_, fun hlocal h0 hfenced => ?_⟩
    · exact ⟨b, _, exec_xfer hsite (hfault (xferCheck_range hrange)), rfl, hcounts, hmoves _⟩
    · exact ⟨b, _, exec_xfer_violation hsite (hfault (xferCheck_page hlocal h1 haddr (pageCheck_refused hpage))), rfl, hcounts,
        hmoves _⟩
    · exact ⟨b, _, exec_xfer hsite (hfault (xferCheck_fenced hlocal h0 hfenced)), rfl, hcounts, hmoves _⟩

end Sys2Proof.Machine
end

section
/-!
PROOFS. The grant cycle of a timetable arbiter (O23).
-/

namespace Sys2Proof.Machine

/-! ### The best request under a score -/

/-- Request b wins among the requests of l: the highest score, the lowest number at that score (R340). -/
def Wins (score : Nat × Nat → Nat) (l : List (Nat × Nat)) (b : Nat × Nat) : Prop :=
  b ∈ l ∧ ∀ x ∈ l, score x < score b ∨ score x = score b ∧ b.1 ≤ x.1

theorem wins_singleton (score : Nat × Nat → Nat) (r : Nat × Nat) : Wins score [r] r := by
  simp [Wins]

/-- The winner stays when the request added is behind it. -/
theorem Wins.cons_loser {score : Nat × Nat → Nat} {l : List (Nat × Nat)} {b r : Nat × Nat} (h : Wins score l b)
    (hr : score r < score b ∨ score r = score b ∧ b.1 ≤ r.1) : Wins score (r :: l) b :=
  ⟨List.mem_cons_of_mem r h.1, List.forall_mem_cons.mpr ⟨hr, h.2⟩⟩

/-- A request added that is not behind the winner wins in its place. -/
theorem Wins.cons_winner {score : Nat × Nat → Nat} {l : List (Nat × Nat)} {b r : Nat × Nat} (h : Wins score l b)
    (hr : score b < score r ∨ score b = score r ∧ r.1 ≤ b.1) : Wins score (r :: l) r := by
  refine ⟨List.mem_cons_self, List.forall_mem_cons.mpr ⟨Or.inr ⟨rfl, le_rfl⟩, fun x hx => ?_⟩⟩
  have hxb := h.2 x hx
  omega

theorem arbBest_wins {score : Nat × Nat → Nat} {l : List (Nat × Nat)} (hne : l ≠ []) :
    ∃ b, arbBest score l = some b ∧ Wins score l b := by
  induction l with
  | nil => exact absurd rfl hne
  | cons r l ih =>
    by_cases hl : l = []
    · subst hl
      exact ⟨r, rfl, wins_singleton score r⟩
    · obtain ⟨b, hb, hwins⟩ := ih hl
      simp only [arbBest, hb]
      split_ifs with hscore htie
      · exact ⟨r, rfl, hwins.cons_winner (Or.inl hscore)⟩
      · exact ⟨r, rfl, hwins.cons_winner (Or.inr ⟨htie.1.symm, htie.2.le⟩)⟩
      · exact ⟨b, rfl, hwins.cons_loser (by omega)⟩

theorem mem_of_arbBest {score : Nat × Nat → Nat} {l : List (Nat × Nat)} {r : Nat × Nat} (h : arbBest score l = some r) : r ∈ l := by
  have hne : l ≠ [] := by
    rintro rfl
    cases h
  obtain ⟨b, hb, hmem, -⟩ := arbBest_wins hne
  exact Option.some.inj (hb.symm.trans h) ▸ hmem

/-! ### The request picked -/

/-- The request of the slot's owner among the eligible ones. -/
def ownedReq (v : ArbVals) (n p : Nat) (el : List (Nat × Nat)) : Option (Nat × Nat) :=
  (arbOwner v n p).bind fun o => el.find? fun r => decide (r.1 = o)

/-- The request that arbitration picks among the eligible ones: R338. -/
def arbPick (v : ArbVals) (n p gsg : Nat) (el : List (Nat × Nat)) : Option (Nat × Nat) :=
  if gsg + 1 = v.guard_.toNat then arbBest (fun r => r.2) el
  else (ownedReq v n p el).or (arbBest (fun r => arbRank v r.1) el)

section
variable {v : ArbVals} {n p gsg : Nat} {el : List (Nat × Nat)}

theorem mem_of_ownedReq {r : Nat × Nat} (h : ownedReq v n p el = some r) : r ∈ el := by
  obtain ⟨o, -, hfind⟩ := Option.bind_eq_some_iff.mp h
  exact List.mem_of_find?_eq_some hfind

theorem ownedReq_of_mem {o w : Nat} (ho : arbOwner v n p = some o) (hmem : (o, w) ∈ el) :
    ∃ w', ownedReq v n p el = some (o, w') := by
  have hfound : (el.find? fun r => decide (r.1 = o)).isSome := List.find?_isSome.mpr ⟨(o, w), hmem, decide_eq_true rfl⟩
  obtain ⟨⟨q, w'⟩, hr⟩ := Option.isSome_iff_exists.mp hfound
  obtain rfl : q = o := by simpa using List.find?_some hr
  exact ⟨w', by rw [ownedReq, ho, Option.bind_some, hr]⟩

theorem ownedReq_eq_none (h : ∀ o, arbOwner v n p = some o → ∀ w, (o, w) ∉ el) : ownedReq v n p el = none := by
  refine Option.bind_eq_none_iff.mpr fun o ho => List.find?_eq_none.mpr ?_
  rintro ⟨q, w⟩ hmem hq
  obtain rfl : q = o := of_decide_eq_true hq
  exact h q ho w hmem

theorem mem_of_arbPick {r : Nat × Nat} (h : arbPick v n p gsg el = some r) : r ∈ el := by
  unfold arbPick at h
  split_ifs at h
  · exact mem_of_arbBest h
  · obtain howned | ⟨-, hbest⟩ := Option.or_eq_some_iff.mp h
    · exact mem_of_ownedReq howned
    · exact mem_of_arbBest hbest

/-- The guard is due: the longest waiting request is picked. -/
theorem arbPick_guard (hdue : gsg + 1 = v.guard_.toNat) (hne : el ≠ []) :
    ∃ r, arbPick v n p gsg el = some r ∧ Wins (fun r => r.2) el r := by
  rw [arbPick, if_pos hdue]
  exact arbBest_wins hne

theorem arbPick_owner (hdue : gsg + 1 ≠ v.guard_.toNat) {o w : Nat} (ho : arbOwner v n p = some o) (hmem : (o, w) ∈ el) :
    ∃ w', arbPick v n p gsg el = some (o, w') := by
  obtain ⟨w', howned⟩ := ownedReq_of_mem ho hmem
  exact ⟨w', by rw [arbPick, if_neg hdue, howned, Option.some_or]⟩

/-- Neither guard nor owner decides: the background ranking does (R343). -/
theorem arbPick_ranked (hdue : gsg + 1 ≠ v.guard_.toNat) (hne : el ≠ [])
    (hfree : ∀ o, arbOwner v n p = some o → ∀ w, (o, w) ∉ el) :
    ∃ r, arbPick v n p gsg el = some r ∧ Wins (fun r => arbRank v r.1) el r := by
  rw [arbPick, if_neg hdue, ownedReq_eq_none hfree, Option.none_or]
  exact arbBest_wins hne

end

/-! ### One grant cycle -/

/-- The requests that a grant cycle can grant (R334, R336). -/
def eligibleReqs (laneB : Bool) (able : Nat → Bool) (a : ArbInst) : List (Nat × Nat) :=
  a.reqs.filter fun r => arbEligible laneB r && able r.1

/-- The requests held after a cycle that leaves `kept` waiting: those, a cycle older, and the new ones. -/
def reqsAfter (n : Nat) (a : ArbInst) (raise : List Nat) (kept : List (Nat × Nat)) : List (Nat × Nat) :=
  kept.map (fun r => (r.1, r.2 + 1)) ++ (arbNew n a raise).map fun q => (q, 1)

/-- What a cycle without a grant answers. -/
def arbWaited (n : Nat) (a : ArbInst) (raise : List Nat) : ArbInst × Option Nat :=
  ({ a with reqs := reqsAfter n a raise a.reqs, last := none }, none)

/-- What a cycle that grants request r by arbitration answers. -/
def arbGranted (v : ArbVals) (n : Nat) (a : ArbInst) (raise : List Nat) (r : Nat × Nat) : ArbInst × Option Nat :=
  ({ a with gsg := guardCount v a.gsg, last := some r.1
            reqs := reqsAfter n a raise (a.reqs.filter fun x => !decide (x.1 = r.1)) }, some r.1)

section
variable {v : ArbVals} {n p : Nat} {laneB : Bool} {able : Nat → Bool} {a : ArbInst} {raise : List Nat}

/-- A park that holds is a grant without arbitration (R337). -/
theorem arbCycle_parked {q : Nat} (hreqs : a.reqs = []) (hlast : a.last = some q) (hnew : arbNew n a raise = [q])
    (hable : able q = true) :
    arbCycle v n p laneB able a raise = ({ a with gsg := guardCount v a.gsg }, some q) := by
  have hpark : (a.reqs.isEmpty && decide (a.last.toList = arbNew n a raise) && a.last.any able) = true := by
    simp [hreqs, hlast, hnew, hable]
  rw [arbCycle, if_pos hpark, hlast]

/-- With a request held no park holds, and the cycle arbitrates (R338). -/
theorem arbCycle_of_held (hreqs : a.reqs ≠ []) : arbCycle v n p laneB able a raise =
    (arbPick v n p a.gsg (eligibleReqs laneB able a)).elim (arbWaited n a raise) (arbGranted v n a raise) := by
  have hpark : (a.reqs.isEmpty && decide (a.last.toList = arbNew n a raise) && a.last.any able) ≠ true := by
    simp [hreqs]
  rw [arbCycle, if_neg hpark, ← eligibleReqs]
  simp only [arbPick, ownedReq]
  generalize eligibleReqs laneB able a = el
  split_ifs with hdue
  · cases arbBest (fun r => r.2) el <;> rfl
  · cases arbOwner v n p with
    | none => cases arbBest (fun r => arbRank v r.1) el <;> rfl
    | some o =>
      simp only [Option.bind_some]
      cases el.find? fun r => decide (r.1 = o) with
      | some r => rfl
      | none => cases arbBest (fun r => arbRank v r.1) el <;> rfl

theorem arbCycle_grant_of_held (hreqs : a.reqs ≠ []) : (arbCycle v n p laneB able a raise).2 =
    (arbPick v n p a.gsg (eligibleReqs laneB able a)).map (·.1) := by
  rw [arbCycle_of_held hreqs]
  cases arbPick v n p a.gsg (eligibleReqs laneB able a) <;> rfl

theorem ne_of_mem_arbNew {q : Nat} (h : q ∈ arbNew n a raise) {x : Nat × Nat} (hx : x ∈ a.reqs) : x.1 ≠ q := by
  simp only [arbNew, List.mem_filter, Bool.and_eq_true, Bool.not_eq_true', List.any_eq_false, decide_eq_true_eq] at h
  exact h.2.2 x hx

/-- A request granted by arbitration is no longer held: neither among the waiting requests nor among the new ones, since its
requester held one. -/
theorem arbGranted_not_held {r : Nat × Nat} (hr : r ∈ a.reqs) : ∀ x ∈ (arbGranted v n a raise r).1.reqs, x.1 ≠ r.1 := by
  intro x hx
  obtain hkept | hnew := List.mem_append.mp hx
  · obtain ⟨y, hy, rfl⟩ := List.mem_map.mp hkept
    simpa using (List.mem_filter.mp hy).2
  · obtain ⟨q, hq, rfl⟩ := List.mem_map.mp hnew
    exact (ne_of_mem_arbNew hq hr).symm

theorem arbGranted_others_wait {r x : Nat × Nat} (hx : x ∈ a.reqs) (hne : x.1 ≠ r.1) :
    (x.1, x.2 + 1) ∈ (arbGranted v n a raise r).1.reqs :=
  List.mem_append_left _ (List.mem_map_of_mem (f := fun r => (r.1, r.2 + 1)) (List.mem_filter.mpr ⟨hx, by simpa using hne⟩))

/-- A grant in a cycle that began with requests held is that of an eligible request, by arbitration. -/
theorem arbCycle_granted {g : Nat} (hreqs : a.reqs ≠ []) (hg : (arbCycle v n p laneB able a raise).2 = some g) :
    ∃ w, (g, w) ∈ eligibleReqs laneB able a ∧ arbCycle v n p laneB able a raise = arbGranted v n a raise (g, w) := by
  rw [arbCycle_grant_of_held hreqs] at hg
  obtain ⟨⟨q, w⟩, hpick, rfl⟩ := Option.map_eq_some_iff.mp hg
  exact ⟨w, mem_of_arbPick hpick, by rw [arbCycle_of_held hreqs, hpick, Option.elim_some]⟩

end

/-- Settles O23: a park is one equation of the cycle; with requests held the grant is arbitration's pick, by guard, owner or rank,
and what it leaves is read off the state after a grant. -/
theorem arbiterGrantsByTheRules : Obligations.ArbiterGrantsByTheRules := by
  unfold Obligations.ArbiterGrantsByTheRules
  intro v n p able a raise el r
  refine ⟨fun hreqs q hlast hnew hable => congrArg Prod.snd (arbCycle_parked hreqs hlast hnew hable), fun hreqs => ?_⟩
  have hgrant : r.2 = (arbPick v n p a.gsg el).map (·.1) := arbCycle_grant_of_held hreqs
  refine ⟨fun hnone => ?_, fun g hg => ?_, fun hne hdue => ?_, fun hdue o ho ⟨w, hmem⟩ => ?_, fun hne hdue hfree => ?_⟩
  · rw [hgrant, Option.map_eq_none_iff, Option.eq_none_iff_forall_ne_some]
    intro x hx
    exact List.not_mem_nil (hnone ▸ mem_of_arbPick hx)
  · obtain ⟨w, hmem, hcycle⟩ := arbCycle_granted hreqs hg
    refine ⟨⟨w, hmem⟩, ?_⟩
    simp only [r, hcycle]
    exact ⟨arbGranted_not_held (List.mem_of_mem_filter hmem), fun x hx hne => arbGranted_others_wait hx hne⟩
  · obtain ⟨⟨g, w⟩, hpick, hmem, hbest⟩ := arbPick_guard (n := n) (p := p) hdue hne
    exact ⟨g, w, by rw [hgrant, hpick, Option.map_some], hmem, hbest⟩
  · obtain ⟨w', hpick⟩ := arbPick_owner hdue ho hmem
    rw [hgrant, hpick, Option.map_some]
  · obtain ⟨⟨g, w⟩, hpick, hmem, hbest⟩ := arbPick_ranked hdue hne hfree
    exact ⟨g, w, by rw [hgrant, hpick, Option.map_some], hmem, hbest⟩

end Sys2Proof.Machine
end

section
/-!
PROOFS. Refresh, temperature and retraining of the stacks (O34).
-/

namespace Sys2Proof.Machine

/-! ### Stacks -/

theorem getStack_setStack (h : Hbm) (s j : Nat) (v : Stack) : getStack (setStack h s v) j = if j = s then v else getStack h j :=
  smGet_smSet ..

/-- Stack s alone has changed, to k, and nothing else of the partitions. -/
def OneStack (h h' : Hbm) (s : Nat) (k : Stack) : Prop :=
  h' = { h with stks := h'.stks } ∧ ∀ j, getStack h' j = if j = s then k else getStack h j

theorem oneStack_setStack (h : Hbm) (s : Nat) (k : Stack) : OneStack h (setStack h s k) s k := ⟨rfl, fun j => getStack_setStack h s j k⟩

theorem OneStack.own {h h' : Hbm} {s : Nat} {k : Stack} (hone : OneStack h h' s k) : getStack h' s = k := by rw [hone.2, if_pos rfl]

theorem OneStack.trans {h h' h'' : Hbm} {s : Nat} {k k' : Stack} (hone : OneStack h h' s k) (hnext : OneStack h' h'' s k') :
    OneStack h h'' s k' := by
  obtain ⟨hframe, hread⟩ := hone
  obtain ⟨hframe', hread'⟩ := hnext
  refine ⟨?_, fun j => ?_⟩
  · rw [hframe', hframe]
  · rw [hread', hread]
    split <;> rfl

/-- A stack in service that starts to retrain (R369, R370). -/
def retraining (k : Stack) : Stack := { k with state := 3, retrains := min 65535 (k.retrains + 1), attempts := 0, ceTimes := [] }

theorem startRetrain_inService {h : Hbm} {s : Nat} (hstate : (getStack h s).state = 2) :
    startRetrain h s = setStack h s (retraining (getStack h s)) := if_pos hstate

theorem startRetrain_other {h : Hbm} {s : Nat} (hstate : (getStack h s).state ≠ 2) : startRetrain h s = h := if_neg hstate

/-! ### Readings -/

/-- The temperature of a reading kept, and a retraining started where it stands too far from that of the training (R368, R369). -/
def afterReading (k : Stack) (temp : Nat) : Stack :=
  let far := k.state = 2 ∧ (temp > k.trainTemp + 10 ∨ k.trainTemp > temp + 10)
  { k with
    temp := temp, state := if far then 3 else k.state, retrains := if far then min 65535 (k.retrains + 1) else k.retrains
    attempts := if far then 0 else k.attempts, ceTimes := if far then [] else k.ceTimes }

theorem afterReading_far {k : Stack} {temp : Nat} (hstate : k.state = 2) (hfar : temp > k.trainTemp + 10 ∨ k.trainTemp > temp + 10) :
    afterReading k temp = retraining { k with temp := temp } := by
  simp only [afterReading, if_pos (And.intro hstate hfar)]
  rfl

theorem afterReading_near {k : Stack} {temp : Nat}
    (hnear : ¬(k.state = 2 ∧ (temp > k.trainTemp + 10 ∨ k.trainTemp > temp + 10))) : afterReading k temp = { k with temp := temp } := by
  simp only [afterReading, if_neg hnear]

theorem oneStack_stackReading (s : Nat) {temp : Nat} (htemp : temp < 256) (h : Hbm) :
    OneStack h (stackReading s temp h) s (afterReading (getStack h s) temp) := by
  have hkept := oneStack_setStack h s { getStack h s with temp := temp }
  simp only [stackReading, Nat.mod_eq_of_lt htemp]
  by_cases hfar : temp > (getStack h s).trainTemp + 10 ∨ (getStack h s).trainTemp > temp + 10
  · rw [if_pos hfar]
    by_cases hstate : (getStack h s).state = 2
    · rw [startRetrain_inService (by rw [hkept.own]; exact hstate), hkept.own, afterReading_far hstate hfar]
      exact hkept.trans (oneStack_setStack ..)
    · rw [startRetrain_other (by rw [hkept.own]; exact hstate), afterReading_near fun hboth => hstate hboth.1]
      exact hkept
  · rw [if_neg hfar, afterReading_near fun hboth => hfar hboth.2]
    exact hkept

/-- The grant limit that a reading sets, in the stack and in the count of limits (R432). -/
theorem readStackTemp_eq (stack temp : Nat) (s : State) :
    let k := getStack s.hbm stack
    let slow := stackLimit k.slow temp
    let h := stackReading stack temp s.hbm
    readStackTemp stack temp s = { s with
      hbm := setStack h stack { getStack h stack with slow := slow }
      power := { s.power with therm := { s.power.therm with
        stackLimits := if slow > k.slow then min 65535 (s.power.therm.stackLimits + 1) else s.power.therm.stackLimits } } } := by
  simp only [readStackTemp]
  split <;> rfl

theorem oneStack_readStackTemp (stack : Nat) {temp : Nat} (htemp : temp < 256) (s : State) :
    OneStack s.hbm (readStackTemp stack temp s).hbm stack
      { afterReading (getStack s.hbm stack) temp with slow := stackLimit (getStack s.hbm stack).slow temp } := by
  have hread := oneStack_stackReading stack htemp s.hbm
  rw [readStackTemp_eq]
  simp only
  rw [hread.own]
  exact hread.trans (oneStack_setStack ..)

/-! ### Retraining -/

/-- A stack of which a retraining, or a retry of one, has ended, but for its outcome (R371). -/
def retrainEnded (k : Stack) (stall : Nat) : Stack :=
  { k with lastStall := stall, retrains := if k.state = 4 then min 65535 (k.retrains + 1) else k.retrains }

section
variable {h : Hbm} {s stall : Nat} (failing : List Nat) (hstall : stall < 65536)
  (hstate : (getStack h s).state = 3 ∨ ((getStack h s).state = 4 ∧ 1 ≤ (getStack h s).attempts ∧ (getStack h s).attempts ≤ 3))
include hstall hstate

theorem endRetrain_converges : endRetrain s true stall failing h = setStack h s
    { retrainEnded (getStack h s) stall with state := 2, trainTemp := (getStack h s).temp, attempts := 0 } := by
  have hmin : min stall 0xFFFF = stall := by omega
  simp only [endRetrain, if_pos hstate, if_true, hmin]
  rfl

theorem endRetrain_fails (hmore : (getStack h s).attempts ≠ 3) : endRetrain s false stall failing h = setStack h s
    { retrainEnded (getStack h s) stall with state := 4, attempts := (getStack h s).attempts + 1 } := by
  have hmin : min stall 0xFFFF = stall := by omega
  have hcount : ¬(getStack h s).attempts + 1 = 4 := by omega
  simp only [endRetrain, if_pos hstate, Bool.false_eq_true, if_false, hmin, if_neg hcount]
  rfl

theorem endRetrain_last (hlast : (getStack h s).attempts = 3) : endRetrain s false stall failing h =
    { setStack h s { retrainEnded (getStack h s) stall with state := 4, attempts := 4 } with
      resetDue := h.resetDue ++ [s / 2], events := h.events ++ failing.map fun c => (2, s / 2 * 64 + 32 * (s % 2) + c % 32) } := by
  have hmin : min stall 0xFFFF = stall := by omega
  have hcount : (getStack h s).attempts + 1 = 4 := by omega
  simp only [endRetrain, if_pos hstate, Bool.false_eq_true, if_false, hmin, hcount, if_true]
  rfl

end

theorem endRetrain_idle {h : Hbm} {s : Nat} (ok : Bool) (stall : Nat) (failing : List Nat) (h3 : (getStack h s).state ≠ 3)
    (h4 : (getStack h s).state ≠ 4) : endRetrain s ok stall failing h = h :=
  if_neg fun hstate => hstate.elim h3 fun hretry => h4 hretry.1

/-! ### The commands -/

theorem stackOk_of_lt {stack : Nat} (hstack : stack < 16) : stackOk stack = true := decide_eq_true hstack

theorem exec_hbmRefresh {stack ch : Nat} (hstack : stack < 16) (hch : ch < 32) (s : State) : exec (.hbmRefresh stack ch) s = .next s := by
  have hok : instrOk (.hbmRefresh stack ch) = true := Bool.and_eq_true_iff.mpr ⟨stackOk_of_lt hstack, decide_eq_true hch⟩
  exact if_pos hok

theorem exec_stackTempRead {stack : Nat} (hstack : stack < 16) (temp : Nat) (s : State) :
    exec (.stackTempRead stack temp) s = .next (readStackTemp stack temp s) := if_pos (stackOk_of_lt hstack)

theorem exec_hbmCfgRetrain {stack : Nat} (hstack : stack < 16) (s : State) :
    exec (.hbmCfgRetrain (stack / 2) (stack % 2)) s = .next { s with hbm := startRetrain s.hbm stack } := by
  have hok : instrOk (.hbmCfgRetrain (stack / 2) (stack % 2)) = true :=
    Bool.and_eq_true_iff.mpr ⟨decide_eq_true (show stack / 2 < 8 by omega), decide_eq_true (by omega)⟩
  have hnum : 2 * (stack / 2) + stack % 2 = stack := by omega
  have hexec : exec (.hbmCfgRetrain (stack / 2) (stack % 2)) s = .next { s with hbm := startRetrain s.hbm (2 * (stack / 2) + stack % 2) } :=
    if_pos hok
  rw [hexec, hnum]

theorem exec_stackRetrainEnd {stack : Nat} (hstack : stack < 16) (ok : Bool) (stall : Nat) (failing : List Nat) (s : State) :
    exec (.stackRetrainEnd stack ok stall failing) s = .next (atHbm (fun _ => endRetrain stack ok stall failing s.hbm) s) :=
  if_pos (stackOk_of_lt hstack)

/-- Settles O34: each command writes its one stack, by the equation of the operation that it does. -/
theorem stacksRefreshAndRetrain : Obligations.StacksRefreshAndRetrain := by
  unfold Obligations.StacksRefreshAndRetrain
  intro stack s hstack k only
  refine ⟨fun ch hch => exec_hbmRefresh hstack hch s, fun temp htemp => ?reading, ?retrain,
    fun ok stall failing hstall hstate => ?ended, fun ok stall failing h3 h4 => ?idle⟩
  case reading =>
    refine ⟨_, exec_stackTempRead hstack temp s, oneStack_readStackTemp stack htemp s, ?_, ?_⟩
    · rw [readStackTemp_eq]
      rfl
    · rw [readStackTemp_eq]
  case retrain =>
    refine ⟨_, exec_hbmCfgRetrain hstack s, rfl, fun hstate => ?_, fun hstate => startRetrain_other hstate⟩
    simp only [startRetrain_inService hstate]
    exact oneStack_setStack ..
  case ended =>
    refine ⟨_, exec_stackRetrainEnd hstack ok stall failing s, ?_, ?_, ?_⟩
    · rintro rfl
      rw [endRetrain_converges failing hstall hstate]
      exact oneStack_setStack ..
    · rintro rfl hmore
      rw [endRetrain_fails failing hstall hstate hmore]
      exact oneStack_setStack ..
    · rintro rfl hlast
      rw [endRetrain_last failing hstall hstate hlast]
      exact ⟨oneStack_setStack s.hbm stack { retrainEnded k stall with state := 4, attempts := 4 }, rfl, rfl⟩
  case idle =>
    rw [exec_stackRetrainEnd hstack, endRetrain_idle ok stall failing h3 h4]
    rfl

end Sys2Proof.Machine
end

section
/-!
PROOFS. The retirement of a job (O44): a queue that the store of the state words lists twice.
-/

namespace Sys2Proof.Machine

/-- RETIRE_JOB of job 0, ticket 77, accepted at host port 0. -/
def retireZero : CtlCmd :=
  { ticket := 77, origin := 14, cq := 0, ring := 0, desc := 5#8 :: List.replicate 63 0#8, failed := false, data := [], srcId := 0
    jkey := 0, rank := 0 }

/-- A package of one module without cores, regions or buckets. -/
def emptyPackage : Package :=
  { compat := false, vw := 0, vh := 0, modules := 1, ndims := 0, winBase := 0, arenaVa := 0, inMax := 0, outMax := 0, regions := []
    buckets := [], images := [] }

/-- Job 0 of that package, admitted; it runs no step and has no request, save or retirement waiting. -/
def idleJob : Job :=
  newJob 0 retireZero { pkg := emptyPackage, pkgBytes := [], members := [], exch := [], exBytes := [] } 0 0 none [] none

/-- State words that list queue 3 twice, as no store in canonical form does: enabled for job 0 where it is read, and for job 1 behind. -/
def listedTwice : SMap QState := [(3, { QState.reset with en := true }), (3, { QState.reset with en := true, job := 1 })]

/-- The job and the command, at a module whose state words list queue 3 twice. -/
def retiringState : State :=
  { State.reset with
    jobs := [idleJob], queues := { State.reset.queues with states := listedTwice }
    box := { State.reset.box with accepted := [retireZero] } }

/-- The state after the command has left the list. -/
def retirementTaken : State := { retiringState with box := { retiringState.box with accepted := [] } }

/-- Is a queue enabled in the state that a command leaves? -/
def enabledAfter (q : Nat) : Out → Bool
  | .next t => (getQ t.queues q).en
  | _ => false

theorem takeCmd_retiringState : takeCmd retiringState 5 77 = some (retireZero, retirementTaken) := rfl

theorem cmdJob_retiringState : cmdJob retiringState retireZero = some idleJob := rfl

theorem alone_retiringState : ∀ x ∈ retiringState.jobs, treeSize x ≤ 1 ∧ (x.id ≠ idleJob.id → x.devSave = none) := by
  intro x hx
  obtain rfl : x = idleJob := List.mem_singleton.mp hx
  exact ⟨Nat.le_refl 1, fun hne => absurd rfl hne⟩

/-- The retirement disables the state word of job 0, which is then the reset value and leaves the store: queue 3 reads as the word behind
it, enabled for job 1. -/
theorem enabledAfter_retireZero : enabledAfter 3 (exec (.retireJob 77) retiringState) = true := by decide +kernel

/-- Refutes O44: with the state word of queue 3 listed twice, the retirement of job 0 disables and so removes the first, and the queue,
which was read as enabled for job 0, reads as enabled. The statement bounds no store to the canonical form, as O24 does. -/
theorem not_jobsComeAndGo : ¬ Obligations.JobsComeAndGo := by
  unfold Obligations.JobsComeAndGo
  intro h
  obtain ⟨-, -, hretire, -⟩ := h 77 { bytes := [], failed := [] } retiringState retirementTaken retireZero (by decide)
  obtain ⟨-, hends⟩ := hretire idleJob takeCmd_retiringState cmdJob_retiringState (Nat.le_refl 1) rfl
  obtain ⟨t, u, hexec, -, -, -, -, -, -, -, -, -, -, hqueues⟩ := hends alone_retiringState (by decide) rfl rfl rfl rfl
  have hdisabled : (getQ t.queues 3).en = false := hqueues 3
  have henabled : (getQ t.queues 3).en = true := by
    have heval := enabledAfter_retireZero
    rwa [hexec] at heval
  exact absurd (hdisabled.symm.trans henabled) Bool.false_ne_true

end Sys2Proof.Machine
end

section
/-!
PROOFS. The channels of the partitions (O33): what accesses count, and the words that they store.
-/

namespace Sys2Proof.Machine

/-! ### What a decoded read counts -/

/-- The partitions h with the counters of the channels and the stacks as t has them. -/
def countFrame (h t : Hbm) : Hbm := { h with chans := t.chans, stks := t.stks }

/-- The partitions h with all that decoded reads change as t has it: the counters, the stacks and the events. -/
def readFrame (h t : Hbm) : Hbm := { countFrame h t with events := t.events }

/-- The partitions h with the words, and what reads count, as t has it. -/
def wordFrame (h t : Hbm) : Hbm := { readFrame h t with words := t.words }

theorem startRetrain_frame (h : Hbm) (s : Nat) : startRetrain h s = { h with stks := (startRetrain h s).stks } := by
  simp only [startRetrain]
  split <;> rfl

theorem countStackCe_frame (now : Nat) (h : Hbm) (s : Nat) : countStackCe now h s = { h with stks := (countStackCe now h s).stks } := by
  have hkey : ∀ (total : Nat) (h1 : Hbm), h1 = { h with stks := h1.stks } →
      (if total > 1024 then startRetrain h1 s else h1) = { h with stks := (if total > 1024 then startRetrain h1 s else h1).stks } := by
    intro total h1 hset
    split
    · rw [startRetrain_frame, hset]
    · exact hset
  exact hkey _ _ rfl

theorem hbmReadWord_frame (now : Nat) (bad : List Nat) (a : Nat) (h : Hbm) :
    (hbmReadWord now bad a h).2 = readFrame h (hbmReadWord now bad a h).2 := by
  simp only [hbmReadWord]
  split
  · rfl
  · split
    · rw [countStackCe_frame]
      rfl
    · split <;> rfl

/-- A word of which the stack reports no error is read as it decodes. -/
theorem hbmReadWord_decodes (now a : Nat) (h : Hbm) : (hbmReadWord now [] a h).1 = hbmDecode (smGet 0#72 h.words (a / 8)) := by
  simp only [hbmReadWord, List.contains_nil, Bool.false_eq_true, if_false]
  split
  · rfl
  · split <;> rfl

/-- A word that decodes without an uncorrectable error is read without an event. -/
theorem hbmReadWord_quiet {now a : Nat} {h : Hbm} (hue : (hbmDecode (smGet 0#72 h.words (a / 8))).ue = false) :
    (hbmReadWord now [] a h).2 = countFrame h (hbmReadWord now [] a h).2 := by
  simp only [hbmReadWord, List.contains_nil, Bool.false_eq_true, if_false, hue]
  split
  · rw [countStackCe_frame]
    rfl
  · rfl

theorem hbmReadWord_words (now : Nat) (bad : List Nat) (a : Nat) (h : Hbm) : (hbmReadWord now bad a h).2.words = h.words :=
  (hbmReadWord_setup now bad a h).2

/-! ### What a write of words stores -/

/-- A word stored again as it decodes (R360). -/
def storedAgain (w : HbmWord) : HbmWord := hbmStored (hbmDecode w).data (hbmDecode w).crazed

/-- A word that has been stored again is stored again as it is. -/
theorem storedAgain_idem (w : HbmWord) : storedAgain (storedAgain w) = storedAgain w := by
  cases hz : (hbmDecode w).crazed
  · simp [storedAgain, hbmStored, hz, hbmDecode_hbmEncode]
  · have hmarker : (hbmDecode hbmMarker).crazed = true :=
      congrArg HbmDecoded.crazed (hbmDecode_near_marker (w := hbmMarker) (by decide))
    simp [storedAgain, hbmStored, hz, hmarker]

/-- One missing word of a burst merged: word i of burst b is read, and stored again. -/
def mergeWord (now b : Nat) (h : Hbm) (i : Nat) : Hbm :=
  hbmWriteWord (32 * b + 8 * i) (hbmReadWord now [] (32 * b + 8 * i) h).1.data (hbmReadWord now [] (32 * b + 8 * i) h).1.crazed
    (hbmReadWord now [] (32 * b + 8 * i) h).2

theorem mergeWord_words (now b : Nat) (h : Hbm) (i j : Nat) :
    smGet 0#72 (mergeWord now b h i).words j =
      if j = 4 * b + i then storedAgain (smGet 0#72 h.words j) else smGet 0#72 h.words j := by
  have hkey : (32 * b + 8 * i) / 8 = 4 * b + i := by omega
  rw [mergeWord, hbmWriteWord_words, hbmReadWord_words, hbmReadWord_decodes, hkey]
  by_cases hj : j = 4 * b + i
  · rw [if_pos hj, if_pos hj, hj]
    rfl
  · rw [if_neg hj, if_neg hj]

theorem mergeWord_frame (now b : Nat) (h : Hbm) (i : Nat) : mergeWord now b h i = wordFrame h (mergeWord now b h i) := by
  rw [mergeWord, hbmWriteWord, hbmReadWord_frame]
  rfl

/-- The words of a burst that a write does not hold. -/
def missingWords (b : Nat) (ws : List (Nat × W64 × Bool)) : List Nat :=
  (List.range 4).filter fun i => !ws.any fun x => decide (x.1 / 8 = 4 * b + i)

theorem mergeBurst_cons (now : Nat) (w : Nat × W64 × Bool) (ws : List (Nat × W64 × Bool)) (h : Hbm) :
    mergeBurst now [] (w :: ws) h =
      if (missingWords (w.1 / 32) (w :: ws)).isEmpty then h
      else (missingWords (w.1 / 32) (w :: ws)).foldl (mergeWord now (w.1 / 32))
        (modChan h (addrChan (32 * (w.1 / 32))) fun c => { c with rmw := sat16 c.rmw 1 }) := rfl

theorem foldl_mergeWord_frame (now b : Nat) (l : List Nat) (h : Hbm) :
    l.foldl (mergeWord now b) h = wordFrame h (l.foldl (mergeWord now b) h) :=
  foldl_frame wordFrame (fun _ => rfl) (fun _ _ _ => rfl) _ (mergeWord_frame now b) l h

theorem mergeBurst_frame (now : Nat) (ws : List (Nat × W64 × Bool)) (h : Hbm) :
    mergeBurst now [] ws h = wordFrame h (mergeBurst now [] ws h) := by
  cases ws with
  | nil => rfl
  | cons w ws =>
    rw [mergeBurst_cons]
    split
    · rfl
    · rw [foldl_mergeWord_frame]
      rfl

/-- A burst merged: a word of it that the write does not hold is stored again. -/
theorem mergeBurst_missing (now : Nat) (w : Nat × W64 × Bool) (ws : List (Nat × W64 × Bool)) (h : Hbm) {j : Nat}
    (hburst : j / 4 = w.1 / 32) (hmiss : ∀ x ∈ w :: ws, x.1 / 8 ≠ j) :
    smGet 0#72 (mergeBurst now [] (w :: ws) h).words j = storedAgain (smGet 0#72 h.words j) := by
  have hj : j = 4 * (w.1 / 32) + j % 4 := by omega
  have hmem : j % 4 ∈ missingWords (w.1 / 32) (w :: ws) := by
    rw [missingWords, List.mem_filter, List.mem_range, Bool.not_eq_true', List.any_eq_false, ← hj]
    exact ⟨by omega, fun x hx => by simpa using hmiss x hx⟩
  have hnodup : (missingWords (w.1 / 32) (w :: ws)).Nodup := List.nodup_range.filter _
  have hread := fun h' : Hbm => foldl_reads (fun _ => True) (fun (h : Hbm) i => smGet 0#72 h.words (4 * (w.1 / 32) + i))
    (mergeWord now (w.1 / 32)) (fun _ => storedAgain) (fun _ _ _ => trivial)
    (fun h k i hne => by rw [mergeWord_words, if_neg (by omega)]) _ hnodup
    (fun h k _ _ => by rw [mergeWord_words, if_pos rfl]) h' trivial (j % 4)
  rw [mergeBurst_cons, if_neg (fun hempty => List.not_mem_nil (List.isEmpty_iff.mp hempty ▸ hmem))]
  have hown := hread (modChan h (addrChan (32 * (w.1 / 32))) fun c => { c with rmw := sat16 c.rmw 1 })
  rw [if_pos hmem] at hown
  simp only [← hj] at hown
  exact hown

/-- Bursts merged one after another, each of words of one burst: a word that no write holds is stored again where a write touches its
burst, or where that leaves it as it is. -/
theorem foldl_mergeBurst_missing (now : Nat) {j : Nat} (bs : List (List (Nat × W64 × Bool))) (h : Hbm)
    (hsame : ∀ b ∈ bs, ∀ x ∈ b, ∀ y ∈ b, x.1 / 32 = y.1 / 32) (hmiss : ∀ b ∈ bs, ∀ x ∈ b, x.1 / 8 ≠ j)
    (htouch : (∃ b ∈ bs, ∃ x ∈ b, x.1 / 32 = j / 4) ∨ storedAgain (smGet 0#72 h.words j) = smGet 0#72 h.words j) :
    smGet 0#72 (bs.foldl (fun h b => mergeBurst now [] b h) h).words j = storedAgain (smGet 0#72 h.words j) := by
  induction bs generalizing h with
  | nil => exact (htouch.resolve_left (by simp)).symm
  | cons b bs ih =>
    have ihb := ih (mergeBurst now [] b h) (fun c hc => hsame c (List.mem_cons_of_mem _ hc))
      fun c hc => hmiss c (List.mem_cons_of_mem _ hc)
    rw [List.foldl_cons]
    by_cases hown : ∃ x ∈ b, x.1 / 32 = j / 4
    · obtain ⟨x, hx, hburst⟩ := hown
      obtain ⟨w, ws, rfl⟩ := List.exists_cons_of_ne_nil (List.ne_nil_of_mem hx)
      have hhead : j / 4 = w.1 / 32 := by rw [← hburst, hsame _ List.mem_cons_self x hx w List.mem_cons_self]
      have hstored := mergeBurst_missing now w ws h hhead (hmiss _ List.mem_cons_self)
      rw [ihb (Or.inr (by rw [hstored, storedAgain_idem])), hstored, storedAgain_idem]
    · have hkept := (mergeBurst_other now [] b h).2 j fun x hx heq => hown ⟨x, hx, heq.symm⟩
      rw [hkept] at ihb
      refine ihb (htouch.imp_left fun ⟨c, hc, hex⟩ => ?_)
      rcases List.mem_cons.mp hc with rfl | hc
      · exact absurd hex hown
      · exact ⟨c, hc, hex⟩

theorem hbmWriteWords_frame (now : Nat) (ws : List (Nat × W64 × Bool)) (h : Hbm) :
    hbmWriteWords now [] ws h = wordFrame h (hbmWriteWords now [] ws h) := by
  have hmerge := foldl_frame wordFrame (fun _ => rfl) (fun _ _ _ => rfl) (fun h b => mergeBurst now [] b h)
    (fun h b => mergeBurst_frame now b h) (burstsOf ws) h
  have hwrite := fun h' : Hbm => foldl_frame wordFrame (fun _ => rfl) (fun _ _ _ => rfl)
    (fun (h : Hbm) (w : Nat × W64 × Bool) => hbmWriteWord w.1 w.2.1 w.2.2 h) (fun _ _ => rfl) ws h'
  rw [hbmWriteWords_eq, hwrite, hmerge]
  rfl

/-- The words of one burst of a write lie in one burst. -/
theorem burst_of_mem_burstsOf {ws b : List (Nat × W64 × Bool)} (hb : b ∈ burstsOf ws) {x y : Nat × W64 × Bool} (hx : x ∈ b) (hy : y ∈ b) :
    x.1 / 32 = y.1 / 32 := by
  let R := fun x y : Nat × W64 × Bool => x.1 / 32 = y.1 / 32
  have htrans : IsTrans _ R := ⟨fun _ _ _ => Eq.trans⟩
  have hsymm : Std.Symm R := ⟨fun _ _ => Eq.symm⟩
  have hchain : b.IsChain R := (List.isChain_of_mem_splitBy hb).imp fun _ _ => of_decide_eq_true
  exact List.Pairwise.forall_of_forall (R := R) (fun _ _ => rfl) (List.isChain_iff_pairwise.mp hchain) hx hy

/-- A word that a write does not hold is stored again where the write touches its burst. -/
theorem hbmWriteWords_missing (now : Nat) (ws : List (Nat × W64 × Bool)) (h : Hbm) {j : Nat} (hmiss : ∀ x ∈ ws, x.1 / 8 ≠ j)
    (htouch : ∃ x ∈ ws, x.1 / 32 = j / 4) :
    smGet 0#72 (hbmWriteWords now [] ws h).words j = storedAgain (smGet 0#72 h.words j) := by
  have hflat : (burstsOf ws).flatten = ws := List.flatten_splitBy ..
  obtain ⟨x, hx, hburst⟩ := htouch
  obtain ⟨b, hb, hxb⟩ := List.mem_flatten.mp (hflat.symm ▸ hx)
  rw [hbmWriteWords_eq, (foldl_hbmWriteWord_other ws _).2 j fun w hw => (hmiss w hw).symm]
  exact foldl_mergeBurst_missing now (burstsOf ws) h (fun b hb x hx y hy => burst_of_mem_burstsOf hb hx hy)
    (fun b hb x hx => hmiss x (hflat ▸ List.mem_flatten.mpr ⟨b, hb, hx⟩)) (Or.inl ⟨b, hb, x, hxb, hburst⟩)

/-! ### Words one after another -/

/-- The n words f from the device address a on. -/
def wordRun (a n : Nat) (f : Nat → W64 × Bool) : List (Nat × W64 × Bool) := (List.range n).map fun i => (a + 8 * i, f i)

section
variable (now : Nat) {a n : Nat} (f : Nat → W64 × Bool) (h : Hbm) {j : Nat} (ha : a % 8 = 0)
include ha

theorem hbmWriteWords_run_own (hj : a / 8 ≤ j ∧ j < a / 8 + n) :
    smGet 0#72 (hbmWriteWords now [] (wordRun a n f) h).words j = hbmStored (f (j - a / 8)).1 (f (j - a / 8)).2 := by
  have hread := foldl_writes (fun _ => True) (fun (h : Hbm) i => smGet 0#72 h.words (a / 8 + i))
    (fun h i => hbmWriteWord (a + 8 * i) (f i).1 (f i).2 h) (fun i => hbmStored (f i).1 (f i).2) (fun _ _ _ => trivial)
    (fun h k i hne => by rw [hbmWriteWord_words, if_neg (by omega)]) (fun h k _ => by rw [hbmWriteWord_words, if_pos (by omega)])
    (List.range n) ((burstsOf (wordRun a n f)).foldl (fun h b => mergeBurst now [] b h) h) trivial (j - a / 8)
  rw [if_pos (List.mem_range.mpr (by omega)), show a / 8 + (j - a / 8) = j by omega] at hread
  have hfold : ∀ g, (wordRun a n f).foldl (fun h w => hbmWriteWord w.1 w.2.1 w.2.2 h) g =
      (List.range n).foldl (fun h i => hbmWriteWord (a + 8 * i) (f i).1 (f i).2 h) g := fun _ => List.foldl_map
  rw [hbmWriteWords_eq, hfold]
  exact hread

theorem hbmWriteWords_run_missing (hown : ¬(a / 8 ≤ j ∧ j < a / 8 + n))
    (htouch : a / 8 / 4 ≤ j / 4 ∧ j / 4 ≤ (a / 8 + n - 1) / 4 ∧ 1 ≤ n) :
    smGet 0#72 (hbmWriteWords now [] (wordRun a n f) h).words j = storedAgain (smGet 0#72 h.words j) := by
  refine hbmWriteWords_missing now _ h (fun x hx => ?_) ?_
  · obtain ⟨i, hi, rfl⟩ := List.mem_map.mp hx
    have hlt := List.mem_range.mp hi
    simp only
    omega
  · exact ⟨_, List.mem_map.mpr ⟨4 * (j / 4) - a / 8, List.mem_range.mpr (by omega), rfl⟩, by simp only; omega⟩

theorem hbmWriteWords_run_other (hother : ¬(a / 8 / 4 ≤ j / 4 ∧ j / 4 ≤ (a / 8 + n - 1) / 4 ∧ 1 ≤ n)) :
    smGet 0#72 (hbmWriteWords now [] (wordRun a n f) h).words j = smGet 0#72 h.words j := by
  refine (hbmWriteWords_other now [] _ h).2 j fun x hx => ?_
  obtain ⟨i, hi, rfl⟩ := List.mem_map.mp hx
  have hlt := List.mem_range.mp hi
  simp only
  omega

/-- Words written one after another: they stand there, the other words of the bursts that they touch are stored again, and no other word
changes (R360). -/
theorem hbmWriteWords_run (j : Nat) : smGet 0#72 (hbmWriteWords now [] (wordRun a n f) h).words j =
    if a / 8 ≤ j ∧ j < a / 8 + n then hbmStored (f (j - a / 8)).1 (f (j - a / 8)).2
    else if a / 8 / 4 ≤ j / 4 ∧ j / 4 ≤ (a / 8 + n - 1) / 4 ∧ 1 ≤ n then storedAgain (smGet 0#72 h.words j)
    else smGet 0#72 h.words j := by
  split
  · next hown => exact hbmWriteWords_run_own now f h ha hown
  · next hown =>
    split
    · next htouch => exact hbmWriteWords_run_missing now f h ha hown htouch
    · next hother => exact hbmWriteWords_run_other now f h ha hother

end

end Sys2Proof.Machine
end

section
/-!
PROOFS. The channels of the partitions (O33): requests and fettling reads that are served.
-/

namespace Sys2Proof.Machine

/-! ### The words of a request -/

/-- What a request reads as its word i, of words that lie from the device address a on: as decoded, and crazed on a page marked CRAZED
(R359, R367). -/
def readValue (h : Hbm) (j : HbmJob) (r : HbmReq) (a i : Nat) : W64 × Bool :=
  ((hbmDecode (smGet 0#72 h.words (a / 8 + i))).data,
    (hbmDecode (smGet 0#72 h.words (a / 8 + i))).crazed || pageCrazed h j.pkt.job (j.pkt.haddr + 8 * (r.first + i)))

/-- The next word of a request that is read. -/
def readStep (now : Nat) (j : HbmJob) (r : HbmReq) (acc : SMap (W64 × Bool) × Hbm) (i : Nat) : SMap (W64 × Bool) × Hbm :=
  match packetAddr acc.2 j.pkt (r.first + i) with
  | none => acc
  | some a =>
    (smSet (0#64, false) acc.1 (r.first + i) ((hbmReadWord now [] a acc.2).1.data,
      (hbmReadWord now [] a acc.2).1.crazed || pageCrazed acc.2 j.pkt.job (j.pkt.haddr + 8 * (r.first + i))),
      (hbmReadWord now [] a acc.2).2)

theorem readReq_eq (now : Nat) (j : HbmJob) (r : HbmReq) (h : Hbm) :
    readReq now [] j r h = (List.range r.n).foldl (readStep now j r) (j.words, h) := rfl

section
variable {now a : Nat} {j : HbmJob} {r : HbmReq} {h : Hbm} (haddr : ∀ i, i < r.n → packetAddr h j.pkt (r.first + i) = some (a + 8 * i))
  (ha : a % 8 = 0)
include haddr

theorem reqWrites_run : reqWrites h j r = wordRun a r.n fun i => packetWord j.pkt (r.first + i) := by
  rw [reqWrites, wordRun, ← List.filterMap_eq_map]
  refine List.filterMap_congr fun i hi => ?_
  rw [haddr i (List.mem_range.mp hi)]
  rfl

include ha

theorem readStep_reads {acc : SMap (W64 × Bool) × Hbm} (hacc : acc.2 = readFrame h acc.2) {i : Nat} (hi : i < r.n) :
    readStep now j r acc i =
      (smSet (0#64, false) acc.1 (r.first + i) (readValue h j r a i), (hbmReadWord now [] (a + 8 * i) acc.2).2) := by
  have hat : packetAddr acc.2 j.pkt (r.first + i) = some (a + 8 * i) := by
    rw [hacc]
    exact haddr i hi
  have hwords : acc.2.words = h.words := by rw [hacc]; rfl
  have hpage : pageCrazed acc.2 j.pkt.job (j.pkt.haddr + 8 * (r.first + i)) = pageCrazed h j.pkt.job (j.pkt.haddr + 8 * (r.first + i)) := by
    rw [hacc]
    rfl
  have hkey : (a + 8 * i) / 8 = a / 8 + i := by omega
  simp only [readStep, hat, hbmReadWord_decodes, hwords, hkey, hpage]
  rfl

/-- A request that reads: its words as decoded, and nothing changed but what reads count. -/
theorem readReq_reads :
    let q := readReq now [] j r h
    q.2 = readFrame h q.2 ∧ ∀ k, smGet (0#64, false) q.1 k =
      if r.first ≤ k ∧ k < r.first + r.n then readValue h j r a (k - r.first) else smGet (0#64, false) j.words k := by
  have hprefix : ∀ n, n ≤ r.n →
      let q := (List.range n).foldl (readStep now j r) (j.words, h)
      q.2 = readFrame h q.2 ∧ ∀ k, smGet (0#64, false) q.1 k =
        if r.first ≤ k ∧ k < r.first + n then readValue h j r a (k - r.first) else smGet (0#64, false) j.words k := by
    intro n
    induction n with
    | zero => exact fun _ => ⟨rfl, fun k => (if_neg (by omega)).symm⟩
    | succ n ih =>
      intro hn
      obtain ⟨hframe, hread⟩ := ih (by omega)
      rw [List.range_succ, List.foldl_append, List.foldl_cons, List.foldl_nil, readStep_reads haddr ha hframe (by omega)]
      refine ⟨?_, fun k => ?_⟩
      · simp only
        rw [hbmReadWord_frame, hframe]
        rfl
      · simp only
        rw [smGet_smSet, hread]
        by_cases hk : k = r.first + n
        · rw [if_pos hk, if_pos (by omega), hk, Nat.add_sub_cancel_left]
        · rw [if_neg hk]
          exact if_congr (by omega) rfl rfl
  rw [readReq_eq]
  exact hprefix r.n (Nat.le_refl _)

end

/-! ### The rows of a read -/

/-- A row with the two cells of the 64-bit word i written. -/
def hbmRowStep (w : W64 × Bool) (row : Row) (i : Nat) : Row :=
  rowSetAny (rowSetAny row (2 * i) (w.1.extractLsb' 0 32) w.2) (2 * i + 1) (w.1.extractLsb' 32 32) w.2

/-- The first m 64-bit words of a row, w. -/
def hbmRow (w : Nat → W64 × Bool) (m : Nat) : Row := (List.range m).foldl (fun row i => hbmRowStep (w i) row i) Row.zero

theorem rowsOfWords_eq (side : Bool) (n : Nat) (ws : SMap (W64 × Bool)) : rowsOfWords side n ws = (List.range n).map fun r =>
    hbmRow (fun i => smGet (0#64, false) ws (r * rowHbmWords side + i)) (rowHbmWords side) := rfl

/-- The two cells of each 64-bit word of a row. -/
theorem rowCell_hbmRow (w : Nat → W64 × Bool) {m i : Nat} (hm : m ≤ 18) (hi : i < m) :
    rowCell (hbmRow w m) (2 * i) = ((w i).1.extractLsb' 0 32, (w i).2) ∧
      rowCell (hbmRow w m) (2 * i + 1) = ((w i).1.extractLsb' 32 32, (w i).2) := by
  induction m with
  | zero => exact absurd hi (Nat.not_lt_zero i)
  | succ m ih =>
    have hstep : ∀ k, rowCell (hbmRow w (m + 1)) k = if k = 2 * m + 1 then ((w m).1.extractLsb' 32 32, (w m).2)
        else if k = 2 * m then ((w m).1.extractLsb' 0 32, (w m).2) else rowCell (hbmRow w m) k := by
      intro k
      rw [hbmRow, List.range_succ, List.foldl_append, List.foldl_cons, List.foldl_nil, hbmRowStep, rowCell_rowSetAny _ _ _ (by omega),
        rowCell_rowSetAny _ _ _ (by omega)]
      rfl
    rw [hstep, hstep]
    by_cases him : i = m
    · subst him
      exact ⟨by rw [if_neg (by omega), if_pos rfl], if_pos rfl⟩
    · rw [if_neg (by omega), if_neg (by omega), if_neg (by omega), if_neg (by omega)]
      exact ih (by omega) (by omega)

theorem rowHbmWords_le (side : Bool) : rowHbmWords side ≤ 18 := by cases side <;> decide

/-- Row n of a read holds its 64-bit words. -/
theorem rowsOfWords_cells {side : Bool} {count n i : Nat} (ws : SMap (W64 × Bool)) (hn : n < count) (hi : i < rowHbmWords side) :
    let v := smGet (0#64, false) ws (n * rowHbmWords side + i)
    let row := (rowsOfWords side count ws).getD n Row.zero
    rowAny row (2 * i) = v.1.extractLsb' 0 32 ∧ rowAny row (2 * i + 1) = v.1.extractLsb' 32 32 ∧ rowZ row (2 * i) = v.2 ∧
      rowZ row (2 * i + 1) = v.2 := by
  have hrow : (rowsOfWords side count ws).getD n Row.zero =
      hbmRow (fun i => smGet (0#64, false) ws (n * rowHbmWords side + i)) (rowHbmWords side) := by
    simp [rowsOfWords_eq, List.getD, hn]
  obtain ⟨hlow, hhigh⟩ := rowCell_hbmRow (fun i => smGet (0#64, false) ws (n * rowHbmWords side + i)) (rowHbmWords_le side) hi
  simp only [rowCell, Prod.mk.injEq] at hlow hhigh
  simp only [hrow]
  exact ⟨hlow.1, hhigh.1, hlow.2, hhigh.2⟩

theorem rowsOfWords_length (side : Bool) (n : Nat) (ws : SMap (W64 × Bool)) : (rowsOfWords side n ws).length = n := by
  rw [rowsOfWords_eq, List.length_map, List.length_range]

/-! ### A channel serves a request -/

/-- The partitions after channel ch has taken up the request r that it granted. -/
def takenUp (ch : Nat) (r : HbmReq) (h : Hbm) : Hbm := { h with granted := smSet 0 h.granted ch 0, reqs := h.reqs.erase r }

/-- The packets at the channel controllers after a request of packet j is served, which leaves it as j1: gone with its last request. -/
def jobsAfter (l : List HbmJob) (j j1 : HbmJob) : List HbmJob :=
  if j.left = 1 then l.filter (fun x => !decide (x.id = j.id)) else l.map fun x => if x.id = j.id then j1 else x

theorem serveReq_write {now : Nat} {j : HbmJob} {r : HbmReq} {h : Hbm} (htyp : j.pkt.typ = .hbmWrite) :
    serveReq now [] j r h = ({ j with left := j.left - 1 }, hbmWriteWords now [] (reqWrites h j r) h) := by
  simp only [serveReq, htyp]

theorem serveReq_read {now : Nat} {j : HbmJob} {r : HbmReq} {h : Hbm} (htyp : j.pkt.typ = .hbmRead) :
    serveReq now [] j r h = ({ j with left := j.left - 1, words := (readReq now [] j r h).1 }, (readReq now [] j r h).2) := by
  simp only [serveReq, htyp]

theorem hbmAnswer_read {j : HbmJob} (htyp : j.pkt.typ = .hbmRead) : hbmAnswer j = some (hbmData j) := by simp only [hbmAnswer, htyp]

theorem hbmAnswer_write {j : HbmJob} (htyp : j.pkt.typ = .hbmWrite) (habort : j.pkt.aborted = false) : hbmAnswer j = some (hbmAck j) := by
  simp only [hbmAnswer, htyp, habort, Bool.false_eq_true, if_false]

/-- The edge units hand over an answer, if there is one. -/
def answered (o : Option Packet) (s : State) : State := { s with mesh := { s.mesh with edge := s.mesh.edge ++ o.toList } }

/-- A channel with a grant serves it, and hands over the answer, if there is one. -/
theorem serveGrant_eq {ch : Nat} {s : State} (hgrant : smGet 0 s.hbm.granted ch ≠ 0) : serveGrant ch [] s =
    let q := serveChan (timeNow s) (onDieBad []) ch s.hbm
    answered (q.1.bind hbmAnswer) (flushHbm { s with hbm := q.2 }) := by
  have hcount : countOnDie ch [] s.hbm = s.hbm := rfl
  simp only [serveGrant, if_neg hgrant, hcount]
  cases (serveChan (timeNow s) (onDieBad []) ch s.hbm).1.bind hbmAnswer with
  | some p => rfl
  | none => simp only [answered, Option.toList_none, List.append_nil]

/-- The state t after channel ch has served request r of packet j, which it leaves as j1. -/
def RequestServed (ch : Nat) (r : HbmReq) (j j1 : HbmJob) (s t : State) : Prop :=
  Noted { s with hbm := t.hbm, mesh := { s.mesh with edge := t.mesh.edge } } t ∧ t.hbm.jobs = jobsAfter s.hbm.jobs j j1 ∧
  t.hbm = { s.hbm with words := t.hbm.words, chans := t.hbm.chans, stks := t.hbm.stks, granted := t.hbm.granted,
                       reqs := s.hbm.reqs.erase r, jobs := t.hbm.jobs, events := [] } ∧
  (∀ x, smGet 0 t.hbm.granted x = if x = ch then 0 else smGet 0 s.hbm.granted x) ∧ (j.left ≠ 1 → t.mesh.edge = s.mesh.edge)

theorem exec_hbmRequestGrant {ch : Nat} {s : State} (hch : ch < 512) (hup : hbmUp s (ch / 64) = true) :
    exec (.hbmRequestGrant ch []) s = .next (serveGrant ch [] s) := by
  have hok : instrOk (.hbmRequestGrant ch []) = true := Bool.and_eq_true_iff.mpr ⟨decide_eq_true hch, rfl⟩
  have hexec : exec (.hbmRequestGrant ch []) s = .next (if hbmUp s (ch / 64) then serveGrant ch [] s else s) := if_pos hok
  rw [hexec, if_pos hup]

theorem exec_hbmRequestGrant_idle {ch : Nat} {s : State} (hch : ch < 512)
    (hidle : hbmUp s (ch / 64) = false ∨ smGet 0 s.hbm.granted ch = 0) : exec (.hbmRequestGrant ch []) s = .next s := by
  have hok : instrOk (.hbmRequestGrant ch []) = true := Bool.and_eq_true_iff.mpr ⟨decide_eq_true hch, rfl⟩
  have hexec : exec (.hbmRequestGrant ch []) s = .next (if hbmUp s (ch / 64) then serveGrant ch [] s else s) := if_pos hok
  rw [hexec]
  rcases hidle with hdown | hnone
  · rw [if_neg (Bool.not_eq_true _ ▸ hdown)]
  · rw [serveGrant, if_pos hnone, ite_self]

section
variable {ch : Nat} {s : State} {r : HbmReq} {j : HbmJob} (hgrant : smGet 0 s.hbm.granted ch = r.rq + 1) (hrq : r.rq < 9)
  (hreq : s.hbm.reqs.find? (fun x => decide (x.chan = ch) && decide (x.rq = r.rq)) = some r)
  (hjob : s.hbm.jobs.find? (fun x => decide (x.id = r.job)) = some j)
include hgrant hrq hreq hjob

theorem serveChan_request : serveChan (timeNow s) (onDieBad []) ch s.hbm =
    let q := serveReq (timeNow s) [] j r (takenUp ch r s.hbm)
    if q.1.left = 0 then (some q.1, { q.2 with jobs := q.2.jobs.filter fun x => !decide (x.id = j.id) })
    else (none, { q.2 with jobs := q.2.jobs.map fun x => if x.id = j.id then q.1 else x }) := by
  have hfind : s.hbm.reqs.find? (fun x => decide (x.chan = ch) && decide (x.rq + 1 = r.rq + 1)) = some r := by
    simpa only [Nat.add_right_cancel_iff] using hreq
  simp only [serveChan, hgrant, if_neg (Nat.succ_ne_zero r.rq), if_neg (show ¬r.rq + 1 = 10 by omega), hfind, hjob]
  rfl

/-- A granted request is served: the partitions as the access leaves them, the packet's part, and with its last request the answer. -/
theorem serveGrant_request {j1 : HbmJob} {h2 : Hbm} (hserve : serveReq (timeNow s) [] j r (takenUp ch r s.hbm) = (j1, h2))
    (hleft : j1.left = j.left - 1) (hpos : 1 ≤ j.left) (hjobs : h2.jobs = s.hbm.jobs) :
    serveGrant ch [] s = answered (if j.left = 1 then hbmAnswer j1 else none)
      (flushHbm { s with hbm := { h2 with jobs := jobsAfter s.hbm.jobs j j1 } }) := by
  rw [serveGrant_eq (by omega), serveChan_request hgrant hrq hreq hjob, hserve]
  by_cases hlast : j.left = 1
  · simp only [if_pos (show j1.left = 0 by omega), if_pos hlast, jobsAfter, hjobs, Option.bind_some]
  · simp only [if_neg (show ¬j1.left = 0 by omega), if_neg hlast, jobsAfter, hjobs, Option.bind_none]

theorem requestServed {j1 : HbmJob} {h2 : Hbm} (hserve : serveReq (timeNow s) [] j r (takenUp ch r s.hbm) = (j1, h2))
    (hleft : j1.left = j.left - 1) (hpos : 1 ≤ j.left) (hframe : h2 = wordFrame (takenUp ch r s.hbm) h2) :
    let t := serveGrant ch [] s
    RequestServed ch r j j1 s t ∧ t.hbm.words = h2.words ∧
      (j.left = 1 → t.mesh.edge = s.mesh.edge ++ (hbmAnswer j1).toList) := by
  have hjobs : h2.jobs = s.hbm.jobs := by rw [hframe]; rfl
  rw [serveGrant_request hgrant hrq hreq hjob hserve hleft hpos hjobs, flushHbm_eq]
  refine ⟨⟨rfl, rfl, ?_, fun x => ?_, fun hmore => ?_⟩, rfl, fun hlast => ?_⟩
  · simp only [answered]
    rw [hframe]
    rfl
  · simp only [answered]
    rw [hframe]
    exact smGet_smSet 0 s.hbm.granted ch x 0
  · simp [answered, hmore]
  · simp [answered, hlast]

end

/-! ### A fettling read -/

/-- The next word of a burst that fettling reads. -/
def fettleStep (now b : Nat) (acc : List HbmDecoded × Hbm) (i : Nat) : List HbmDecoded × Hbm :=
  (acc.1 ++ [(hbmReadWord now [] (32 * b + 8 * i) acc.2).1], (hbmReadWord now [] (32 * b + 8 * i) acc.2).2)

/-- The four words of a burst, as decoded, stored. -/
def storeBurst (b : Nat) (d : Nat → HbmDecoded) (h : Hbm) : Hbm :=
  (List.range 4).foldl (fun h i => hbmWriteWord (32 * b + 8 * i) (d i).data (d i).crazed h) h

theorem storeBurst_frame (b : Nat) (d : Nat → HbmDecoded) (h : Hbm) : storeBurst b d h = { h with words := (storeBurst b d h).words } := rfl

theorem storeBurst_words (b : Nat) (d : Nat → HbmDecoded) (h : Hbm) (j : Nat) : smGet 0#72 (storeBurst b d h).words j =
    if j / 4 = b then hbmStored (d (j % 4)).data (d (j % 4)).crazed else smGet 0#72 h.words j := by
  by_cases hj : j / 4 = b
  · have hread := foldl_writes (fun _ => True) (fun (h : Hbm) i => smGet 0#72 h.words (4 * b + i))
      (fun h i => hbmWriteWord (32 * b + 8 * i) (d i).data (d i).crazed h) (fun i => hbmStored (d i).data (d i).crazed)
      (fun _ _ _ => trivial) (fun h k i hne => by rw [hbmWriteWord_words, if_neg (by omega)])
      (fun h k _ => by rw [hbmWriteWord_words, if_pos (by omega)]) (List.range 4) h trivial (j % 4)
    rw [if_pos (List.mem_range.mpr (by omega)), show 4 * b + j % 4 = j by omega] at hread
    rw [if_pos hj]
    exact hread
  · have hrange : List.range 4 = [0, 1, 2, 3] := rfl
    simp only [storeBurst, hrange, List.foldl_cons, List.foldl_nil, hbmWriteWord_words]
    rw [if_neg (by omega), if_neg (by omega), if_neg (by omega), if_neg (by omega), if_neg hj]

/-- What a word of HBM decodes to. -/
def decodedAt (h : Hbm) (x : Nat) : HbmDecoded := hbmDecode (smGet 0#72 h.words x)

section
variable {now b : Nat} {h : Hbm} (hue : ∀ k, k < 4 → (decodedAt h (4 * b + k)).ue = false)
include hue

/-- Fettling reads the words of its burst as they decode; without an uncorrectable error it brings no event. -/
theorem foldl_fettleStep {n : Nat} (hn : n ≤ 4) :
    let q := (List.range n).foldl (fettleStep now b) ([], h)
    q.1 = (List.range n).map (fun i => decodedAt h (4 * b + i)) ∧ q.2 = countFrame h q.2 := by
  induction n with
  | zero => exact ⟨rfl, rfl⟩
  | succ n ih =>
    obtain ⟨hread, hframe⟩ := ih (by omega)
    have hkey : (32 * b + 8 * n) / 8 = 4 * b + n := by omega
    have hwords : ((List.range n).foldl (fettleStep now b) ([], h)).2.words = h.words := by rw [hframe]; rfl
    have hquiet := hbmReadWord_quiet (now := now) (a := 32 * b + 8 * n) (h := ((List.range n).foldl (fettleStep now b) ([], h)).2)
      (by rw [hkey, hwords]; exact hue n (by omega))
    rw [List.range_succ, List.foldl_append, List.foldl_cons, List.foldl_nil, List.map_append]
    refine ⟨?_, ?_⟩
    · rw [fettleStep, hbmReadWord_decodes, hkey, hwords, hread]
      rfl
    · simp only [fettleStep]
      rw [hquiet, hframe]
      rfl

theorem hbmFettle_eq : hbmFettle now [] b h =
    let t := ((List.range 4).foldl (fettleStep now b) ([], h)).2
    if ((List.range 4).any fun i => (decodedAt h (4 * b + i)).ce) = true then
      storeBurst b (fun i => decodedAt h (4 * b + i)) (modChan t (addrChan (32 * b)) fun c => { c with rmw := sat16 c.rmw 1 })
    else t := by
  have hread := (foldl_fettleStep (now := now) hue (Nat.le_refl 4)).1
  have hcall : hbmFettle now [] b h =
      let q := (List.range 4).foldl (fettleStep now b) ([], h)
      if q.1.any (·.ce) then
        q.1.zipIdx.foldl (fun h d => hbmWriteWord (32 * b + 8 * d.2) d.1.data d.1.crazed h)
          (modChan q.2 (addrChan (32 * b)) fun c => { c with rmw := sat16 c.rmw 1 })
      else q.2 := rfl
  rw [hcall]
  simp only [hread, List.any_map]
  rfl

/-- Where fettling corrects a word, the four words of its burst are stored as decoded. -/
theorem hbmFettle_corrects (hce : ((List.range 4).any fun i => (decodedAt h (4 * b + i)).ce) = true) :
    let t := hbmFettle now [] b h
    t = { countFrame h t with words := t.words } ∧ ∀ j, smGet 0#72 t.words j =
      if j / 4 = b then hbmStored (decodedAt h (4 * b + j % 4)).data (decodedAt h (4 * b + j % 4)).crazed else smGet 0#72 h.words j := by
  have hframe := (foldl_fettleStep (now := now) hue (Nat.le_refl 4)).2
  rw [(hbmFettle_eq hue).trans (if_pos hce)]
  refine ⟨?_, fun j => ?_⟩
  · rw [storeBurst_frame, hframe]
    rfl
  · rw [storeBurst_words, hframe]
    rfl

/-- Where fettling corrects no word, it stores none. -/
theorem hbmFettle_reads (hce : ((List.range 4).any fun i => (decodedAt h (4 * b + i)).ce) = false) :
    hbmFettle now [] b h = countFrame h (hbmFettle now [] b h) := by
  rw [(hbmFettle_eq hue).trans (if_neg (Bool.not_eq_true _ ▸ hce))]
  exact (foldl_fettleStep (now := now) hue (Nat.le_refl 4)).2

end

end Sys2Proof.Machine
end

section
/-!
PROOFS. The channels of the partitions (O33): packets that reach the channel controllers.
-/

namespace Sys2Proof.Machine

/-! ### The requests of a packet -/

/-- The words of a packet that a request covers. -/
def reqWords (r : HbmReq) : List Nat := List.range' r.first r.n

/-- A request for words in one aligned block of 64 bytes, of a packet whose words lie at `addr`: it is the packet's and its requester's, and
goes to the channel of the block (R354). -/
def BlockReq (addr : Nat → Option Nat) (rq job : Nat) (r : HbmReq) : Prop :=
  r.job = job ∧ r.rq = rq ∧ 1 ≤ r.n ∧ ∃ a, addr r.first = some a ∧ a / 8 % 8 + r.n ≤ 8 ∧ r.chan = addrChan a

/-- Requests that cover n words of a packet from word `first` on, in order. -/
def CoverWords (addr : Nat → Option Nat) (rq job first n : Nat) (rs : List HbmReq) : Prop :=
  rs.flatMap reqWords = List.range' first n ∧ ∀ r ∈ rs, BlockReq addr rq job r

/-- The requests `rs` with the word `first` before them, which lies at a: in the first of them where it lies in the same block, else by a
request of its own. -/
def consWord (rq job first a : Nat) : List HbmReq → List HbmReq
  | [] => [{ chan := addrChan a, rq := rq, job := job, first := first, n := 1 }]
  | r :: l =>
    if (a / 8 + 1) % 8 ≠ 0 ∧ r.first = first + 1 then { r with first := first, n := r.n + 1 } :: l
    else { chan := addrChan a, rq := rq, job := job, first := first, n := 1 } :: r :: l

theorem wordReqs_succ {addr : Nat → Option Nat} {first a : Nat} (rq job n : Nat) (ha : addr first = some a) :
    wordReqs addr rq job first (n + 1) = consWord rq job first a (wordReqs addr rq job (first + 1) n) := by
  rw [wordReqs, ha]
  cases wordReqs addr rq job (first + 1) n <;> rfl

theorem addrChan_next {a : Nat} (hblock : (a / 8 + 1) % 8 ≠ 0) : addrChan (a + 8) = addrChan a := by
  have h64 : (a + 8) / 64 = a / 64 := by omega
  have hpart : addrPart (a + 8) = addrPart a := by
    simp only [addrPart, partBytes]
    omega
  have hhalf : (a + 8) % partBytes / 4096 % 2 = a % partBytes / 4096 % 2 := by
    simp only [partBytes]
    omega
  have hpc : addrPc (a + 8) = addrPc a := by
    simp only [addrPc, partBytes]
    omega
  rw [addrChan, addrChan, hpart, hhalf, hpc]

section
variable {addr : Nat → Option Nat} {rq job : Nat} (hnext : ∀ i a, addr i = some a → (a / 8 + 1) % 8 ≠ 0 → addr (i + 1) = some (a + 8))
include hnext

theorem coverWords_consWord {first n a : Nat} {rs : List HbmReq} (hfirst : addr first = some a)
    (hrs : CoverWords addr rq job (first + 1) n rs) : CoverWords addr rq job first (n + 1) (consWord rq job first a rs) := by
  obtain ⟨hcover, hblock⟩ := hrs
  have hown : BlockReq addr rq job { chan := addrChan a, rq := rq, job := job, first := first, n := 1 } :=
    ⟨rfl, rfl, Nat.le_refl 1, a, hfirst, Nat.succ_le_of_lt (Nat.mod_lt _ (by decide)), rfl⟩
  cases rs with
  | nil =>
    have hzero : n = 0 := by simpa using hcover.symm
    subst hzero
    exact ⟨rfl, fun r hr => List.mem_singleton.mp hr ▸ hown⟩
  | cons r l =>
    rw [consWord]
    split
    · next hjoin =>
      obtain ⟨hsame, hadj⟩ := hjoin
      obtain ⟨hj, hq, hpos, b, hb, hfit, hchan⟩ := hblock r List.mem_cons_self
      have hab : b = a + 8 := by
        rw [hadj, hnext first a hfirst hsame] at hb
        exact (Option.some.inj hb).symm
      refine ⟨?_, fun x hx => ?_⟩
      · rw [List.flatMap_cons, reqWords, List.range'_succ, List.range'_succ, List.cons_append, ← hcover, List.flatMap_cons, reqWords, hadj]
      · rcases List.mem_cons.mp hx with rfl | hx
        · refine ⟨hj, hq, Nat.le_add_left 1 _, a, hfirst, ?_, ?_⟩
          · simp only
            omega
          · rw [hchan, hab, addrChan_next hsame]
        · exact hblock x (List.mem_cons_of_mem _ hx)
    · refine ⟨?_, fun x hx => ?_⟩
      · rw [List.flatMap_cons, hcover]
        rfl
      · rcases List.mem_cons.mp hx with rfl | hx
        · exact hown
        · exact hblock x hx

/-- The requests of a packet cover its words in order, none of them over the end of a block. -/
theorem coverWords_wordReqs (first n : Nat) (hall : ∀ i, first ≤ i → i < first + n → addr i ≠ none) :
    CoverWords addr rq job first n (wordReqs addr rq job first n) := by
  induction n generalizing first with
  | zero => exact ⟨rfl, fun r hr => absurd hr List.not_mem_nil⟩
  | succ n ih =>
    obtain ⟨a, ha⟩ := Option.ne_none_iff_exists'.mp (hall first (Nat.le_refl _) (by omega))
    have hrest := ih (first + 1) fun i hlo hhi => hall i (by omega) (by omega)
    rw [wordReqs_succ rq job n ha]
    exact coverWords_consWord hnext ha hrest

end

/-- The next word of a packet in the same block lies 8 bytes on (R363). -/
theorem packetAddr_next (h : Hbm) (p : Packet) (i a : Nat) (ha : packetAddr h p i = some a) (hblock : (a / 8 + 1) % 8 ≠ 0) :
    packetAddr h p (i + 1) = some (a + 8) := by
  obtain ⟨e, he, rfl⟩ := Option.map_eq_some_iff.mp ha
  have hpage : (p.haddr + 8 * (i + 1)) / 0x400000 = (p.haddr + 8 * i) / 0x400000 := by omega
  have hentry : entryIndex h p.job (p.haddr + 8 * (i + 1)) = entryIndex h p.job (p.haddr + 8 * i) := by
    rw [entryIndex, hpage, entryIndex]
  rw [packetAddr, hbmTranslate, hentry, he, Option.map_some]
  exact congrArg some (by omega)

/-! ### Joining the channel controllers -/

theorem hbmRows_eq (p : Packet) : hbmRows p = { p with count := if p.typ = .hbmWrite then p.rows.length else p.count } := by
  by_cases htyp : p.typ = .hbmWrite
  · rw [hbmRows, if_pos htyp, htyp]
  · rw [if_neg htyp, hbmRows]
    split
    · next hwrite => exact absurd hwrite htyp
    · rfl

/-- One channel's part of a grant cycle. -/
def chanStep (v : ArbVals) (p f : Nat) (acc : Hbm × SMap ArbInst) (n : Nat) : Hbm × SMap ArbInst :=
  ((chanCycle v p (64 * f + n) (smGet ArbInst.reset acc.2 n) acc.1).1,
    smSet ArbInst.reset acc.2 n (chanCycle v p (64 * f + n) (smGet ArbInst.reset acc.2 n) acc.1).2)

/-- The partitions h with what the channels have granted, and the count of grants, as t has it. -/
def grantFrame (h t : Hbm) : Hbm := { h with granted := t.granted, grants := t.grants }

theorem chanCycle_frame (v : ArbVals) (p chan : Nat) (a : ArbInst) (h : Hbm) :
    (chanCycle v p chan a h).1 = grantFrame h (chanCycle v p chan a h).1 := by
  simp only [chanCycle]
  split <;> rfl

theorem foldl_chanStep_frame (v : ArbVals) (p f : Nat) (l : List Nat) (acc : Hbm × SMap ArbInst) :
    (l.foldl (chanStep v p f) acc).1 = grantFrame acc.1 (l.foldl (chanStep v p f) acc).1 := by
  have hframe := foldl_frame (fun a t : Hbm × SMap ArbInst => (grantFrame a.1 t.1, t.2)) (fun _ => rfl) (fun _ _ _ => rfl)
    (chanStep v p f) (fun a n => Prod.ext (chanCycle_frame v p (64 * f + n) _ a.1) rfl) l acc
  exact congrArg Prod.fst hframe

/-- A grant cycle of the channels of field f whose numbers a list gives. -/
def bankCycle (l : List Nat) (f : Nat) (h : Hbm) : Hbm :=
  let b := takeBank false (smGet ArbBank.reset h.arbs f)
  let r := l.foldl (fun (acc : Hbm × SMap ArbInst) n =>
    let c := chanCycle b.set_.eff b.ptr (64 * f + n) (smGet ArbInst.reset acc.2 n) acc.1
    (c.1, smSet ArbInst.reset acc.2 n c.2)) (h, b.insts)
  { r.1 with arbs := smSet ArbBank.reset r.1.arbs f { b with ptr := (b.ptr + 1) % 64, insts := r.2 } }

theorem hbmCycle_eq (f : Nat) (h : Hbm) : hbmCycle f h = bankCycle (List.range 64) f h := rfl

theorem bankCycle_eq (l : List Nat) (f : Nat) (h : Hbm) : bankCycle l f h =
    let b := takeBank false (smGet ArbBank.reset h.arbs f)
    let r := l.foldl (chanStep b.set_.eff b.ptr f) (h, b.insts)
    { r.1 with arbs := smSet ArbBank.reset r.1.arbs f { b with ptr := (b.ptr + 1) % 64, insts := r.2 } } := rfl

/-- The partitions h with what grant cycles change as t has it. -/
def cycleFrame (h t : Hbm) : Hbm := { grantFrame h t with arbs := t.arbs }

/-- A grant cycle changes what the channels have granted, the count of grants, and the arbiters. -/
theorem hbmCycle_frame (f : Nat) (h : Hbm) : hbmCycle f h = cycleFrame h (hbmCycle f h) := by
  have hbank : ∀ l, bankCycle l f h = cycleFrame h (bankCycle l f h) := by
    intro l
    rw [bankCycle_eq]
    simp only
    rw [foldl_chanStep_frame]
    rfl
  rw [hbmCycle_eq]
  exact hbank _

/-- The mesh without what the channel controllers of field f have taken. -/
def takenMesh (f : Nat) (m : Mesh) : Mesh := { m with arrived := m.arrived.filter fun x => !atControllers f x }

/-- A cycle of the channel controllers that take one packet: the state t as its arrival leaves it, but for a grant cycle. -/
theorem arbiterGrant_hbm {f : Nat} {s t : State} {a : Arrived} (hf : f < 8) (hlocked : s.clock.locked = true)
    (harrived : s.mesh.arrived.filter (atControllers f) = [a]) (ht : arriveHbm { s with mesh := takenMesh f s.mesh } a = t) :
    ∃ h', exec (.arbiterGrant .hbm f) s = .next { t with hbm := h' } ∧ h' = cycleFrame t.hbm h' := by
  have hok : fieldOk f = true := decide_eq_true hf
  have hexec : exec (.arbiterGrant .hbm f) s = .next (if s.clock.locked then controllerCycle f s else s) := if_pos hok
  have htake : takeHbm f s = t := by
    rw [takeHbm, harrived]
    exact ht
  rw [hexec, if_pos hlocked, controllerCycle, htake]
  split
  · exact ⟨_, rfl, hbmCycle_frame f _⟩
  · exact ⟨_, rfl, rfl⟩

section
variable {s : State} {a : Arrived}

theorem arriveHbm_joins {x : Nat} (hat : hbmTranslate s.hbm a.pkt.job a.pkt.haddr = some x) (hin : partInService s (addrPart x) = true) :
    arriveHbm s a = { s with
      hbm := queuePacket (a.place % 4096) (packetRequester s (a.place % 4096) a.pkt) (hbmRows a.pkt) s.hbm } := by
  simp only [arriveHbm, hat, Option.map_some, hin, if_true]

theorem arriveHbm_fenced (hout : ∀ x, hbmTranslate s.hbm a.pkt.job a.pkt.haddr = some x → partInService s (addrPart x) = false) :
    arriveHbm s a = pushEdge (nackPkt (a.place % 4096) 1 a.pkt) s := by
  cases hat : hbmTranslate s.hbm a.pkt.job a.pkt.haddr with
  | none => simp only [arriveHbm, hat, Option.map_none]
  | some x => simp only [arriveHbm, hat, Option.map_some, hout x hat, Bool.false_eq_true, if_false]

end

theorem queuePacket_nothing {p : Packet} (place rq : Nat) (h : Hbm) (hnone : packetWords p = 0) : queuePacket place rq p h = h := by
  simp only [queuePacket, hnone, wordReqs, List.isEmpty_nil, if_true]

/-- A packet with words in HBM joins with the requests that cover them. -/
theorem queuePacket_joins {p : Packet} {h : Hbm} (place rq : Nat) (hpos : 0 < packetWords p)
    (hall : ∀ i, i < packetWords p → packetAddr h p i ≠ none) :
    ∃ rs, CoverWords (packetAddr h p) rq h.nextJob 0 (packetWords p) rs ∧ queuePacket place rq p h = { h with
      jobs := h.jobs ++ [{ id := h.nextJob, pkt := p, place := place, left := rs.length, words := [] }]
      nextJob := h.nextJob + 1, reqs := h.reqs ++ rs } := by
  have hcover := coverWords_wordReqs (rq := rq) (job := h.nextJob) (packetAddr_next h p) 0 (packetWords p)
    fun i _ hi => hall i (by omega)
  have hsome : ¬(wordReqs (packetAddr h p) rq h.nextJob 0 (packetWords p)).isEmpty = true := by
    intro hempty
    have hlen := congrArg List.length hcover.1
    rw [List.isEmpty_iff.mp hempty, List.flatMap_nil, List.length_nil, List.length_range'] at hlen
    omega
  exact ⟨_, hcover, if_neg hsome⟩

end Sys2Proof.Machine
end

section
/-!
PROOFS. The channels of the partitions (O33): grants that are served, and packets that join or are fenced.
-/

namespace Sys2Proof.Machine

/-! ### A granted fettling read -/

/-- The burst of a channel that fettling reads next. -/
def fettleBurst (h : Hbm) (ch : Nat) : Nat := chanAddr ch (32 * smGet 0 h.fettle ch) / 32

/-- The partitions after a channel has served its fettling read. -/
def fettled (now ch : Nat) (h : Hbm) : Hbm :=
  { hbmFettle now [] (fettleBurst h ch) { h with granted := smSet 0 h.granted ch 0 } with
    fettle := smSet 0 h.fettle ch ((smGet 0 h.fettle ch + 1) % chanBursts) }

section
variable {ch : Nat} {h : Hbm} {d : Nat → W64} {e : Nat → Bool}
  (hdec : ∀ k, k < 4 → decodedAt h (4 * fettleBurst h ch + k) = { data := d k, crazed := false, ce := e k, ue := false })
include hdec

theorem corrects_iff : ((List.range 4).any fun i => (decodedAt h (4 * fettleBurst h ch + i)).ce) = (e 0 || e 1 || e 2 || e 3) := by
  have hrange : List.range 4 = [0, 1, 2, 3] := rfl
  simp only [hrange, List.any_cons, List.any_nil, Bool.or_false, hdec 0 (by decide), hdec 1 (by decide), hdec 2 (by decide),
    hdec 3 (by decide), Bool.or_assoc]

/-- A fettling read: the four words of its burst stored where one is corrected, and else none; the next burst is due. -/
theorem fettled_spec (now : Nat) :
    let t := fettled now ch h
    t = { h with words := t.words, chans := t.chans, stks := t.stks, granted := t.granted, fettle := t.fettle } ∧
    (∀ k, k < 4 → smGet 0#72 t.words (4 * fettleBurst h ch + k) =
      (if e 0 || e 1 || e 2 || e 3 then hbmEncode (d k) else smGet 0#72 h.words (4 * fettleBurst h ch + k))) ∧
    (∀ x, x / 4 ≠ fettleBurst h ch → smGet 0#72 t.words x = smGet 0#72 h.words x) ∧
    ∀ x, smGet 0 t.granted x = if x = ch then 0 else smGet 0 h.granted x := by
  have hue : ∀ k, k < 4 → (decodedAt { h with granted := smSet 0 h.granted ch 0 } (4 * fettleBurst h ch + k)).ue = false :=
    fun k hk => congrArg HbmDecoded.ue (hdec k hk)
  have hiff := corrects_iff hdec
  cases hce : e 0 || e 1 || e 2 || e 3 with
  | true =>
    obtain ⟨hframe, hwords⟩ := hbmFettle_corrects (now := now) hue (hiff.trans hce)
    refine ⟨?_, fun k hk => ?_, fun x hx => (hwords x).trans (if_neg hx), fun x => ?_⟩
    · rw [fettled, hframe]
      rfl
    · have hmod : (4 * fettleBurst h ch + k) % 4 = k := by omega
      refine (hwords _).trans ?_
      rw [if_pos (by omega), if_pos rfl, hmod]
      exact congrArg (fun x : HbmDecoded => hbmStored x.data x.crazed) (hdec k hk)
    · rw [fettled, hframe]
      exact smGet_smSet 0 h.granted ch x 0
  | false =>
    have hframe := hbmFettle_reads (now := now) hue (hiff.trans hce)
    have hwords : (fettled now ch h).words = h.words := by
      rw [fettled, hframe]
      rfl
    refine ⟨?_, fun k hk => by rw [hwords]; rfl, fun x hx => by rw [hwords], fun x => ?_⟩
    · rw [fettled, hframe]
      rfl
    · rw [fettled, hframe]
      exact smGet_smSet 0 h.granted ch x 0

end

theorem fettled_next (now ch : Nat) (h : Hbm) (x : Nat) :
    smGet 0 (fettled now ch h).fettle x = if x = ch then (smGet 0 h.fettle ch + 1) % 0x3000000 else smGet 0 h.fettle x :=
  smGet_smSet 0 h.fettle ch x _

theorem serveGrant_fettle {ch : Nat} {s : State} (hgrant : smGet 0 s.hbm.granted ch = 10) :
    serveGrant ch [] s = atHbm (fun _ => fettled (timeNow s) ch s.hbm) s := by
  have hserve : serveChan (timeNow s) (onDieBad []) ch s.hbm = (none, fettled (timeNow s) ch s.hbm) := by
    simp only [serveChan, hgrant, if_neg (show ¬(10 : Nat) = 0 by decide), if_true]
    rfl
  rw [serveGrant_eq (by omega), hserve]
  simp only [Option.bind_none, answered, Option.toList_none, List.append_nil]
  rfl

/-! ### Packets that join, and packets that are fenced -/

section
variable {f : Nat} {s : State} {a : Arrived} (hf : f < 8) (hlocked : s.clock.locked = true)
  (harrived : s.mesh.arrived.filter (atControllers f) = [a])
include hf hlocked harrived

theorem packet_joins {x : Nat} (hat : hbmTranslate s.hbm a.pkt.job a.pkt.haddr = some x) (hin : partInService s (addrPart x) = true) :
    ∃ h', exec (.arbiterGrant .hbm f) s = .next { s with mesh := takenMesh f s.mesh, hbm := h' } ∧
      h' = cycleFrame (queuePacket (a.place % 4096) (packetRequester s (a.place % 4096) a.pkt) (hbmRows a.pkt) s.hbm) h' :=
  arbiterGrant_hbm hf hlocked harrived (arriveHbm_joins (s := { s with mesh := takenMesh f s.mesh }) hat hin)

theorem packet_fenced (hout : ∀ x, hbmTranslate s.hbm a.pkt.job a.pkt.haddr = some x → partInService s (addrPart x) = false) :
    ∃ h', exec (.arbiterGrant .hbm f) s = .next { s with
        mesh := { takenMesh f s.mesh with edge := s.mesh.edge ++ [nackPkt (a.place % 4096) 1 a.pkt] }, hbm := h' } ∧
      h' = cycleFrame s.hbm h' :=
  arbiterGrant_hbm hf hlocked harrived (arriveHbm_fenced (s := { s with mesh := takenMesh f s.mesh }) hout)

end

theorem wordFrame_of_readFrame {h t : Hbm} (ht : t = readFrame h t) : t = wordFrame h t := by
  rw [ht]
  rfl

/-- A served write is acknowledged to its issuer. -/
theorem hbmAnswer_acks {j : HbmJob} (htyp : j.pkt.typ = .hbmWrite) (habort : j.pkt.aborted = false) :
    ∃ k, hbmAnswer j = some k ∧ k.typ = .ack ∧ k.src = j.place ∧ k.dst = j.pkt.src ∧ k.tag = j.pkt.tag ∧ k.xid = j.pkt.xid ∧
      k.job = j.pkt.job :=
  ⟨hbmAck j, hbmAnswer_write htyp habort, rfl, rfl, rfl, rfl, rfl, rfl⟩

/-- A served read that is not cast is answered to its issuer with the rows of its words. -/
theorem hbmAnswer_rows {j : HbmJob} (htyp : j.pkt.typ = .hbmRead) (hcast : j.pkt.cast = none) :
    ∃ k, hbmAnswer j = some k ∧ k.typ = .hbmData ∧ k.src = j.place ∧ k.dst = j.pkt.src ∧ k.tag = j.pkt.tag ∧ k.xid = j.pkt.xid ∧
      k.addr = j.pkt.addr ∧ k.count = j.pkt.count ∧ k.rows = rowsOfWords j.pkt.side j.pkt.count j.words := by
  refine ⟨hbmData j, hbmAnswer_read htyp, ?_⟩
  simp only [hbmData, hcast, rowsOfWords_length, and_self]

/-- Settles O33: a packet that arrives joins by `packet_joins` with the requests that `queuePacket_joins` says cover it, or is answered by
`packet_fenced`; a served request is `requestServed`, with the words of `hbmWriteWords_run` for a write and those of `readReq_reads` for a
read; a fettling read is `fettled_spec`; without a grant or a rail the command does nothing. -/
theorem hbmGrants : Obligations.HbmGrants := by
  unfold Obligations.HbmGrants
  refine ⟨fun f s a hf hlocked harrived => ?arrives, fun ch a s r j hch hup hgrant hrq hreq hjob hpos ha hblock haddr => ?served,
    fun ch s d e hch hup hgrant => ?fettles, fun ch s hch hidle => exec_hbmRequestGrant_idle hch hidle⟩
  case arrives =>
    intro p router left n
    have hcount : packetWords (hbmRows p) = n := by
      rw [hbmRows_eq]
      rfl
    have haddr : ∀ i, packetAddr s.hbm (hbmRows p) i = packetAddr s.hbm p i := by
      intro i
      rw [hbmRows_eq]
      rfl
    refine ⟨fun x hat hin hrail => ?_, fun hout => ?_⟩
    · obtain ⟨h', hexec, hframe⟩ := packet_joins hf hlocked harrived hat hin
      refine ⟨fun hzero => ⟨h', hexec, ?_⟩, fun hsome hall => ?_⟩
      · rw [queuePacket_nothing _ _ _ (hcount.trans hzero)] at hframe
        exact hframe
      · obtain ⟨rs, hcover, hqueue⟩ := queuePacket_joins (p := hbmRows p) (h := s.hbm) router (packetRequester s router p)
          (by rw [hcount]; exact hsome) fun i hi => by rw [haddr]; exact hall i (hcount ▸ hi)
        rw [hqueue] at hframe
        obtain ⟨hwords, hblock⟩ := hcover
        refine ⟨h', rs, _, hexec, hframe, rfl, rfl, rfl, rfl, hbmRows_eq p, ?_, fun r hr => ?_⟩
        · rw [List.range_eq_range', ← hcount, ← hwords]
          exact List.flatMap_congr fun r _ => (List.range'_eq_map_range ..).symm
        · obtain ⟨hid, hrq, hone, b, hb, hfit, hchan⟩ := hblock r hr
          refine ⟨hid, hrq, hone, by omega, ?_⟩
          rw [← haddr, hb, hchan]
          rfl
    · obtain ⟨h', hexec, hframe⟩ := packet_fenced hf hlocked harrived hout
      exact ⟨h', _, hexec, hframe, rfl, rfl, rfl, rfl, rfl, rfl, rfl⟩
  case served =>
    intro w at_ rest common
    have hone : ∀ j1 t, exec (.hbmRequestGrant ch []) s = .next t → RequestServed ch r j j1 s t → common t j1 :=
      fun j1 t hexec hserved => ⟨hexec, hserved⟩
    have hexec := exec_hbmRequestGrant hch hup
    refine ⟨fun htyp => ?_, fun htyp => ?_⟩
    · have hserve := serveReq_write (now := timeNow s) (r := r) (h := takenUp ch r s.hbm) htyp
      rw [reqWrites_run (h := takenUp ch r s.hbm) haddr] at hserve
      obtain ⟨hserved, hwords, hanswer⟩ := requestServed hgrant hrq hreq hjob hserve rfl hpos (hbmWriteWords_frame ..)
      refine ⟨_, hone _ _ hexec hserved, fun x => ?_, fun hlast habort => ?_⟩
      · rw [hwords]
        exact hbmWriteWords_run _ _ _ ha x
      · obtain ⟨k, hk, hfields⟩ := hbmAnswer_acks (j := { j with left := j.left - 1 }) htyp habort
        exact ⟨k, by rw [hanswer hlast, hk]; rfl, hfields⟩
    · have hserve := serveReq_read (now := timeNow s) (r := r) (h := takenUp ch r s.hbm) htyp
      obtain ⟨hframe, hread⟩ := readReq_reads (now := timeNow s) (h := takenUp ch r s.hbm) haddr ha
      obtain ⟨hserved, hwords, hanswer⟩ := requestServed hgrant hrq hreq hjob hserve rfl hpos (wordFrame_of_readFrame hframe)
      have hkept : (readReq (timeNow s) [] j r (takenUp ch r s.hbm)).2.words = s.hbm.words := by
        rw [hframe]
        rfl
      refine ⟨_, _, hone _ _ hexec hserved, hwords.trans hkept, fun i hi => ?_, fun k hk => ?_, fun hlast hcast => ?_⟩
      · rw [hread, if_pos (by omega), Nat.add_sub_cancel_left]
        rfl
      · rw [hread, if_neg (by omega)]
      · obtain ⟨k, hk, htype, hsrc, hdst, htag, hxid, haddrs, hcount, hrows⟩ := hbmAnswer_rows
          (j := { j with left := j.left - 1, words := (readReq (timeNow s) [] j r (takenUp ch r s.hbm)).1 }) htyp hcast
        refine ⟨k, by rw [hanswer hlast, hk]; rfl, htype, hsrc, hdst, htag, hxid, haddrs, hcount, ?_, fun n i hn hi => ?_⟩
        · rw [hrows]
          exact rowsOfWords_length ..
        · rw [hrows]
          exact rowsOfWords_cells _ hn hi
  case fettles =>
    intro n b hdec
    obtain ⟨hframe, hwords, hother, hgranted⟩ := fettled_spec (h := s.hbm) (ch := ch) hdec (timeNow s)
    exact ⟨_, (exec_hbmRequestGrant hch hup).trans (congrArg _ (serveGrant_fettle hgrant)), hframe, hwords, hother, hgranted,
      fettled_next (timeNow s) ch s.hbm⟩

end Sys2Proof.Machine
end

section
/-!
PROOFS. One step of the module (O1).
-/

namespace Sys2Proof.Machine

theorem step_command (c : Instr) (rest : List Instr) (s : State) :
    step { s with pending := c :: rest } = exec c { s with pending := rest } := rfl

theorem step_idle {s : State} (h : s.pending = []) : step s = .next (idleTick s) := by
  rw [step, h]

theorem tickClock_locked {k : Clock} (h : k.locked = true) : tickClock k = { k with time := (k.time + 1) % 2 ^ 64 } := if_pos h

theorem tickClock_unlocked {k : Clock} (h : k.locked = false) : tickClock k = k := by
  rw [tickClock, h]
  rfl

/-- Settles O1: a step is `exec` of the front command, or the tick of `tickClock`. -/
theorem stepsRunTheQueue : Obligations.StepsRunTheQueue := by
  unfold Obligations.StepsRunTheQueue
  refine ⟨step_command, fun s hempty => ⟨idleTick s, step_idle hempty, rfl, fun hlocked _ => ?_, fun hunlocked => ?_⟩⟩
  · exact congrArg Clock.time (tickClock_locked hlocked)
  · rw [idleTick, tickClock_unlocked hunlocked]

end Sys2Proof.Machine
end

section
/-!
PROOFS. Stretches, divider changes and slews (O35).
-/

namespace Sys2Proof.Machine

/-! ### The clock alone -/

theorem applied_changes (n : Nat) : (n + 1) % 256 ≠ n := by omega

theorem applyDivider_pending {k : Clock} {p : DivChange} (h : k.pending = some p) :
    applyDivider k = { k with
      div := p.target, pending := none, deferred := false, applied := (k.applied + 1) % 256, appliedAt := k.time } := by
  rw [applyDivider, h]

/-- A field whose stretch has ended (R378). -/
def fieldEnded (periods : Nat) (x : FieldClk) : FieldClk :=
  { depth := 0, sensors := [], periods := min (2 ^ 48 - 1) (x.periods + periods) }

/-- The fields of the clocks once the stretch of field f has ended. -/
def fieldsEnded (k : Clock) (f periods : Nat) : SMap FieldClk := smMod FieldClk.reset k.fields f (fieldEnded periods)

theorem endStretch_undeferred {k : Clock} (h : k.deferred = false) (f periods : Nat) :
    endStretch k f periods = { k with fields := fieldsEnded k f periods } := by
  simp only [endStretch, h, Bool.false_and, Bool.false_eq_true, if_false]
  rfl

/-- The clocks once the stretch of field f has ended, field by field. -/
theorem getFieldClk_fieldsEnded_same (k : Clock) (f periods : Nat) :
    getFieldClk { k with fields := fieldsEnded k f periods } f =
      { depth := 0, sensors := [], periods := min (2 ^ 48 - 1) ((getFieldClk k f).periods + periods) } :=
  smGet_smMod_same FieldClk.reset k.fields f (fieldEnded periods)

theorem getFieldClk_fieldsEnded_other (k : Clock) {f g : Nat} (h : g ≠ f) (periods : Nat) :
    getFieldClk { k with fields := fieldsEnded k f periods } g = getFieldClk k g :=
  smGet_smMod_other FieldClk.reset k.fields (fieldEnded periods) h

/-- With the last stretch a deferred change applies (R386). -/
theorem endStretch_deferred {k : Clock} {f : Nat} {p : DivChange} (hdefer : k.deferred = true) (hp : k.pending = some p)
    (hlast : ∀ g, g < 8 → g ≠ f → (getFieldClk k g).depth = 0) (periods : Nat) :
    endStretch k f periods = { k with
      fields := fieldsEnded k f periods, div := p.target, pending := none, deferred := false, applied := (k.applied + 1) % 256
      appliedAt := k.time } := by
  have hnone : anyStretch { k with fields := fieldsEnded k f periods } = false := by
    refine List.any_eq_false.mpr fun g hg => ?_
    have hdepth : (getFieldClk { k with fields := fieldsEnded k f periods } g).depth = 0 := by
      by_cases hgf : g = f
      · rw [hgf, getFieldClk_fieldsEnded_same]
      · rw [getFieldClk_fieldsEnded_other k hgf, hlast g (List.mem_range.mp hg) hgf]
    simp [hdepth]
  have hends : endStretch k f periods = applyDivider { k with fields := fieldsEnded k f periods } :=
    if_pos ((Bool.and_eq_true _ _).mpr ⟨hdefer, congrArg not hnone⟩)
  rw [hends, applyDivider_pending (k := { k with fields := fieldsEnded k f periods }) hp]

theorem switchDivider_due {k : Clock} {p : DivChange} (hp : k.pending = some p) (hdefer : k.deferred = false) :
    switchDivider k =
      if anyStretch k then { k with time := max k.time p.tick, deferred := true }
      else { k with
        time := max k.time p.tick, div := p.target, pending := none, applied := (k.applied + 1) % 256
        appliedAt := max k.time p.tick } := by
  cases k
  subst hp hdefer
  rfl

theorem deferTimeout_due {k : Clock} {p : DivChange} (hp : k.pending = some p) (hdefer : k.deferred = true) :
    deferTimeout k =
      if p.target ≥ k.div then { k with
        time := max k.time (p.tick + 40000), div := p.target, pending := none, deferred := false
        applied := (k.applied + 1) % 256, appliedAt := max k.time (p.tick + 40000) }
      else { k with
        time := max k.time (p.tick + 40000), pending := none, deferred := false, cancelled := min 255 (k.cancelled + 1) } := by
  cases k
  subst hp hdefer
  rfl

theorem divOk_iff (k : Clock) (target tick : Nat) :
    divOk k target tick = true ↔ target ∈ [8, 9, 10, 11, 12, 14, 16] ∧ k.fastest ≤ target ∧ k.time + 4000 ≤ tick := by
  rw [divOk, Bool.and_eq_true, Bool.and_eq_true, List.contains_iff_mem, decide_eq_true_eq, decide_eq_true_eq, and_assoc]
  rfl

theorem slewClock_due {k : Clock} {n : Nat} (hlocked : k.locked = true) (hn : n = 0 ∨ n = 2) (htime : k.time ≥ k.slewTick + 1024) :
    slewClock k n = { k with time := (k.time + n) % 2 ^ 64, slewTick := k.time } := if_pos ⟨hlocked, hn, htime⟩

/-! ### A step of the clocks -/

theorem loadVolts_frame (div : Nat) (s : State) :
    loadVolts div s = { s with power := { s.power with clusters := (loadVolts div s).power.clusters } } := by
  simp only [loadVolts, loadTargets]

/-- From s to t the clock has become k', and where `volts` holds the voltage targets may have been written. -/
def ClockBecomes (s : State) (k' : Clock) (volts : Prop) (t : State) : Prop :=
  t = { s with clock := k', power := { s.power with clusters := t.power.clusters } } ∧ (¬volts → t.power = s.power)

/-- Two states alike but for the clock and the voltage targets. -/
theorem ClockBecomes.only {s t : State} {k' : Clock} {volts : Prop} (h : ClockBecomes s k' volts t) :
    t = { s with clock := t.clock, power := { s.power with clusters := t.power.clusters } } ∧ t.clock = k' := by
  have hclock : t.clock = k' := congrArg State.clock h.1
  exact ⟨hclock ▸ h.1, hclock⟩

theorem clockBecomes_set (s : State) (k' : Clock) (volts : Prop) : ClockBecomes s k' volts { s with clock := k' } := ⟨rfl, fun _ => rfl⟩

theorem clockBecomes_loadVolts (s : State) (k' : Clock) (volts : Prop) [Decidable volts] (div : Nat) :
    ClockBecomes s k' volts (if volts then loadVolts div { s with clock := k' } else { s with clock := k' }) := by
  by_cases h : volts
  · rw [if_pos h]
    exact ⟨loadVolts_frame div { s with clock := k' }, fun hnot => absurd h hnot⟩
  · rw [if_neg h]
    exact clockBecomes_set s k' volts

section
variable {f : Clock → Clock} {s : State} {p : DivChange}

/-- Where nothing applies and no deferral ends, a step of the clocks is the clock's own. -/
theorem clockStep_quiet (happlied : (f s.clock).applied = s.clock.applied)
    (hdefer : s.clock.deferred = false ∨ (f s.clock).deferred = true) : clockStep f s = { s with clock := f s.clock } := by
  have hends : (s.clock.deferred && !(f s.clock).deferred) = false := by
    rcases hdefer with h | h <;> simp [h]
  simp only [clockStep, happlied, hends, ne_eq, not_true, if_false, Bool.false_eq_true]
  cases s.clock.pending <;> rfl

section
variable (hp : s.clock.pending = some p)
include hp

/-- A change that applies brings the targets of a larger divider; a deferred one of no job is reported to none. -/
theorem clockStep_applies (happlied : (f s.clock).applied ≠ s.clock.applied) (hjob : s.clock.deferred = true → p.job = none) :
    ClockBecomes s (f s.clock) (p.target > s.clock.div) (clockStep f s) := by
  have hstep : clockStep f s =
      if p.target > s.clock.div then loadVolts p.target { s with clock := f s.clock } else { s with clock := f s.clock } := by
    simp only [clockStep, hp, happlied, ne_eq, not_false_eq_true, if_true]
    by_cases hdefer : s.clock.deferred = true
    · rw [if_pos hdefer, hjob hdefer]
      rfl
    · rw [if_neg hdefer]
  rw [hstep]
  exact clockBecomes_loadVolts ..

/-- A change of no job that is cancelled is reported to none. -/
theorem clockStep_cancels (happlied : (f s.clock).applied = s.clock.applied) (hjob : p.job = none) :
    clockStep f s = { s with clock := f s.clock } := by
  simp only [clockStep, hp, happlied, hjob, ne_eq, not_true, if_false]
  exact ite_self _

end

end

/-- A change that is armed or refused; a smaller divider brings its targets at once (R384, R410). -/
theorem scheduleDiv_becomes (target tick : Nat) (job : Option Nat) (s : State) :
    ClockBecomes s
      (if target ∈ [8, 9, 10, 11, 12, 14, 16] ∧ s.clock.fastest ≤ target ∧ s.clock.time + 4000 ≤ tick then
        { s.clock with
          target := target, tick := tick, pending := some { target := target, tick := tick, job := job }, deferred := false }
      else { s.clock with target := target, tick := tick, refused := min 255 (s.clock.refused + 1) })
      (target < s.clock.div) (scheduleDiv target tick job s) := by
  by_cases hok : divOk s.clock target tick = true
  · have harm : armDivider { s.clock with target := target, tick := tick } target tick job = { s.clock with
        target := target, tick := tick, pending := some { target := target, tick := tick, job := job }, deferred := false } := if_pos hok
    rw [if_pos ((divOk_iff _ _ _).mp hok), scheduleDiv]
    simp only [harm, hok, Bool.true_and, decide_eq_true_eq]
    exact clockBecomes_loadVolts ..
  · have harm : armDivider { s.clock with target := target, tick := tick } target tick job = { s.clock with
        target := target, tick := tick, refused := min 255 (s.clock.refused + 1) } := if_neg hok
    rw [if_neg fun h => hok ((divOk_iff _ _ _).mpr h), scheduleDiv]
    simp only [harm, hok, Bool.false_and, Bool.false_eq_true, if_false]
    exact clockBecomes_set ..

/-! ### The commands -/

theorem exec_marginTrip {droop : Bool} {unit : Nat} (h : (if droop then clusterOk unit else siteOk unit) = true) (n : Nat) (s : State) :
    exec (.marginTrip droop unit n) s = .next (marginTrip droop unit n s) := if_pos h

/-- A sensor that takes part trips (R377, R378). -/
theorem marginTrip_live {droop : Bool} {unit n : Nat} {s : State} (hlocked : s.clock.locked = true)
    (hlive : sensorsLive s (if droop then unit else siteCluster unit) = true) :
    marginTrip droop unit n s = { s with
      clock := tripClock s.clock (clusterField (if droop then unit else siteCluster unit)) (if droop then unit else 640 + unit)
        (if droop then 2 else 1) n } := by
  simp only [marginTrip, hlocked, hlive, Bool.and_self, if_true]

theorem marginTrip_idle {droop : Bool} {unit n : Nat} {s : State}
    (h : s.clock.locked = false ∨ sensorsLive s (if droop then unit else siteCluster unit) = false) : marginTrip droop unit n s = s := by
  refine if_neg ?_
  rcases h with h | h <;> simp [h]

theorem getFieldClk_tripClock_same (k : Clock) (f sensor d n : Nat) :
    getFieldClk (tripClock k f sensor d n) f = {
      depth := max (getFieldClk k f).depth d
      sensors := if sensor ∈ (getFieldClk k f).sensors then (getFieldClk k f).sensors else (getFieldClk k f).sensors ++ [sensor]
      periods := min (2 ^ 48 - 1) ((getFieldClk k f).periods + n) } := by
  simp only [getFieldClk, tripClock, smGet_smMod_same, List.contains_iff_mem]
  rfl

theorem getFieldClk_tripClock_other (k : Clock) {f g : Nat} (h : g ≠ f) (sensor d n : Nat) :
    getFieldClk (tripClock k f sensor d n) g = getFieldClk k g := by
  simp only [getFieldClk, tripClock, smGet_smMod_other _ _ _ h]

theorem exec_stretchEnd {f : Nat} (hf : f < 8) (n : Nat) (s : State) :
    exec (.stretchEnd f n) s =
      .next (if (getFieldClk s.clock f).depth > 0 then clockStep (fun k => endStretch k f n) s else s) := if_pos (decide_eq_true hf)

/-- The end of a stretch while no change is deferred is the clock's own. -/
theorem clockStep_endStretch {s : State} (h : s.clock.deferred = false) (f n : Nat) :
    clockStep (fun k => endStretch k f n) s = { s with clock := { s.clock with fields := fieldsEnded s.clock f n } } := by
  rw [clockStep_quiet (by rw [endStretch_undeferred h]) (.inl h), endStretch_undeferred h]

theorem exec_dividerArm {target : Nat} (h : target < 32) (s : State) :
    exec (.dividerArm target) s = .next (scheduleDiv target s.clock.tick none s) := by
  change Host.Outcome.next (scheduleDiv (target % 32) s.clock.tick none s) = _
  rw [Nat.mod_eq_of_lt h]

theorem exec_timeSlew {s : State} {n : Nat} (h : (s.clock.offsetPs.toInt > 0 ∧ n = 2) ∨ (s.clock.offsetPs.toInt < 0 ∧ n = 0))
    (hlocked : s.clock.locked = true) (htime : s.clock.time ≥ s.clock.slewTick + 1024) :
    exec (.timeSlew n) s = .next { s with clock := { s.clock with time := (s.clock.time + n) % 2 ^ 64, slewTick := s.clock.time } } := by
  have hn : n = 0 ∨ n = 2 := h.elim (fun h => .inr h.2) fun h => .inl h.2
  have hok : instrOk (.timeSlew n) = true := by
    rcases hn with rfl | rfl <;> rfl
  change answer (instrOk (.timeSlew n)) (if _ then _ else s) = _
  rw [if_pos h, slewClock_due hlocked hn htime, hok]
  rfl

/-! ### The statement -/

/-- Settles O35: each command is one equation of the clock; what follows a step of the clocks is `clockStep`'s, by whether the change
applies, is cancelled, or waits. -/
theorem stretchesDividersAndSlews : Obligations.StretchesDividersAndSlews := by
  unfold Obligations.StretchesDividersAndSlews
  intro s k only
  refine ⟨fun droop unit n hunit => ⟨fun hlocked hlive => ?trips, fun hidle => ?idle⟩, fun f n hf hdepth hdefer => ?ends,
    fun f n hf hdepth => ?unstretched, fun f n p hf hdepth hdefer hp hjob hlast => ?lastEnds, fun target htarget => ?arms,
    fun p hp hdefer => ?switches, fun p hp hdefer hjob => ?times, fun hlocked hbehind htime => ?behind,
    fun hlocked hahead htime => ?ahead⟩
  case trips =>
    refine ⟨_, (exec_marginTrip hunit n s).trans (congrArg _ (marginTrip_live hlocked hlive)), rfl, ?_, fun g hg => ?_⟩
    · exact getFieldClk_tripClock_same ..
    · exact getFieldClk_tripClock_other k hg ..
  case idle => rw [exec_marginTrip hunit, marginTrip_idle hidle]
  case ends =>
    refine ⟨_, ?_, rfl, getFieldClk_fieldsEnded_same k f n, fun g hg => getFieldClk_fieldsEnded_other k hg n⟩
    rw [exec_stretchEnd hf, if_pos hdepth, clockStep_endStretch hdefer]
  case unstretched =>
    rw [exec_stretchEnd hf, if_neg (Nat.not_lt.mpr (Nat.le_of_eq hdepth))]
  case lastEnds =>
    have hends := endStretch_deferred hdefer hp hlast n
    obtain ⟨honly, hclock⟩ := (clockStep_applies (f := fun k => endStretch k f n) hp
      (by rw [hends]; exact applied_changes _) fun _ => hjob).only
    refine ⟨_, (exec_stretchEnd hf n s).trans (congrArg _ (if_pos hdepth)), honly, ?_⟩
    have hfields : (clockStep (fun k => endStretch k f n) s).clock.fields = fieldsEnded k f n := by rw [hclock, hends]
    rw [hfields, hclock, hends]
  case arms =>
    have hbecomes := scheduleDiv_becomes target k.tick none s
    refine ⟨_, exec_dividerArm htarget s, hbecomes.only.1, fun hle => hbecomes.2 (Nat.not_lt.mpr hle), hbecomes.only.2⟩
  case switches =>
    have hswitch := switchDivider_due hp hdefer
    by_cases hany : anyStretch k = true
    · rw [if_pos hany] at hswitch ⊢
      have hquiet : clockStep switchDivider s = { s with clock := switchDivider k } :=
        clockStep_quiet (by rw [hswitch]) (.inl hdefer)
      exact ⟨_, congrArg Host.Outcome.next hquiet, rfl, fun _ => rfl, hswitch⟩
    · rw [if_neg hany] at hswitch ⊢
      have hbecomes := clockStep_applies (f := switchDivider) hp (by rw [hswitch]; exact applied_changes _)
        fun h => absurd (hdefer.symm.trans h) Bool.false_ne_true
      exact ⟨_, rfl, hbecomes.only.1, fun h => hbecomes.2 (Nat.not_lt.mpr (h.resolve_right hany)), hbecomes.only.2.trans hswitch⟩
  case times =>
    simp only
    have htimeout := deferTimeout_due hp hdefer
    by_cases hlarger : p.target ≥ k.div
    · rw [if_pos hlarger] at htimeout ⊢
      have hbecomes := clockStep_applies (f := deferTimeout) hp (by rw [htimeout]; exact applied_changes _) fun _ => hjob
      exact ⟨_, rfl, hbecomes.only.1, fun h => hbecomes.2 (Nat.not_lt.mpr h), hbecomes.only.2.trans htimeout⟩
    · rw [if_neg hlarger] at htimeout ⊢
      have hquiet : clockStep deferTimeout s = { s with clock := deferTimeout k } :=
        clockStep_cancels hp (by rw [htimeout]) hjob
      exact ⟨_, congrArg Host.Outcome.next hquiet, rfl, fun _ => rfl, htimeout⟩
  case behind => exact exec_timeSlew (.inl ⟨hbehind, rfl⟩) hlocked htime
  case ahead => exact exec_timeSlew (.inr ⟨hahead, rfl⟩) hlocked htime

end Sys2Proof.Machine
end

section
/-!
PROOFS. The end of a job over two modules (O50): a queue that the store of the state words lists twice.
-/

namespace Sys2Proof.Machine

/-- Job 0 of two modules at its member of rank 1, whose leader is reached over trunk port 0; it runs no step, and nothing waits on it. -/
def memberJob : Job := { idleJob with rank := 1, modules := 2, upPort := some 0 }

/-- The leader's COMPLETE JOB_END for the job, with JOB_FAILED. -/
def jobEndMsg : TMsg := { TMsg.blank with typ := 6, kind := 3, srcRank := 0, dstRank := 0xFE, arg := 3 }

/-- The member with the message in the inbox of port 0, its state words listing queue 3 twice: enabled for job 0 where it is read, and
for job 1 behind. -/
def jobEndingState : State :=
  { State.reset with
    jobs := [memberJob], queues := { State.reset.queues with states := listedTwice }
    trunks := [(0, { TPort.reset with inbox := [jobEndMsg] })] }

theorem inbox_jobEndingState : (getTrunk jobEndingState 0).inbox = [jobEndMsg] := rfl

theorem keyJobAt_jobEndingState : keyJobAt jobEndingState 0 jobEndMsg.jkey = some memberJob := rfl

/-- JOB_END disables the state word of job 0, which is then the reset value and leaves the store: queue 3 reads as the word behind it,
enabled for job 1. -/
theorem enabledAfter_jobEnd : enabledAfter 3 (exec (.completeJobEnd 0) jobEndingState) = true := by decide +kernel

/-- Refutes O50: with the state word of queue 3 listed twice, JOB_END disables and so removes the first, and the queue, which was read as
enabled for the job that ends, reads as enabled. The statement bounds no store to the canonical form. -/
theorem not_membersMoveTogether : ¬ Obligations.MembersMoveTogether := by
  unfold Obligations.MembersMoveTogether
  intro ⟨_, hcomplete⟩
  obtain ⟨-, -, hend⟩ := hcomplete 0 jobEndingState jobEndMsg [] memberJob (by decide) inbox_jobEndingState rfl keyJobAt_jobEndingState rfl
  obtain ⟨t, v, u, hexec, -, -, -, -, -, -, -, -, -, -, -, -, hqueues⟩ := hend rfl rfl rfl rfl rfl
  have hdisabled : (getQ t.queues 3).en = false := hqueues 3
  have henabled : (getQ t.queues 3).en = true := by
    have heval := enabledAfter_jobEnd
    rwa [hexec] at heval
  exact absurd (hdisabled.symm.trans henabled) Bool.false_ne_true

end Sys2Proof.Machine
end
